-- ==== Sys2Proof/Word.lean ====
section
/-! DEFINITION. The word and byte types of the part, and the numbers that name its units. -/

namespace Sys2Proof

/-- A 64-bit register, pointer or CSR value (R67, R222). -/
abbrev Word := BitVec 64

/-- One byte (R11: little-endian everywhere). -/
abbrev Byte := BitVec 8

/-- A run of bytes, lowest address first. -/
abbrev Bytes := List Byte

/-- A run of 32-bit words: a row of FP32 logits (R268). -/
abbrev Words32 := List (BitVec 32)

/-- Global core number g = 32d + 8k + c (R5). -/
abbrev CoreId := Fin 512

/-- Compute die CDd (R4). -/
abbrev DieId := Fin 16

/-- Hub HBh (R3). -/
abbrev HubId := Fin 4

/-- A function: 0 the PF, 1 to 63 the VF of that number (R324). -/
abbrev FnId := Fin 64

/-- A ring pair of a function (R278). -/
abbrev RingId := Fin 64

/-- The ring sequence number that names a packet of a ring (R284). -/
abbrev PktSeq := BitVec 16

/-- An integer register of a sequencer (R67). -/
abbrev Reg := BitVec 5

/-- DMA channel 0 or 1 (R63). -/
abbrev Chan := Fin 2

/-- Engine queue: 0 matrix, 1 vector, 2 DMA channel 0, 3 DMA channel 1 (R75 wengerr). -/
abbrev QueueId := Fin 4

/-- Coherent agent number (R350). -/
abbrev AgentId := BitVec 11

/-- A sharer group: 0 to 63 the clusters CDd.Kk at 4d + k, 64 to 67 the dome processors of HBh (R351). -/
abbrev GroupId := Fin 68

/-- A requesting stream (R356): sequencers 0 to 511, DMA channels 512 + 2g + c, dome processors 1536 + 8h + i. -/
abbrev StreamId := Fin 1568

/-- An ownership table: 0 to 3 the HBM tables of HBh.M, 4 + d the stacked-SRAM table of CDd.S (R181). -/
abbrev TableId := Fin 20

/-- Island number of R441 kind 10: CDd.Kk at 4d + k, CDd.S at 64 + d, HBh.P/H/M/D/S at 80 + 5h + 0 to 4. -/
abbrev IslandId := Fin 100

/-- A second-stage rail: the island's number, or 100 + n for HBM stack Mn (R482). -/
abbrev RailId := Fin 112

end Sys2Proof
end

