-- ==== Sys2Proof/Syntax.lean ====
section
/-! DEFINITION. The commands of the part: one constructor of Instr for each row of spec/opcode_table.json, with its
operands. The table gives no bits and no fields, so every operand list is the model's (log entry 2): the registers and
fields of an instruction, the packet or register a host action names, the data that arrives with a message, the elapsed
cycles that an event reports, and the choice among what the spec allows where it leaves the choice to firmware. -/

namespace Sys2Proof

/-- Width and extension of a sequencer load (R67, RV64I). -/
inductive LoadKind where
  | lb | lh | lw | ld | lbu | lhu | lwu
deriving DecidableEq, Repr

/-- Width of a sequencer store (R72). -/
inductive MemSize where
  | b | h | w | d
deriving DecidableEq, Repr

/-- The integer AMOs of the A extension (R211). -/
inductive AmoOp where
  | swap | add | xor | and | or | min | max | minu | maxu
deriving DecidableEq, Repr

/-- CSRRW, CSRRS and CSRRC (R67 Zicsr). -/
inductive CsrOp where
  | rw | rs | rc
deriving DecidableEq, Repr

/-- Page sizes that the translation caches hold (R229). -/
inductive PageSize where
  | k4 | m2 | g1 | g512
deriving DecidableEq, Repr

/-- Page request response codes (R235). -/
inductive PrgCode where
  | success | invalidRequest | responseFailure
deriving DecidableEq, Repr

/-- Who waits for a translation: a sequencer, a DMA channel, or a packet's buffer (R232, R233, R293). -/
inductive Waiter where
  | seq (g : CoreId)
  | chan (g : CoreId) (c : Chan)
  | pkt (f : FnId) (r : RingId) (q : PktSeq)
deriving DecidableEq, Repr

/-- The copy that a host CXL.mem request asks for (R354). -/
inductive HostWant where
  | none | shared | owned
deriving DecidableEq, Repr

/-- Status of a CXL.io read completion (R341). -/
inductive IoStatus where
  | ok | unsupported | abort | poisoned
deriving DecidableEq, Repr

/-- The register space that a host access names: BAR0, BAR2 or configuration space (R325, R346). -/
inductive Bar where
  | bar0 | bar2 | cfg
deriving DecidableEq, Repr

/-- What clears a function's translations (R242, R235). -/
inductive AtsPri where
  | atsClear | priClear | priReset
deriving DecidableEq, Repr

/-- How a step ended (R257); a sampler error names the sequence slot it met. -/
inductive StepFailure where
  | none | overflow | error (sampler : Option (BitVec 15))
deriving DecidableEq, Repr

/-- An event that a unit reports to the fault collector (R433, R434, R440); lost marks the MIRROR event of a lost mirror link. -/
structure FaultEvent where
  src : Fin 32
  unit : BitVec 16
  detail : BitVec 64
  events : Nat := 1
  ctx : Option (BitVec 12) := Option.none
  lost : Bool := false
deriving DecidableEq, Repr

/-- What the section contents of an image tell firmware, whose formats the spec does not give (R24 types 1, 2, 5; R162,
R148): the end-of-sequence set, the window of each layer, the staging area and prefix, the exchange buffer, the home
(die, slot) of each expert, and the place of each expert's weights by 512 × layer + expert: image offset and length. -/
structure ImageMeta where
  eos : List Nat
  windows : List Nat
  stagingBytes : Nat
  prefixBytes : Nat
  xbufBytes : Nat
  homes : List (Nat × Nat)
  weights : List (Nat × Nat × Nat)
deriving DecidableEq, Repr

/-- A firmware bundle of the package flash as the boot ROM finds it (R371, R372). -/
structure Bundle where
  sigOk : Bool
  svn : BitVec 32
  digest : Bytes
  version : BitVec 64
deriving DecidableEq, Repr

/-- What the boot ROM reads in B3 (R370 to R372, R427, R491): whether the hub secrets and the record check out, the slot
status and certified step of the record in slot order 36d + 9k + n, the two bundles, and the HBM pages and pseudo-channels retired at
manufacture, each with its stack. -/
structure BootRecord where
  secretsOk : Bool
  recordOk : Bool
  flashOk : Bool
  romDigest : Bytes
  good : List Bool
  steps : List Nat
  bundleA : Bundle
  bundleB : Bundle
  pages : List (Nat × Nat) := []
  pcs : List (Nat × Nat) := []
deriving DecidableEq, Repr

/-- Where the patrol scrubber reads (R196): a physical address, and whether the copy in a hub's shared cache is meant. -/
structure ScrubAt where
  word : BitVec 52
  cache : Bool
deriving DecidableEq, Repr

/-- What B4 brings (R423, R427, R449): the stacks that did not train, and the stack and number of each pseudo-channel that the test finds
lost. -/
structure B4Result where
  failed : List Nat
  lost : List (Nat × Nat)
deriving DecidableEq, Repr

/-- What B5 finds (R425 to R429): die identity words, failed hub links, failed mesh links, slots that fail BIST
(36d + 9k + n), and the stacked-SRAM banks retired on each die (a failed test is above 8). -/
structure B5Result where
  ids : List (BitVec 32)
  linkFail : List Nat
  meshFail : List (Nat × Nat)
  slotFail : List Nat
  banks : List Nat
deriving DecidableEq, Repr

/-- SPDM requests (R375). -/
inductive SpdmCode where
  | getVersion | getCapabilities | negotiateAlgorithms | getDigests
  | getCertificate (slot : Nat) | challenge (slot : Nat) | getMeasurements (index : Nat)
  | keyExchange | finish | heartbeat | keyUpdate | endSession | chunk | other (code : BitVec 8)
deriving DecidableEq, Repr

/-- An SPDM request and the secured session it arrives in, if any (R375). -/
structure SpdmMsg where
  code : SpdmCode
  session : Option Nat
deriving DecidableEq, Repr

/-- IDE_KM operations (R376). -/
inductive IdeOp where
  | keyProg (keySet : Bool) (key : Bytes) | keySetGo (keySet : Bool) | keySetStop | query
deriving DecidableEq, Repr

/-- An IDE_KM message and its secured session (R375, R376). -/
structure IdeMsg where
  op : IdeOp
  session : Option Nat
deriving DecidableEq, Repr

/-- TDISP messages other than the lock (R377). -/
inductive TdispOp where
  | getVersion | getCapabilities | getReport | getState | startInterface (nonce : Nat) | stopInterface | other
deriving DecidableEq, Repr

/-- A TDISP message and its secured session (R375, R377). -/
structure TdispMsg where
  op : TdispOp
  session : Option Nat
deriving DecidableEq, Repr

/-- The 32-byte header of a journal frame (R459). -/
structure FrameHdr where
  magic : BitVec 32
  typ : BitVec 8
  version : BitVec 8
  ctx : BitVec 16
  fseq : BitVec 64
  length : BitVec 32
  zero : Bool
deriving DecidableEq, Repr

/-- The contents of a HELLO frame (R457): meas holds measurement blocks 1, 2, 3 and 6, and chainOk says whether the peer's
certificate chain verifies. R457 also compares the draft digest and the arithmetic settings, so they travel with it. -/
structure HelloBody where
  role : Bool
  nonce : Bytes
  ephPub : Bytes
  meas : List Bytes
  winGib : Nat
  chainOk : Bool
  draftDigest : Bytes
  arithRev : Nat
  deterministic : Bool
deriving DecidableEq, Repr

/-- A mirrored sequence (R459 SEQUENCE); state is the code of R250, 0 for FREE. gen makes handles equal on both devices (R463),
and share names a sequence whose first page sets this one shares (R262). -/
structure MirSeq where
  state : BitVec 3
  gen : BitVec 17
  session : Option (BitVec 32)
  share : Option (BitVec 15 × Nat)
  seqId : BitVec 64
  prio : BitVec 2
  history : List Nat
  stored : Nat
  params : Bytes
  mask : Bytes
  bias : Bytes
  key : Bytes
  keyRng : Bool
deriving DecidableEq, Repr

/-- A mirrored session installation (R459 SESSION, R386). -/
structure MirSession where
  handle : BitVec 32
  key : Bytes
  inst : Bytes
  high : Nat
  seen : List Nat
  counter : Nat
  epoch : Nat
deriving DecidableEq, Repr

/-- Journal payloads after decryption (R459); the spec gives what each holds and not its byte layout. -/
inductive JPayload where
  | bind (tag : BitVec 12)
  | command (pkt : Bytes)
  | sequence (slot : BitVec 15) (m : MirSeq)
  | kv (slot : BitVec 15) (ring : Bool) (page off : Nat) (data : Bytes)
  | sampler (slot : BitVec 15) (key : Bytes)
  | session (m : MirSession)
  | imageKey (handle : BitVec 32) (key digest signer : Bytes)
  | commit (l : List (BitVec 15 × List Nat))
  | ack (fseq : BitVec 64)
  | takeover
deriving DecidableEq, Repr

/-- One constructor per row of the table of operations and events. -/
inductive Instr where
  /-- LOAD (R202): Sequencer load: the device translates it, checks it and performs it, with forwarding from the store buffer where that applies. -/
  | load (g : CoreId) (rd : Reg) (rs1 : Reg) (imm : BitVec 12) (kind : LoadKind) (c : Bool)
  /-- STORE (R203): Sequencer store: the store enters the 8-entry store buffer in FIFO or merging mode. -/
  | store (g : CoreId) (rs1 : Reg) (rs2 : Reg) (imm : BitVec 12) (size : MemSize) (c : Bool)
  /-- STORE_BUFFER_DRAIN (R203): A buffered sequencer store leaves the store buffer and is performed at its point of visibility. -/
  | storeBufferDrain (g : CoreId) (entry : Nat) (word : Fin 8)
  /-- AMO (R211): Integer AMO of the A extension, executed at the shared cache or device cache of its space. -/
  | amo (g : CoreId) (op : AmoOp) (dbl : Bool) (aq : Bool) (rl : Bool) (rd : Reg) (rs1 : Reg) (rs2 : Reg)
  /-- LR (R213): Load-reserved: places the core's single reservation on the 64 B line. -/
  | lr (g : CoreId) (dbl : Bool) (aq : Bool) (rl : Bool) (rd : Reg) (rs1 : Reg)
  /-- SC (R213): Store-conditional: succeeds only if the reservation is held, and always clears it. -/
  | sc (g : CoreId) (dbl : Bool) (aq : Bool) (rl : Bool) (rd : Reg) (rs1 : Reg) (rs2 : Reg)
  /-- RESERVATION_TIMEOUT (R213): The reservation is lost when 2^12 cluster-island cycles have passed since the LR. -/
  | reservationTimeout (g : CoreId)
  /-- FENCE (R71): FENCE or FENCE.TSO acts as FBAR with a mask naming the sequencer alone. -/
  | fence (g : CoreId) (fm : BitVec 4) (pred : BitVec 4) (succ : BitVec 4)
  /-- FENCE_I (R70): Invalidates the whole instruction cache and waits for the sequencer's earlier stores. -/
  | fenceI (g : CoreId)
  /-- CSR_ACCESS (R73): CSR instruction on a standard or Wyrvabin CSR; unimplemented or unprivileged numbers raise illegal instruction. -/
  | csrAccess (g : CoreId) (csr : BitVec 12) (op : CsrOp) (useImm : Bool) (rd : Reg) (rs1 : Reg)
  /-- EBREAK (R92): Breakpoint instruction; raises the breakpoint exception, cause 3. -/
  | ebreak (g : CoreId) (c : Bool)
  /-- EXIT (R95): ECALL with a7 = 0: ends this core's part of a raw program with an exit code. -/
  | exit (g : CoreId)
  /-- REPORT (R95): ECALL with a7 = 1: stores a0 in this core's result slot. -/
  | report (g : CoreId)
  /-- RENDEZVOUS (R95): ECALL with a7 = 2: the core enters the k-th rendezvous of its core set. -/
  | rendezvous (g : CoreId)
  /-- RENDEZVOUS_RETURN (R95): A waiting rendezvous returns once every core of the set has called it k times or has exited. -/
  | rendezvousReturn (g : CoreId)
  /-- TAKE_INTERRUPT (R93): The sequencer takes a pending interrupt in machine mode, in the listed priority order. -/
  | takeInterrupt (g : CoreId)
  /-- WCYCCMP_MATCH (R75): mcycle reaches wcyccmp and interrupt 18 becomes pending; this also marks the expiry of a raw program's time limit. -/
  | wcyccmpMatch (g : CoreId)
  /-- PROGRAM_END (R96): Firmware ends a raw program once every queue of its core set has emptied or halted, then quiets the cores and writes the completion. -/
  | programEnd (f : FnId) (r : RingId) (q : PktSeq)
  /-- EDISP (R77): Dispatches a matrix or vector command, or a DMA chain, into a queue and returns its ticket. -/
  | edisp (g : CoreId) (f7 : BitVec 7) (f3 : BitVec 3) (rs2 : Reg) (rs1 : Reg) (rd : Reg)
  /-- COMMAND_START (R79): A queued command reaches the head of its queue, meets its semaphore wait, consumes the count and starts. -/
  | commandStart (g : CoreId) (q : QueueId)
  /-- OPERAND_RELEASE (R79): A command has read its last input byte and signals its semaphore if SIG_ON is 1. -/
  | operandRelease (g : CoreId) (q : QueueId)
  /-- COMMAND_COMPLETION (R79): A command's core SRAM writes are visible, its completed counter advances, and it signals if SIG_ON is 0. -/
  | commandCompletion (g : CoreId) (q : QueueId)
  /-- EWAIT (R82): Stalls until a queue's completed counter reaches a ticket or the queue halts. -/
  | ewait (g : CoreId) (imm : BitVec 12) (rs1 : Reg) (rd : Reg)
  /-- EWAIT_RETURN (R82): A stalled EWAIT returns once its condition holds. -/
  | ewaitReturn (g : CoreId)
  /-- EQSTAT (R82): Returns the status word of a queue. -/
  | eqstat (g : CoreId) (imm : BitVec 12) (rs1 : Reg) (rd : Reg)
  /-- ECLR (R82): Discards the commands of a halted queue and clears its halt. -/
  | eclr (g : CoreId) (imm : BitVec 12) (rs1 : Reg) (rd : Reg)
  /-- SEMSIG (R86): Adds to a semaphore, saturating at 65,535. -/
  | semsig (g : CoreId) (imm : BitVec 12) (rs1 : Reg) (rd : Reg)
  /-- SEMWAIT (R86): Begins a sequencer wait on a semaphore for k units. -/
  | semwait (g : CoreId) (imm : BitVec 12) (rs1 : Reg) (rd : Reg)
  /-- SEMWAIT_GRANT (R85): A pending semaphore wait is granted in wait order, and the count is consumed. -/
  | semwaitGrant (g : CoreId) (n : Fin 64)
  /-- SEMTRY (R86): Consumes k units of a semaphore only if this can be done at once and no earlier wait is pending. -/
  | semtry (g : CoreId) (imm : BitVec 12) (rs1 : Reg) (rd : Reg)
  /-- SEMRD (R86): Returns a semaphore's value. -/
  | semrd (g : CoreId) (imm : BitVec 12) (rs1 : Reg) (rd : Reg)
  /-- SEMSET (R86): Writes a semaphore's value without saturation. -/
  | semset (g : CoreId) (imm : BitVec 12) (rs1 : Reg) (rd : Reg)
  /-- LBAR (R89): Load barrier: places markers in the sequencer and the named engine queues. -/
  | lbar (g : CoreId) (imm : BitVec 12) (rs1 : Reg) (rd : Reg)
  /-- SBAR (R89): Store barrier: places markers in the sequencer and the named engine queues. -/
  | sbar (g : CoreId) (imm : BitVec 12) (rs1 : Reg) (rd : Reg)
  /-- FBAR (R89): Full barrier: places markers in the sequencer and the named engine queues. -/
  | fbar (g : CoreId) (imm : BitVec 12) (rs1 : Reg) (rd : Reg)
  /-- BARRIER_MARKER_COMPLETE (R208): Every named engine has reached its marker and the ordered accesses are performed, so the queues resume together. -/
  | barrierMarkerComplete (g : CoreId)
  /-- BARRIER_TIMEOUT (R90): After 2^18 cycles a barrier drops the stores to unanswering targets, sets wbstat and raises cause 25. -/
  | barrierTimeout (g : CoreId)
  /-- STORE_TIMEOUT (R204): A buffered store unanswered for 2^18 cycles is dropped under R90 even when no barrier waits. -/
  | storeTimeout (g : CoreId)
  /-- AMOFADD_S (R91): FP32 atomic add at the shared cache; refused under deterministic mode. -/
  | amofaddS (g : CoreId) (aq : Bool) (rl : Bool) (rd : Reg) (rs1 : Reg) (rs2 : Reg)
  /-- AMOFMAX_S (R91): FP32 atomic maximum at the shared cache; refused under deterministic mode. -/
  | amofmaxS (g : CoreId) (aq : Bool) (rl : Bool) (rd : Reg) (rs1 : Reg) (rs2 : Reg)
  /-- AMOFADD_BF (R91): BF16 atomic add at the shared cache; refused under deterministic mode. -/
  | amofaddBf (g : CoreId) (aq : Bool) (rl : Bool) (rd : Reg) (rs1 : Reg) (rs2 : Reg)
  /-- AMOFMAX_BF (R91): BF16 atomic maximum at the shared cache; refused under deterministic mode. -/
  | amofmaxBf (g : CoreId) (aq : Bool) (rl : Bool) (rd : Reg) (rs1 : Reg) (rs2 : Reg)
  /-- MNOP (R104): Matrix no-op that only waits and signals. -/
  | mnop (g : CoreId)
  /-- MMUL (R106): Streams activation rows against a stationary weight tile into the accumulator region. -/
  | mmul (g : CoreId)
  /-- MDRAIN (R107): Converts an accumulator region through the output stage into core SRAM. -/
  | mdrain (g : CoreId)
  /-- MCBLOAD (R108): Loads codebook slots from core SRAM. -/
  | mcbload (g : CoreId)
  /-- VNOP (R117): Vector no-op. -/
  | vnop (g : CoreId)
  /-- VADD (R117): Vector add. -/
  | vadd (g : CoreId)
  /-- VSUB (R117): Vector subtract. -/
  | vsub (g : CoreId)
  /-- VMUL (R117): Vector multiply. -/
  | vmul (g : CoreId)
  /-- VFMA (R117): Vector fused multiply-add with one rounding. -/
  | vfma (g : CoreId)
  /-- VMAX (R117): Vector maximum. -/
  | vmax (g : CoreId)
  /-- VMIN (R117): Vector minimum. -/
  | vmin (g : CoreId)
  /-- VCVT (R117): Vector format conversion. -/
  | vcvt (g : CoreId)
  /-- VSFU (R125): Special function applied to each element by the procedures of the special-function unit. -/
  | vsfu (g : CoreId)
  /-- VGSILU (R117): Gated SiLU: SiLU of a times b. -/
  | vgsilu (g : CoreId)
  /-- VROPE (R122): Rotary update of adjacent element pairs. -/
  | vrope (g : CoreId)
  /-- VRMAX (R119): Row maximum, or maximum of absolute values, reduced in fixed lane order. -/
  | vrmax (g : CoreId)
  /-- VRSUM (R119): Row sum reduced in fixed lane order. -/
  | vrsum (g : CoreId)
  /-- VRSSQ (R119): Row sum of squares reduced in fixed lane order. -/
  | vrssq (g : CoreId)
  /-- VSMAX (R120): Online-softmax update of each row's running maximum and sum. -/
  | vsmax (g : CoreId)
  /-- VTOPK (R121): Top-k select of each row, with values and indices. -/
  | vtopk (g : CoreId)
  /-- DNOP (R135): DMA descriptor that does nothing. -/
  | dnop (g : CoreId) (ch : Chan)
  /-- COPY (R141): Contiguous copy of LENGTH bytes. -/
  | copy (g : CoreId) (ch : Chan)
  /-- STRIDED (R142): Copy of up to three-dimensional strided rows. -/
  | strided (g : CoreId) (ch : Chan)
  /-- GATHER (R143): Copies indexed rows into a dense block. -/
  | gather (g : CoreId) (ch : Chan)
  /-- SCATTER (R143): Copies a dense block into indexed rows. -/
  | scatter (g : CoreId) (ch : Chan)
  /-- KVPUT (R147): Compresses rows into KV pages through the page table. -/
  | kvput (g : CoreId) (ch : Chan)
  /-- KVGET (R147): Decompresses KV pages into rows. -/
  | kvget (g : CoreId) (ch : Chan)
  /-- EXCHANGE (R154): Collective dispatch of token rows to the dies of their experts, in a count phase and a row phase. -/
  | exchange (g : CoreId) (ch : Chan)
  /-- COMBINE (R157): Collective return of expert outputs and the weighted sum for each token. -/
  | combine (g : CoreId) (ch : Chan) (order : List Nat)
  /-- REDUCE (R159): Collective sum or maximum across members at the hubs. -/
  | reduce (g : CoreId) (ch : Chan) (order : List Nat)
  /-- COLLECTIVE_TIMEOUT (R152): A joined member's wait of 2^24 CDd.S cycles expires: error 0x35, and the group is marked BROKEN. -/
  | collectiveTimeout (g : CoreId) (ch : Chan)
  /-- PREFETCH_LEVEL_0 (R160): PREFETCH descriptor that brings a range into the hub shared cache. -/
  | prefetchLevel0 (g : CoreId) (ch : Chan)
  /-- PREFETCH_LEVEL_1 (R160): PREFETCH descriptor that translates a range into the channel's translation caches. -/
  | prefetchLevel1 (g : CoreId) (ch : Chan)
  /-- PREFETCH_LEVEL_2 (R163): PREFETCH descriptor that submits a Finder prediction list for a layer. -/
  | prefetchLevel2 (g : CoreId) (ch : Chan)
  /-- PREFETCH_LEVEL_3 (R164): PREFETCH descriptor that tells the Finder a layer begins, so the staging halves swap roles. -/
  | prefetchLevel3 (g : CoreId) (ch : Chan)
  /-- FINDER_RANK_TIMEOUT (R163): 2^14 CDd.S cycles after the first submission, the Finder ranks without the missing submissions. -/
  | finderRankTimeout (d : DieId)
  /-- FINDER_STAGING_DONE (R164): A staged expert block completes and becomes servable. -/
  | finderStagingDone (d : DieId) (expert : BitVec 16)
  /-- TILE_START (R232): A DMA tile starts once every page it touches holds a usable translation. -/
  | tileStart (g : CoreId) (ch : Chan)
  /-- TARGET_TIMEOUT (R179): An engine request to an unanswering target is abandoned after 2^18 cycles. -/
  | targetTimeout (g : CoreId) (q : QueueId)
  /-- OWNERSHIP_ENTRY_WRITE (R187): Firmware writes a granule's ownership entry. -/
  | ownershipEntryWrite (granule : BitVec 52) (entry : BitVec 32)
  /-- OWNERSHIP_FENCE (R187): Firmware starts the ownership fence of a table's island. -/
  | ownershipFence (t : TableId)
  /-- OWNERSHIP_FENCE_DONE (R187): Every request checked before the fence began has completed. -/
  | ownershipFenceDone (t : TableId)
  /-- REGULATOR_WINDOW (R191): At each 1,024-cycle window start, each partition regulator gains credit. -/
  | regulatorWindow (h : HubId)
  /-- PATROL_SCRUB (R196): The patrol scrubber reads a word of HBM, stacked SRAM or, with cache, a hub's shared cache and writes back a corrected word if no newer write has arrived. -/
  | patrolScrub (at_ : ScrubAt) (flip : Nat) (newer : Bool)
  /-- ATS_COMPLETION (R228): An ATS translation completion arrives and fills the translation caches, or is discarded if stale. -/
  | atsCompletion (f : FnId) (pasid : Option (BitVec 20)) (va : BitVec 64) (size : PageSize) (hpa : BitVec 64) (rd : Bool) (wr : Bool) (u : Bool)
  /-- PAGE_REQUEST (R234): A PRI page request is sent for a page without a usable translation, or the waiter stalls for credit. -/
  | pageRequest (w : Waiter) (va : BitVec 64) (prg : BitVec 9)
  /-- PAGE_REQUEST_RESPONSE (R235): A PRG response arrives and is handled as Success, Invalid Request, Response Failure or an unknown index. -/
  | pageRequestResponse (f : FnId) (prg : BitVec 9) (code : PrgCode)
  /-- PAGE_REQUEST_OVERDUE (R237): A page request outstanding for 2^28 HB0.P cycles sets OVERDUE and records a fault. -/
  | pageRequestOverdue (f : FnId) (prg : BitVec 9)
  /-- INVALIDATION_REQUEST (R238): An ATS invalidation request is accepted and carried out for its whole PASID. -/
  | invalidationRequest (f : FnId) (pasid : Option (BitVec 20)) (itag : BitVec 5)
  /-- INVALIDATION_COMPLETION (R238): Once the accesses using removed translations are done, the Invalidation Completion is sent. -/
  | invalidationCompletion (f : FnId) (itag : BitVec 5)
  /-- GETS (R352): An agent's read miss request arrives at the home directory. -/
  | gets (a : AgentId) (line : BitVec 52)
  /-- GETM (R352): An agent's ownership request arrives at the home directory. -/
  | getm (a : AgentId) (line : BitVec 52)
  /-- PUTM (R352): An agent's write-back of an M line arrives at the home. -/
  | putm (a : AgentId) (line : BitVec 52)
  /-- PUTM_ACK (R352): The home's acknowledgement of a PutM frees the agent's write-back buffer. -/
  | putmAck (a : AgentId) (line : BitVec 52)
  /-- FORWARD (R352): A forwarded request reaches the owner, which sends the data and changes state. -/
  | forward (line : BitVec 52)
  /-- INVALIDATE (R351): An invalidation reaches a data cache group, which drops the line and acknowledges. -/
  | invalidate (grp : GroupId) (line : BitVec 52)
  /-- INVALIDATE_ACK (R352): An invalidation acknowledgement reaches the home. -/
  | invalidateAck (grp : GroupId) (line : BitVec 52)
  /-- NACK_RETRY (R355): A NACKed device request is repeated 64 cycles later. -/
  | nackRetry (stream : StreamId) (line : BitVec 52)
  /-- HOME_WAIT_TIMEOUT (R358): A home waits 2^16 cycles without an answer and poisons the line or reports the agent dead. -/
  | homeWaitTimeout (line : BitVec 52)
  /-- BISNP_RESPONSE (R354): The host's response to a back-invalidate snoop arrives at the home. -/
  | bisnpResponse (line : BitVec 52) (dirty : Option Bytes)
  /-- HOST_CXL_MEM_READ (R366): A host CXL.mem read is decoded, checked and served from HDM. -/
  | hostCxlMemRead (hpa : BitVec 64) (want : HostWant)
  /-- HOST_CXL_MEM_WRITE (R366): A host CXL.mem write, including a write-back, is decoded, checked and performed. -/
  | hostCxlMemWrite (hpa : BitVec 64) (data : Bytes) (keep : HostWant)
  /-- SNPDATA (R361): Host SnpData to the device cache: dirty data is returned and the line goes to S. -/
  | snpdata (hpa : BitVec 64)
  /-- SNPINV (R361): Host SnpInv to the device cache: dirty data is returned and the line goes to I. -/
  | snpinv (hpa : BitVec 64)
  /-- SNPCUR (R361): Host SnpCur to the device cache: current data is returned and the state is unchanged. -/
  | snpcur (hpa : BitVec 64)
  /-- HOST_CACHE_RESPONSE (R361): The host answers a device CXL.cache request, and the device cache line is filled or granted. -/
  | hostCacheResponse (hpa : BitVec 64) (excl : Bool) (data : Bytes)
  /-- CACHE_ENABLE (R363): A write of the DVSEC Cache_Enable bit enables the device cache or, when cleared, writes it back first. -/
  | cacheEnable (on : Bool)
  /-- CACHE_WBI (R363): Initiate Cache Write Back and Invalidation starts emptying the device cache. -/
  | cacheWbi
  /-- CACHE_WBI_DONE (R363): The device cache is empty and Cache Invalid is set. -/
  | cacheWbiDone
  /-- GPF_PHASE_1 (R363): CXL Global Persistent Flush Phase 1 writes back the device cache. -/
  | gpfPhase1
  /-- COH_DC_CFG_WRITE (R363): Write to the device-cache way count, applied or ignored according to Cache_Enable. -/
  | cohDcCfgWrite (v : BitVec 32)
  /-- COH_HDM_CFG_WRITE (R369): Write to the HDM carve sizes, accepted only under the R369 conditions, which starts a carve change. -/
  | cohHdmCfgWrite (v : BitVec 32)
  /-- CARVE_CHANGE_DONE (R369): The carve is rebuilt and BUSY clears. -/
  | carveChangeDone
  /-- DECODER_COMMIT (R366): Host commits an HDM decoder, which is accepted or refused with Commit Error. -/
  | decoderCommit (n : Fin 2) (base : BitVec 64) (size : BitVec 64) (bi : Bool)
  /-- SQ_DOORBELL (R280): Write of TAIL to CMD_SQ_DB, which also returns a DOORBELL_AHEAD ring to ACTIVE. -/
  | sqDoorbell (f : FnId) (r : RingId) (v : BitVec 64)
  /-- CQ_DOORBELL (R290): Write of HEAD to CMD_CQ_DB, which frees completion slots. -/
  | cqDoorbell (f : FnId) (r : RingId) (v : BitVec 64)
  /-- RING_ENABLE (R281): ENABLE = 1: the ring configuration is checked and the ring is enabled or refused. -/
  | ringEnable (f : FnId) (r : RingId)
  /-- RING_DISABLE (R282): ENABLE = 0: the ring enters DRAINING and its packets are ended. -/
  | ringDisable (f : FnId) (r : RingId)
  /-- RING_DRAIN_DONE (R282): Every final completion of a draining ring is written, and the ring becomes DISABLED. -/
  | ringDrainDone (f : FnId) (r : RingId)
  /-- RESUME (R280): Returns a STOPPED ring to ACTIVE at the same head. -/
  | resume (f : FnId) (r : RingId)
  /-- PACKET_READ (R286): The device reads the slot at SQ_HEAD and checks the packet in order. -/
  | packetRead (f : FnId) (r : RingId)
  /-- PHASE_REREAD (R291): Timed re-read of a slot with a stale phase; after eight misses the ring enters DOORBELL_AHEAD. -/
  | phaseReread (f : FnId) (r : RingId)
  /-- TORN_REREAD (R292): Timed re-read of a packet with a bad LENGTH or CRC; after eight failures a TORN completion is written and the ring stops. -/
  | tornReread (f : FnId) (r : RingId)
  /-- COMPLETION_WRITE (R290): A completion record is written when the completion ring has room, merging held PARTIAL completions. -/
  | completionWrite (f : FnId) (r : RingId) (cycles : Nat)
  /-- MSIX_UNMASK (R336): Unmasking a vector or function sends its pending message. -/
  | msixUnmask (f : FnId) (v : Option Nat)
  /-- IDENTIFY (R295): Writes the identity record to BUF. -/
  | identify (f : FnId) (r : RingId) (q : PktSeq)
  /-- ATTACH_CONTEXT (R297): Creates a context with its translation entry, arena, partition and key. -/
  | attachContext (f : FnId) (r : RingId) (q : PktSeq) (tag : BitVec 12) (part : Fin 64) (granules : List Nat)
  /-- DETACH_CONTEXT (R240): Starts draining a context in the order of R240. -/
  | detachContext (f : FnId) (r : RingId) (q : PktSeq)
  /-- DETACH_COMPLETE (R240): The drain reaches step 6, the translation entry is cleared, and the detach completes DONE. -/
  | detachComplete (tag : BitVec 12)
  /-- LOAD_MODEL (R299): Checks an image header and section table and starts the load. -/
  | loadModel (f : FnId) (r : RingId) (q : PktSeq) (im : ImageMeta) (granules : List Nat)
  /-- LOAD_MODEL_COMPLETE (R299): Sections are copied and decrypted, DIGEST is verified, codebooks are written and LOCKED is set. -/
  | loadModelComplete
  /-- UNLOAD_MODEL (R300): Closes sequences, then zeroes and frees the image of a role. -/
  | unloadModel (f : FnId) (r : RingId) (q : PktSeq)
  /-- OPEN_SEQUENCE (R301): Opens a sequence in IDLE and assigns its home die and seed key. -/
  | openSequence (f : FnId) (r : RingId) (q : PktSeq) (slot : BitVec 15)
  /-- APPEND_TOKENS (R302): Adds token IDs to a sequence's history. -/
  | appendTokens (f : FnId) (r : RingId) (q : PktSeq)
  /-- GENERATE (R303): Requests generation for a sequence. -/
  | generate (f : FnId) (r : RingId) (q : PktSeq)
  /-- CANCEL_SEQUENCE (R258): CANCEL with KIND 0 stops a sequence's generation at a step boundary. -/
  | cancelSequence (f : FnId) (r : RingId) (q : PktSeq)
  /-- CANCEL_PROGRAM (R304): CANCEL with KIND 1 ends a raw program as ABORTED. -/
  | cancelProgram (f : FnId) (r : RingId) (q : PktSeq)
  /-- CLOSE_SEQUENCE (R305): Closes a sequence through CLOSING to FREE. -/
  | closeSequence (f : FnId) (r : RingId) (q : PktSeq)
  /-- FORK_SEQUENCE (R262): Makes a child sequence that shares the parent's full-context pages. -/
  | forkSequence (f : FnId) (r : RingId) (q : PktSeq) (slot : BitVec 15) (pages : List Nat)
  /-- SNAPSHOT_SEQUENCE (R307): Writes a snapshot of a sequence, optionally with its KV. -/
  | snapshotSequence (f : FnId) (r : RingId) (q : PktSeq)
  /-- RESTORE_SEQUENCE (R308): Opens a sequence from a snapshot. -/
  | restoreSequence (f : FnId) (r : RingId) (q : PktSeq) (slot : BitVec 15) (pages : List Nat)
  /-- RUN_PROGRAM (R309): Starts a raw program on a core set at the next step boundary. -/
  | runProgram (f : FnId) (r : RingId) (q : PktSeq)
  /-- PREFETCH_TRANSLATE (R310): PREFETCH packet mode 0: translates a host range without page requests. -/
  | prefetchTranslate (f : FnId) (r : RingId) (q : PktSeq)
  /-- PREFETCH_TRANSLATE_FAULTS (R310): PREFETCH packet mode 1: translates a host range and sends page requests for missing pages. -/
  | prefetchTranslateFaults (f : FnId) (r : RingId) (q : PktSeq)
  /-- PREFETCH_COPY (R310): PREFETCH packet mode 2: copies listed pages between host memory and HDM. -/
  | prefetchCopy (f : FnId) (r : RingId) (q : PktSeq)
  /-- ADVISE_ADD (R311): ADVISE with OP 0 records an advice range. -/
  | adviseAdd (f : FnId) (r : RingId) (q : PktSeq)
  /-- ADVISE_REMOVE (R311): ADVISE with OP 1 removes an advice range. -/
  | adviseRemove (f : FnId) (r : RingId) (q : PktSeq)
  /-- ADVISE_CLEAR (R311): ADVISE with OP 2 clears all advice ranges. -/
  | adviseClear (f : FnId) (r : RingId) (q : PktSeq)
  /-- FLUSH (R312): Makes the context's earlier engine writes performed, and optionally writes back and drops device-cache lines. -/
  | flush (f : FnId) (r : RingId) (q : PktSeq)
  /-- FENCE_RING (R313): FENCE packet with SCOPE 0: waits for every earlier packet of the ring. -/
  | fenceRing (f : FnId) (r : RingId) (q : PktSeq)
  /-- FENCE_CONTEXT (R313): FENCE packet with SCOPE 1: also waits for the context's packets on the function's other rings. -/
  | fenceContext (f : FnId) (r : RingId) (q : PktSeq)
  /-- POWER_HINT_HEAVY (R415): POWER_HINT with KIND 0 raises rails ahead of a heavy phase. -/
  | powerHintHeavy (f : FnId) (r : RingId) (q : PktSeq)
  /-- POWER_HINT_LIGHT (R415): POWER_HINT with KIND 1 lowers rails for a light phase. -/
  | powerHintLight (f : FnId) (r : RingId) (q : PktSeq)
  /-- POWER_HINT_CLEAR (R415): POWER_HINT with KIND 2 ends any hint in force. -/
  | powerHintClear (f : FnId) (r : RingId) (q : PktSeq)
  /-- HINT_EXPIRY (R415): A hint's DURATION_US ends and its hold is released. -/
  | hintExpiry
  /-- SEAL_SESSION_INSTALL (R380): Unwraps and installs a session or image key. -/
  | sealSessionInstall (f : FnId) (r : RingId) (q : PktSeq)
  /-- SEAL_SESSION_DESTROY (R315): Zeroises an installed key unless a sequence or a load uses it. -/
  | sealSessionDestroy (f : FnId) (r : RingId) (q : PktSeq)
  /-- MIRROR_STATUS (R458): MIRROR_CONTROL with OP 0 returns the Coelostat state. -/
  | mirrorStatus (f : FnId) (r : RingId) (q : PktSeq)
  /-- PAIR (R458): MIRROR_CONTROL with OP 1 binds a context and, the first time, runs the pairing handshake. -/
  | pair (f : FnId) (r : RingId) (q : PktSeq)
  /-- UNPAIR (R458): MIRROR_CONTROL with OP 2 unbinds a context; the last unpair ends pairing. -/
  | unpair (f : FnId) (r : RingId) (q : PktSeq)
  /-- SET_MODE (R461): MIRROR_CONTROL with OP 3 selects synchronous or asynchronous mirroring. -/
  | setMode (f : FnId) (r : RingId) (q : PktSeq)
  /-- RESYNC (R462): MIRROR_CONTROL with OP 4 sends every bound sequence to the standby as RESYNC frames. -/
  | resync (f : FnId) (r : RingId) (q : PktSeq)
  /-- PROMOTE (R463): MIRROR_CONTROL with OP 5 makes the standby take over the bound contexts. -/
  | promote (f : FnId) (r : RingId) (q : PktSeq)
  /-- QUERY_SEQUENCE_COUNTS (R317): QUERY_STATISTICS selector 0: counts of the context's sequences by state. -/
  | querySequenceCounts (f : FnId) (r : RingId) (q : PktSeq)
  /-- QUERY_SEQUENCES (R317): QUERY_STATISTICS selector 1: one record per open sequence of the context. -/
  | querySequences (f : FnId) (r : RingId) (q : PktSeq)
  /-- QUERY_FINDER (R166): QUERY_STATISTICS selector 2: the Finder counters of every die. -/
  | queryFinder (f : FnId) (r : RingId) (q : PktSeq)
  /-- QUERY_REGULATORS (R317): QUERY_STATISTICS selector 3: regulator statistics of the context's partition. -/
  | queryRegulators (f : FnId) (r : RingId) (q : PktSeq)
  /-- QUERY_TRANSLATION_CACHES (R317): QUERY_STATISTICS selector 4: translation-cache hits and misses per hub. -/
  | queryTranslationCaches (f : FnId) (r : RingId) (q : PktSeq)
  /-- QUERY_RING_COUNTS (R317): QUERY_STATISTICS selector 5: ring counts of the function, not cleared. -/
  | queryRingCounts (f : FnId) (r : RingId) (q : PktSeq)
  /-- DIAGNOSE_ECHO (R318): DIAGNOSE with TEST 0 echoes packet bytes into RESULT. -/
  | diagnoseEcho (f : FnId) (r : RingId) (q : PktSeq)
  /-- DIAGNOSE_NIGHT_LOG (R446): DIAGNOSE with TEST 1 copies the Night Log to a buffer. -/
  | diagnoseNightLog (f : FnId) (r : RingId) (q : PktSeq)
  /-- STEP_BOUNDARY (R255): At T0, HB0.D applies received commands, evicts, forms the batch, allocates pages and writes the step plans. -/
  | stepBoundary (pages : List Nat)
  /-- DRAFT_SAMPLE (R275): A sampler draws a draft proposal from the draft image's logits. -/
  | draftSample (slot : BitVec 15) (logits : Words32)
  /-- SAMPLE (R268): A sampler computes a token from a row of FP32 logits. -/
  | sample (slot : BitVec 15) (logits : Words32)
  /-- VERIFY_DRAFTS (R276): A sampler verifies the draft tokens against the target rows and emits the accepted, residual and bonus tokens. -/
  | verifyDrafts (slot : BitVec 15) (rows : List Words32)
  /-- STEP_COMMIT (R256): At T6 emitted tokens are appended, lengths advance, and output records and state changes are written. -/
  | stepCommit (failure : StepFailure)
  /-- INITIATE_FLR (R334): Setting Initiate Function Level Reset starts the quiesce of a function. -/
  | initiateFlr (f : FnId)
  /-- FLR_QUIESCE_DONE (R334): The quiesce ends, the configuration space is reset and Function Readiness Status is sent. -/
  | flrQuiesceDone (f : FnId)
  /-- VF_ENABLE (R332): Setting VF Enable creates the VFs, which report readiness. -/
  | vfEnable
  /-- VF_DISABLE (R500): Clearing VF Enable quiesces and removes every VF. -/
  | vfDisable
  /-- D3HOT_ENTRY (R338): PowerState set to D3hot: ring reading stops and completions are held. -/
  | d3hotEntry
  /-- D0_ENTRY (R338): Return to D0: held completions are written and ring reading resumes. -/
  | d0Entry
  /-- BUS_MASTER_DISABLE (R339): Bus Master Enable cleared: the function's requests and ring reading are held. -/
  | busMasterDisable (f : FnId)
  /-- HOT_RESET (R333): In-band hot reset, with the state effects of R333. -/
  | hotReset
  /-- FUNDAMENTAL_RESET (R487): RST_N is driven low: a fundamental reset, with bring-up restarting at the rising edge. -/
  | fundamentalReset
  /-- LINK_UP (R332): The host link trains up. -/
  | linkUp
  /-- LINK_DOWN (R348): The host link goes down: power-off after READY, otherwise a surprise removal. -/
  | linkDown
  /-- HOST_LINK_ERROR (R343): An uncorrectable host-link error enters the Portcullis with cause 1. -/
  | hostLinkError (cleared : Bool)
  /-- POISONED_REQUEST (R343): A poisoned request to BAR0, BAR2 or configuration space is not performed and enters the Portcullis with cause 2. -/
  | poisonedRequest (f : FnId)
  /-- PC_FORCE (R343): Writing FORCE to HST_PC_CTRL enters the Portcullis with cause 5. -/
  | pcForce
  /-- PC_CLEAR (R345): Writing CLEAR to HST_PC_CTRL lifts the Portcullis if allowed, otherwise sets CLEAR_REFUSED. -/
  | pcClear
  /-- REMOVE_REQUEST (R347): Setting HST_REMOVE.REQUEST starts the managed-removal drain. -/
  | removeRequest
  /-- REMOVE_CANCEL (R346): Writing REQUEST = 0 before READY cancels the removal. -/
  | removeCancel
  /-- REMOVE_READY (R347): The removal drain completes and READY is set. -/
  | removeReady
  /-- CXLIO_COMPLETION (R341): A CXL.io read completion arrives and is reassembled into its read. -/
  | cxlioCompletion (tag : BitVec 10) (status : IoStatus) (data : Bytes)
  /-- COMPLETION_TIMEOUT (R341): A CXL.io read times out and is treated as poisoned. -/
  | completionTimeout (tag : BitVec 10)
  /-- DOE_REQUEST (R331): A data object arrives in the DOE mailbox and is answered. -/
  | doeRequest (vendor : BitVec 16) (typ : BitVec 8) (len : Nat)
  /-- SPDM_REQUEST (R375): An SPDM request is served by the responder. -/
  | spdmRequest (m : SpdmMsg)
  /-- IDE_KM_REQUEST (R376): An IDE_KM message programs or refreshes link IDE keys. -/
  | ideKmRequest (m : IdeMsg)
  /-- LOCK_INTERFACE_REQUEST (R377): A TDISP lock fixes the function's interface, accepted only while IDE is active. -/
  | lockInterfaceRequest (f : FnId) (session : Option Nat)
  /-- TDISP_REQUEST (R377): Any other TDISP message on a secured session. -/
  | tdispRequest (f : FnId) (m : TdispMsg)
  /-- NEW_NONCE (R394): SEC_DBG_CTRL.NEW_NONCE draws a fresh debug nonce. -/
  | newNonce
  /-- DEBUG_TOKEN_REQUEST (R394): SEC_DBG_CTRL.REQUEST starts reading the debug token. -/
  | debugTokenRequest
  /-- DEBUG_TOKEN_READ (R394): The token arrives and is checked; if it passes, the Eyepiece opens after tenant state is destroyed. -/
  | debugTokenRead (token : Option Bytes) (sigOk : Bool)
  /-- DEV_ARITH_WRITE (R56): Write to DEV_ARITH.DETERMINISTIC, ignored while LOCKED. -/
  | devArithWrite (v : BitVec 32)
  /-- RAIL_REPORT (R397): A second-stage regulator reports its rail power. -/
  | railReport (rail : RailId) (mw : Nat)
  /-- TELEMETRY_TIMEOUT (R397): A rail silent for 8 µs is counted at its rated maximum. -/
  | telemetryTimeout (rail : RailId)
  /-- PWR_CAP_WRITE (R399): Write to PWR_CAP.HOST_W, which may change the effective cap. -/
  | pwrCapWrite (v : BitVec 64)
  /-- PWR_MODE_WRITE (R408): Write to PWR_MODE, taking effect at the next Heliostat period. -/
  | pwrModeWrite (v : BitVec 64)
  /-- HELIOSTAT_PERIOD (R409): Every 10 µs the power manager recomputes the die shares. -/
  | heliostatPeriod (waits : List (Nat × Nat))
  /-- REPEATABLE_LOUVRE_TICK (R404): Every 1 µs in repeatable mode, the common Louvre steps up or down. -/
  | repeatableLouvreTick
  /-- DIE_AGENT_TICK (R410): Every 1 µs in variable mode, a die agent adjusts its Louvre against its share. -/
  | dieAgentTick (d : DieId)
  /-- VOLTAGE_REACHED (R403): A rising rail reaches its level and the pending frequency rise takes effect. -/
  | voltageReached (d : DieId) (k : Fin 4)
  /-- DROOP_DETECT (R413): Rail droop past the threshold stretches the cluster clock. -/
  | droopDetect (d : DieId) (k : Fin 4)
  /-- DROOP_RECOVER (R413): After HOLD cycles above the threshold the stretch ends. -/
  | droopRecover (d : DieId) (k : Fin 4)
  /-- SENSOR_READ (R417): The periodic junction-sensor reading applies the thermal throttle rules. -/
  | sensorRead (r : RailId) (temp : Int) (alert : Bool)
  /-- THERMAL_TRIP (R418): The 115 °C hardware comparator closes the island's Shutter and signals the collector. -/
  | thermalTrip (i : IslandId) (temp : Int)
  /-- SHUTTER_WAVE (R419): A wave of up to eight queued Shutters opens. -/
  | shutterWave
  /-- REG_FAIL (R483): A regulator reports a rail failure with its status word. -/
  | regFail (rail : RailId) (word : BitVec 32)
  /-- REFCLK_LOSS (R486): No REFCLK edge for 1 µs raises a fatal REG_FAIL. -/
  | refclkLoss
  /-- INPUT_VOLTAGE_WARN (R480): Input in 36–40 V or 60–64 V records a REG_WARN once per 2^20 cycles. -/
  | inputVoltageWarn (mv : Nat)
  /-- POWER_REMOVED (R480): Input outside 36–64 V, or power removed by the package: Azoigon is off. -/
  | powerRemoved
  /-- SET_CAP (R489): Sideband command that sets the package cap. -/
  | setCap (tag : BitVec 8) (b2 : BitVec 8) (b3 : BitVec 8) (capW : BitVec 16)
  /-- GET_STATUS (R489): Sideband command that returns status registers. -/
  | getStatus (tag : BitVec 8) (b2 : BitVec 8) (b3 : BitVec 8)
  /-- READ_NIGHT_LOG (R489): Sideband command that returns Night Log entries. -/
  | readNightLog (tag : BitVec 8) (b2 : BitVec 8) (b3 : BitVec 8) (first : BitVec 8) (count : BitVec 8)
  /-- GET_THERMAL (R489): Sideband command that returns temperatures. -/
  | getThermal (tag : BitVec 8) (b2 : BitVec 8) (b3 : BitVec 8)
  /-- STAGE_B0 (R423): At reset release the HB0.S Shutter opens and the boot ROM starts. -/
  | stageB0
  /-- STAGE_B1 (R424): The hub islands open in waves and the host port trains. -/
  | stageB1
  /-- STAGE_B2 (R423): The hub-to-hub links train. -/
  | stageB2 (ok : Bool) (ids : List (BitVec 32))
  /-- STAGE_B3 (R372): Keys are derived, the package record and firmware are checked and measured, and firmware starts. -/
  | stageB3 (rec : BootRecord)
  /-- STAGE_B4 (R423): The HBM stacks train and are tested. -/
  | stageB4 (res : B4Result)
  /-- STAGE_B5 (R425): The compute islands open, dies are identified, BIST runs and harvest maps are built. -/
  | stageB5 (res : B5Result)
  /-- STAGE_B6 (R430): The service map is built and readiness is reported as READY, DEGRADED or FAILED. -/
  | stageB6 (ms : Nat)
  /-- STAGE_BOUND_EXPIRY (R423): A unit misses its stage bound and is treated as failed. -/
  | stageBoundExpiry (stage : Fin 7) (unit : Nat)
  /-- FAULT_ARRIVAL (R437): An arrival at the collector is counted, classified, logged or merged, and reacted to. -/
  | faultArrival (p : HubId) (ext : Option FaultEvent) (cycles : Nat)
  /-- WINDOW_ROLL (R437): A source's window timer rolls and its count resets. -/
  | windowRoll (src : Fin 32)
  /-- REACTION_END (R436): Firmware reports the Wicket finished with the unit, and REACTING clears. -/
  | reactionEnd
  /-- REACTION_OVERDUE (R436): A severe reaction unfinished after 2^28 cycles raises WDT_HUB. -/
  | reactionOverdue (cycles : Nat)
  /-- FLT_SRC_CFG_WRITE (R438): Write to a source configuration, which restarts its window. -/
  | fltSrcCfgWrite (src : Fin 32) (v : BitVec 64)
  /-- INJECT (R445): FLT_CTRL.INJECT injects one event of the chosen source. -/
  | inject
  /-- UNFREEZE (R442): FLT_NL_CTRL.UNFREEZE releases the Night Log freeze unless FATAL is set. -/
  | unfreeze
  /-- ALV_TOGGLE (R447): Every 2^19 cycles ALV toggles if a refresh has arrived, and otherwise stops. -/
  | alvToggle
  /-- ALV_REFRESH (R447): HB0.S firmware refreshes the ALV generator. -/
  | alvRefresh
  /-- DRAIN (R451): Wicket OP 1 takes a slot, cluster or die out of service. -/
  | drain (unit : BitVec 16) (arg : BitVec 32) (fw : Bool)
  /-- TEST (R449): Wicket OP 2 reopens an out-of-service unit and runs BIST. -/
  | test (unit : BitVec 16) (arg : BitVec 32) (fw : Bool)
  /-- RETURN (R454): Wicket OP 3 returns a tested unit to service at a step boundary. -/
  | returnUnit (unit : BitVec 16) (arg : BitVec 32) (fw : Bool)
  /-- SPARE (R449): Wicket OP 4 replaces an in-service slot with the cluster's spare. -/
  | spare (unit : BitVec 16) (arg : BitVec 32) (fw : Bool)
  /-- RETIRE_BANK (R455): Wicket OP 5 replaces a stacked-SRAM bank with a spare bank. -/
  | retireBank (unit : BitVec 16) (arg : BitVec 32) (fw : Bool)
  /-- SPARE_PC (R455): Wicket OP 6 replaces an HBM pseudo-channel with a spare. -/
  | sparePc (unit : BitVec 16) (arg : BitVec 32) (fw : Bool)
  /-- RETIRE_PAGE (R455): Wicket OP 7 replaces a 4 KiB HBM page with a reserve page. -/
  | retirePage (unit : BitVec 16) (arg : BitVec 32) (fw : Bool)
  /-- REPAIR_LINK (R455): Wicket OP 8 retrains a link with repair. -/
  | repairLink (unit : BitVec 16) (arg : BitVec 32) (fw : Bool)
  /-- WICKET_OPERATION_DONE (R497): A Wicket operation ends, BUSY clears and the result and duration are reported. -/
  | wicketOperationDone (pass : Bool) (us : Nat)
  /-- TEST_TIMEOUT (R497): A TEST without a result after 2^31 cycles ends with RESULT 1. -/
  | testTimeout
  /-- HELLO (R457): Pairing HELLO frame received from the twin. -/
  | hello (h : FrameHdr) (b : HelloBody)
  /-- FINISH (R457): Pairing FINISH frame received, verified, and used to derive the journal keys. -/
  | finish (h : FrameHdr) (sigOk : Bool)
  /-- BIND (R459): Journal BIND frame received. -/
  | bind (h : FrameHdr) (tagOk : Bool) (p : JPayload)
  /-- COMMAND_FRAME (R459): Journal COMMAND frame applied by the standby. -/
  | commandFrame (h : FrameHdr) (tagOk : Bool) (p : JPayload)
  /-- SEQUENCE_FRAME (R459): Journal SEQUENCE frame applied by the standby. -/
  | sequenceFrame (h : FrameHdr) (tagOk : Bool) (p : JPayload)
  /-- KV_FRAME (R459): Journal KV frame applied by the standby. -/
  | kvFrame (h : FrameHdr) (tagOk : Bool) (p : JPayload) (avail : List Nat)
  /-- SAMPLER_FRAME (R459): Journal SAMPLER frame applied by the standby. -/
  | samplerFrame (h : FrameHdr) (tagOk : Bool) (p : JPayload)
  /-- SESSION_FRAME (R459): Journal SESSION frame applied by the standby. -/
  | sessionFrame (h : FrameHdr) (tagOk : Bool) (p : JPayload)
  /-- COMMIT_FRAME (R459): Journal COMMIT frame applied by the standby. -/
  | commitFrame (h : FrameHdr) (tagOk : Bool) (p : JPayload)
  /-- RESYNC_FRAME (R462): Journal RESYNC frame applied by the standby. -/
  | resyncFrame (h : FrameHdr) (tagOk : Bool) (p : JPayload) (avail : List Nat)
  /-- ACK (R460): ACK frame received, which releases held output in synchronous mode. -/
  | ack (h : FrameHdr) (tagOk : Bool) (p : JPayload)
  /-- TAKEOVER (R463): TAKEOVER frame received by the old primary, which fails its bound sequences. -/
  | takeover (h : FrameHdr) (tagOk : Bool) (p : JPayload)
  /-- ACK_TIMER (R460): The ACK interval expires and an ACK frame is sent. -/
  | ackTimer
  /-- JOURNAL_RESEND (R460): 2^17 cycles without progress make the primary resend unacknowledged frames. -/
  | journalResend
  /-- MIRROR_SILENCE (R462): 2^24 cycles without a frame set BROKEN. -/
  | mirrorSilence
  /-- LANE_LOCK_LOSS (R494): A Coelostat lane loses lock and the port retrains on a surviving lane pair. -/
  | laneLockLoss (lane : Fin 4)
  /-- REGISTER_WRITE (R13): Write to a register with no row of its own, applied by its access codes. -/
  | registerWrite (f : FnId) (bar : Bar) (off : BitVec 24) (size8 : Bool) (v : BitVec 64)
  /-- REGISTER_READ_CLEAR (R13): Read of a register with RC fields, which returns and clears them. -/
  | registerReadClear (f : FnId) (bar : Bar) (off : BitVec 24) (size8 : Bool)
  /-- BUS_MASTER_ENABLE (R339): Bus Master Enable is set again on a function, so its rings are read again and its held completions, messages and translation requests are released. -/
  | busMasterEnable (f : FnId)
  /-- MEMORY_SPACE_ENABLE_CLEAR (R377): Memory Space Enable is cleared on a function, so its BAR requests complete with Unsupported Request and a locked TDI moves to ERROR. -/
  | memorySpaceEnableClear (f : FnId)
  /-- ATS_PRI_ENABLE_CLEAR (R242): Clearing ATS Enable or PRI Enable, or resetting PRI, removes the function's translations and clears a Response Failure state. -/
  | atsPriEnableClear (f : FnId) (what : AtsPri)
  /-- PHASE_MARK (R414): A layer's phase-mark cycle offset is reached, and the Heliostat raises the rail ahead of a heavy mark or lowers it after a light mark. -/
  | phaseMark (heavy : Bool)
  /-- RESYNC_COMPLETE (R462): The resync copy of every bound sequence finishes, and STATE leaves RESYNC for MIRRORING with the mode's release rule restored. -/
  | resyncComplete
  /-- HOT_RESET_READINESS (R333): The teardown of a hot reset ends, the device answers normally and sends Device Readiness Status. -/
  | hotResetReadiness
  /-- FRAME_TAG_FAILURE (R460): A journal frame whose tag fails, or whose TYPE is reserved, is received and discarded. -/
  | frameTagFailure (h : FrameHdr)
  /-- RECEIVE_WINDOW_OVERRUN (R460): The twin answers a journal write at or beyond its receive window with an error, and MIR_STATUS.OVERRUN is set and a MIRROR event recorded. -/
  | receiveWindowOverrun
  /-- ECALL_OTHER_FUNCTION (R95): ECALL with an undefined a7 function number returns a0 = -1 with no other effect. -/
  | ecallOtherFunction (g : CoreId)
deriving DecidableEq, Repr

end Sys2Proof
end

