-- ==== Sys2Proof/Decode.lean ====
section
/-! DEFINITION. The table of operations gives no row bits, so no word spells a command (log entry 2). -/

namespace Sys2Proof

/-- The command that a word spells by the table's bits: the table gives none. -/
def decodeTableWord (_nbits _w : Nat) : Option Instr := none

end Sys2Proof
end

