-- ==== Sys2Proof/Config.lean ====
section
/-! DEFINITION. The values the spec leaves open. None has a body that a proof can see: a statement about one holds
whatever it is. Log entries 3 and 4 name every use. -/

namespace Sys2Proof

/-- The n-th value that the spec leaves open (log entry 3): a draw of the device's random number generator
(R272, R380, R394), undefined memory contents (R94), the outcome of a spurious SC failure (R213).
Machine.State.fresh counts the draws taken. DESIGN CHOICE of form, never of value. -/
opaque Config.free : Nat → Nat

/-- Contents of program core SRAM at the entry of a raw program, which R94 calls undefined, at a core's byte offset. -/
opaque Config.entryByte : Nat → Nat → BitVec 8

/-- What is left of a value that the spec does not state for these operands (log entry 4). -/
opaque Config.unstated : Nat → Nat → Nat

/-- The logit that the layer programs of an image give a token ID after a row of tokens, in deterministic mode (R57 items 5 and 6, R58):
a function of the image's DIGEST, the tokens and the ID, and of nothing else (log entry 57). -/
opaque Config.logit : Bytes → List Nat → Nat → BitVec 32

end Sys2Proof
end

