-- ==== Sys2Proof/Machine/Bits.lean ====
section
/-! DEFINITION. Bit fields, byte order and sorted maps: the helpers every other file uses (R11). -/

namespace Sys2Proof.Machine

/-- Bits [hi:lo] of n as a number (R11 writes fields [msb:lsb]). -/
def bits (n hi lo : Nat) : Nat := (n >>> lo) % 2 ^ (hi + 1 - lo)

/-- Bit i of n. -/
def bit (n i : Nat) : Bool := (n >>> i) % 2 = 1

/-- n with bits [hi:lo] replaced by v. -/
def putBits (n hi lo v : Nat) : Nat :=
  let w := hi + 1 - lo
  (n >>> (hi + 1)) <<< (hi + 1) ||| ((v % 2 ^ w) <<< lo) ||| (n % 2 ^ lo)

/-- A flag as a number. -/
def b2n (b : Bool) : Nat := if b then 1 else 0

/-- Little-endian bytes as a number (R11). -/
def leNat : Bytes → Nat
  | [] => 0
  | b :: bs => b.toNat + 256 * leNat bs

/-- The low k bytes of n, little-endian (R11). -/
def natLe (n : Nat) : Nat → Bytes
  | 0 => []
  | k + 1 => BitVec.ofNat 8 n :: natLe (n / 256) k

/-- Big-endian bytes as a number, for the cryptographic standards. -/
def beNat (bs : Bytes) : Nat := bs.foldl (fun a b => a * 256 + b.toNat) 0

/-- The low k bytes of n, big-endian. -/
def natBe (n k : Nat) : Bytes := (natLe n k).reverse

/-- len bytes of bs from off; bytes beyond the end read as 0. -/
def sliceBytes (bs : Bytes) (off len : Nat) : Bytes :=
  let t := (bs.drop off).take len
  t ++ List.replicate (len - t.length) 0

/-- The little-endian field of len bytes at off. -/
def fieldLe (bs : Bytes) (off len : Nat) : Nat := leNat ((bs.drop off).take len)

/-- Every byte of bs is 0. -/
def allZero (bs : Bytes) : Bool := bs.all (· == 0)

/-- bs with the bytes from off replaced by v. -/
def putBytes (bs : Bytes) (off : Nat) (v : Bytes) : Bytes :=
  bs.take off ++ v ++ bs.drop (off + v.length)

/-- The ASCII bytes of a string (R272, R379). -/
def ascii (s : String) : Bytes := s.toList.map (fun c => BitVec.ofNat 8 c.toNat)

/-- Sign extension of the low w bits of n into 64 bits. -/
def sext (w n : Nat) : Word := BitVec.ofInt 64 (if bit n (w - 1) then (n % 2 ^ w : Nat) - (2 ^ w : Nat) else (n % 2 ^ w : Nat))

/-- The two's-complement reading of the low w bits of n. -/
def sint (w n : Nat) : Int := if bit n (w - 1) then (n % 2 ^ w : Nat) - (2 ^ w : Nat) else (n % 2 ^ w : Nat)

/-- v limited to lo..hi: "other values are treated as the nearer limit". -/
def clampNat (lo hi v : Nat) : Nat := max lo (min hi v)

/-- A saturating sum. -/
def satAdd (lim a b : Nat) : Nat := min lim (a + b)

/-- The entry of key k in a map whose keys rise strictly. -/
def mapFind {α : Type} : List (Nat × α) → Nat → Option α
  | [], _ => none
  | (k', v) :: m, k => if k = k' then some v else mapFind m k

/-- The value at k, d where k is not listed. -/
def mapGet {α : Type} (d : α) (m : List (Nat × α)) (k : Nat) : α := (mapFind m k).getD d

/-- m without key k. -/
def mapDel {α : Type} (m : List (Nat × α)) (k : Nat) : List (Nat × α) := m.filter (fun p => p.1 ≠ k)

/-- m with v listed at k, in key order. -/
def mapPut {α : Type} : List (Nat × α) → Nat → α → List (Nat × α)
  | [], k, v => [(k, v)]
  | (k', v') :: m, k, v =>
    if k < k' then (k, v) :: (k', v') :: m
    else if k = k' then (k, v) :: m
    else (k', v') :: mapPut m k v

/-- m with v at k, keeping the canonical form: a value equal to the default d is not listed. -/
def mapSet {α : Type} [DecidableEq α] (d : α) (m : List (Nat × α)) (k : Nat) (v : α) : List (Nat × α) :=
  if v = d then mapDel m k else mapPut m k v

/-- A set of numbers held as a strictly rising list. -/
def setAdd : List Nat → Nat → List Nat
  | [], k => [k]
  | x :: m, k => if k < x then k :: x :: m else if k = x then x :: m else x :: setAdd m k

/-- The set without k. -/
def setDel (m : List Nat) (k : Nat) : List Nat := m.filter (· ≠ k)

/-- The keys of a map rise strictly. -/
def keysRise {α : Type} : List (Nat × α) → Bool
  | [] => true
  | [_] => true
  | p :: q :: m => decide (p.1 < q.1) && keysRise (q :: m)

/-- The first index at which p holds. -/
def indexOf? {α : Type} (p : α → Bool) (l : List α) : Option Nat := l.findIdx? p

/-- l with its i-th element changed by f. -/
def modifyAt {α : Type} (l : List α) (i : Nat) (f : α → α) : List α := l.modify i f

/-- Insertion of x into l, which is ordered by lt. -/
def insertBy {α : Type} (lt : α → α → Bool) (x : α) : List α → List α
  | [] => [x]
  | y :: l => if lt x y then x :: y :: l else y :: insertBy lt x l

/-- A stable insertion sort: equal elements keep their order. -/
def sortBy {α : Type} (lt : α → α → Bool) (l : List α) : List α := l.foldl (fun acc x => insertBy lt x acc) []

end Sys2Proof.Machine
end

