-- ==== Sys2Proof/Machine/State.lean ====
section
/-! DEFINITION. The state of the part as plain data: every register, store, queue, cache state, table and mode that the
spec names, the queue of waiting commands, and the model's own bookkeeping (out, fresh). Maps are lists in key order in
which a key not listed holds the field's default. Log entry 1 names every value at reset that the spec does not give. -/

namespace Sys2Proof.Machine

/-! ### Memory (06, 07) -/

/-- Every addressed memory as one (R176, R177). A key below 2^52 is a device physical address; 2^64 + hpa is a byte of
host memory. cells holds the coherent value of each byte that differs from what an unlisted byte reads as (log entry 6);
poison holds the poisoned aligned 8-byte words by key / 8 (R194). scratch and lost name the regions whose contents are undefined, with the
draw that stands for them: scratch by core, the program core SRAM that was handed to a raw program (R94); lost by its number of 2 MiB,
an HBM granule whose partition key changed under its contents (R188, R195). -/
structure Memory where
  cells : List Host.Cell
  poison : List Nat
  scratch : List (Nat × Nat)
  lost : List (Nat × Nat) := []
deriving DecidableEq, Repr

/-- A regulator of one partition in one memory island (R190, R191) with its credit and its statistics. -/
structure Regulator where
  rate : BitVec 16
  burst : BitVec 16
  cls : BitVec 2
  credit : Nat
  guaranteed : Nat
  spare : Nat
  heldWindows : Nat
  held : Bool
deriving DecidableEq, Repr

/-! ### One core (03, 04, 05) -/

/-- Where a command of an engine queue stands (R79): in the queue, waiting on its semaphore at the head, started, its
inputs released, or all its writes made. -/
inductive CmdPhase where
  | queued | waiting | started | released | finished
deriving DecidableEq, Repr

/-- A command of an engine queue (R77, R78, R133) with the progress of its descriptors and tiles (R137). -/
structure EngCmd where
  ticket : BitVec 32
  bytes : Bytes
  sync : BitVec 64
  user : Bool
  wctx : Word
  phase : CmdPhase
  desc : Nat
  tile : Nat
  checked : Bool
  joined : Bool
deriving DecidableEq, Repr

/-- A place in an engine queue: a command, or the marker of a barrier (R208). -/
inductive QItem where
  | cmd (c : EngCmd)
  | marker (id : Nat)
deriving DecidableEq, Repr

/-- An engine queue with its two ticket counters (R80). -/
structure Queue where
  items : List QItem
  issued : BitVec 32
  completed : BitVec 32
deriving DecidableEq, Repr

/-- The kind of a barrier (R207). -/
inductive BarKind where
  | load | store | full
deriving DecidableEq, Repr

/-- A barrier whose markers are placed (R207, R208): its kind, its engine mask, and whether the sequencer waits. -/
structure Barrier where
  id : Nat
  kind : BarKind
  mask : BitVec 4
deriving DecidableEq, Repr

/-- A store buffer entry (R203): the pointer of its line, the buffered bytes by offset from it (a FIFO entry that crosses a line
goes on beyond 63), the rights it carries, and whether it was made in merging mode. -/
structure SbEntry where
  line : Nat
  ptr : Word
  bytes : List (Nat × Byte)
  fw : Bool
  tag : Nat
  pasid : Nat
  merge : Bool
deriving DecidableEq, Repr

/-- What the sequencer waits for, when its instruction has not finished (R82, R86, R208, R95, R80). -/
inductive SeqWait where
  | none
  | sem (n : Nat) (k : Nat) (rd : Reg)
  | barrier (id : Nat)
  | queue (imm : BitVec 12) (target : BitVec 32) (rd : Reg)
  | rendezvous (k : Nat)
deriving DecidableEq, Repr

/-- One write to a target that does not answer (R179, R221): the queue that issued it, its line, its device pointer, and the
context tag and PASID it carried, none for firmware. -/
structure DeadWrite where
  q : Nat
  line : Nat
  ptr : Word
  tag : Option (Nat × Nat)
deriving DecidableEq, Repr

/-- The architectural state of one core in service (R35, R67, R73, R75, R80, R85, R103). parked says that firmware holds its sequencer
(R96), icache names the lines that its instruction cache holds (R61, R70), scFails counts the spurious SC failures since the last
success (R213), and stepRecord is the number of the step whose record lies in the firmware region (R255), whose place and format the
spec does not give (log entry 52). -/
structure Core where
  machineMode : Bool
  parked : Bool
  pc : Word
  x : List (Nat × Word)
  mstatus : Word
  mtvec : Word
  mepc : Word
  mcause : Word
  mtval : Word
  mscratch : Word
  mie : Word
  mip : Word
  mcounteren : Word
  mcountinhibit : Word
  mcycle : Word
  minstret : Word
  hpm : List (Nat × Word)
  wctx : Word
  wcyccmp : Word
  wsemovf : Word
  wbstat : Word
  wengerr : Word
  wait : SeqWait
  resv : Option Nat
  sb : List SbEntry
  sems : List (Nat × Nat)
  semWaits : List (Nat × Nat)
  queues : List (Nat × Queue)
  barriers : List Barrier
  nextBarrier : Nat
  deadWrites : List DeadWrite
  acc : List (Nat × Nat)
  accPoison : List Nat
  cb : List (Nat × Bytes)
  residentTag : Nat
  icache : List Nat
  scFails : Nat
  stepRecord : Option Nat
deriving DecidableEq, Repr

/-- An engine queue after core reset (R80). -/
def Queue.reset : Queue := { items := [], issued := 0, completed := 0 }

/-- A core after core reset. mstatus has TW 1 (R73), wcyccmp all ones (R75); registers without a reset value in the spec
are 0 (log entry 1); the core is in machine mode (log entry 1). -/
def Core.reset : Core :=
  { machineMode := true, parked := false, pc := 0, x := [], mstatus := 0x20_0000, mtvec := 0, mepc := 0, mcause := 0, mtval := 0,
    mscratch := 0, mie := 0, mip := 0, mcounteren := 0, mcountinhibit := 0, mcycle := 0, minstret := 0, hpm := [],
    wctx := 0, wcyccmp := 0xFFFF_FFFF_FFFF_FFFF, wsemovf := 0, wbstat := 0, wengerr := 0, wait := .none, resv := none,
    sb := [], sems := [], semWaits := [], queues := [], barriers := [], nextBarrier := 0, deadWrites := [], acc := [],
    accPoison := [], cb := [], residentTag := 0, icache := [], scFails := 0, stepRecord := none }

/-! ### Contexts and translation (08) -/

/-- An ADVISE range of a context (R244, R311). -/
structure Advice where
  start : BitVec 64
  len : BitVec 64
  preferHdm : Bool
  readMostly : Bool
deriving DecidableEq, Repr

/-- A context's translation entry (R225) with its arena map, and what attach gave it (R297). strict marks the arena
granules of a firmware mapping that are device-strict (R214). A detach in progress keeps its packet and what its RESULT
counts (R298). -/
structure Ctx where
  valid : Bool
  hostEn : Bool
  sv57 : Bool
  hdmWr : Bool
  faultRec : Bool
  func : Nat
  pasid : Nat
  arena : List (Nat × Nat)
  arenaBytes : Nat
  arenaRoBytes : Nat
  hdmOff : Nat
  hdmBytes : Nat
  recRing : Nat
  recSlots : Nat
  recNext : Nat
  part : Nat
  merge : Bool
  privileged : Bool
  draining : Bool
  seed : Nat
  strict : List Nat
  advice : List Advice
  detachBy : Option (Nat × Nat × BitVec 16)
  aborted : Nat
  closed : Nat
deriving DecidableEq, Repr

/-- No context (R225 VALID 0). -/
def Ctx.none : Ctx :=
  { valid := false, hostEn := false, sv57 := false, hdmWr := false, faultRec := false, func := 0, pasid := 0,
    arena := [], arenaBytes := 0, arenaRoBytes := 0, hdmOff := 0, hdmBytes := 0, recRing := 0, recSlots := 0,
    recNext := 0, part := 0, merge := false, privileged := false, draining := false, seed := 0, strict := [],
    advice := [], detachBy := Option.none, aborted := 0, closed := 0 }

/-- An entry of a translation cache (R228): PASID and function, first byte of the page, its size, the physical page, and
R, W and U of the completion. -/
structure XEntry where
  fn : Nat
  pasid : Nat
  va : Nat
  size : PageSize
  hpa : Nat
  rd : Bool
  wr : Bool
  u : Bool
deriving DecidableEq, Repr

/-- An outstanding translation request (R230): the hub whose L2 it fills; whether No Write is set; stale after an invalidation
(R238). -/
structure AtsReq where
  hub : Nat
  fn : Nat
  pasid : Nat
  va : Nat
  noWrite : Bool
  stale : Bool
  units : List Nat
deriving DecidableEq, Repr

/-- How far the resolution of a page that a waiter needs has come (R234 to R237). -/
inductive XPhase where
  | ats | faulted | requested | stalled | failed
deriving DecidableEq, Repr

/-- A waiter for one page (R232 to R234): the page, the rights it needs, and the successive Successes without a usable
translation (R235). -/
structure XWait where
  who : Waiter
  fn : Nat
  pasid : Nat
  va : Nat
  rd : Bool
  wr : Bool
  phase : XPhase
  successes : Nat
deriving DecidableEq, Repr

/-- An outstanding page request (R234). -/
structure PageReq where
  fn : Nat
  pasid : Nat
  va : Nat
  rd : Bool
  wr : Bool
  prg : Nat
  overdue : Bool
deriving DecidableEq, Repr

/-- An accepted invalidation (R238) with the accesses it waits for: the CXL.io reads outstanding at its acceptance, by tag and
address, and per core the writes to targets that do not answer. -/
structure Inval where
  fn : Nat
  pasid : Option Nat
  itag : BitVec 5
  reads : List (Nat × Nat)
  dead : List (Nat × DeadWrite)
deriving DecidableEq, Repr

/-- Translation caches, outstanding requests, and the XLT_ registers (R228 to R246). -/
structure Xlt where
  l1 : List (Nat × List XEntry)
  l2 : List (Nat × List XEntry)
  hits : List (Nat × Nat)
  misses : List (Nat × Nat)
  ats : List AtsReq
  waits : List XWait
  reqs : List PageReq
  invals : List Inval
  overflow : BitVec 32
  events : BitVec 3
  eventFn : BitVec 6
  uprgiCount : BitVec 32
  invCompleted : BitVec 32
deriving DecidableEq, Repr

/-- Nothing translated; every XLT_ register 0 (R471). -/
def Xlt.reset : Xlt :=
  { l1 := [], l2 := [], hits := [], misses := [], ats := [], waits := [], reqs := [], invals := [], overflow := 0,
    events := 0, eventFn := 0, uprgiCount := 0, invCompleted := 0 }

/-! ### Coherence (12) -/

/-- A stable state of a directory entry (R351): shared by groups (68 is the host), or owned by an agent. -/
inductive DirSt where
  | shared (groups : List Nat)
  | owned (agent : Nat)
deriving DecidableEq, Repr

/-- Who made the request that a transient entry carries out: an agent, the host, or an eviction (R351, R354, R357). -/
inductive DirReq where
  | agent (a : Nat) (excl : Bool)
  | host (want : HostWant) (data : Option Bytes)
  | evict (a : Option Nat) (excl : Bool) (line : Nat)
  | engine (inval : Bool)
deriving DecidableEq, Repr

/-- The transient part of an entry (R351): the request, the acknowledgements and forward it waits for, the host snoop it
waits for. -/
structure DirTrans where
  req : DirReq
  acks : List Nat
  fwd : Bool
  snoop : Bool
deriving DecidableEq, Repr

/-- A directory entry (R351). used orders entries for eviction (R357). -/
structure DirEntry where
  st : DirSt
  trans : Option DirTrans
  used : Nat
deriving DecidableEq, Repr

/-- The state of a device-cache line (R360). -/
inductive DcSt where
  | s | e | m
deriving DecidableEq, Repr

/-- An HDM decoder (R366). -/
structure Decoder where
  committed : Bool
  base : Nat
  size : Nat
  bi : Bool
  commitError : Bool
deriving DecidableEq, Repr

/-- The directories, data-cache line states, device cache, HDM windows, and the COH_ registers (R350 to R369). clock orders uses, of
directory entries (R357) and, in dcUsed, of lines of the device cache (R361). curr lists the submission ring lines asked for by RdCurr
(R361): ring, line, whether its data has come. -/
structure Coh where
  dir : List (Nat × DirEntry)
  clock : Nat
  held : List (Nat × List (Nat × Bool))
  wbuf : List (Nat × Nat)
  reqs : List (Nat × Nat × Bool)
  nacks : List (Nat × Nat × Nat)
  resvs : List (Nat × Nat)
  hostWaits : List (Nat × HostWant × Option Bytes)
  dead : List Nat
  deadAgent : BitVec 11
  deadValid : Bool
  evictions : BitVec 32
  reservations : BitVec 16
  timeouts : BitVec 16
  dc : List (Nat × DcSt)
  dcUsed : List (Nat × Nat)
  d2h : List (Nat × Bool)
  curr : List (Nat × Nat × Bool)
  cacheEnable : Bool
  cacheInvalid : Bool
  wbi : Bool
  disableAfterWbi : Bool
  ways : BitVec 4
  waysIgnored : Bool
  cohGib : BitVec 9
  bulkGib : BitVec 9
  hdmBusy : Bool
  hdmIgnored : Bool
  newCoh : BitVec 9
  newBulk : BitVec 9
  dec0 : Decoder
  dec1 : Decoder
  memoryActive : Bool
  memInfoValid : Bool
deriving DecidableEq, Repr

/-- A decoder not committed (R366; log entry 1). -/
def Decoder.reset : Decoder := { committed := false, base := 0, size := 0, bi := false, commitError := false }

/-- No line held; COH_DC_CFG 0x2, COH_HDM_CFG 0x0018_0008 (R471). -/
def Coh.reset : Coh :=
  { dir := [], clock := 0, held := [], wbuf := [], reqs := [], nacks := [], resvs := [], hostWaits := [], dead := [],
    deadAgent := 0, deadValid := false, evictions := 0, reservations := 0, timeouts := 0, dc := [], dcUsed := [], d2h := [], curr := [],
    cacheEnable := false, cacheInvalid := false, wbi := false, disableAfterWbi := false, ways := 2,
    waysIgnored := false, cohGib := 8, bulkGib := 24, hdmBusy := false, hdmIgnored := false, newCoh := 0, newBulk := 0,
    dec0 := Decoder.reset, dec1 := Decoder.reset, memoryActive := false, memInfoValid := false }

/-! ### Fault collection (16) -/

/-- The quadrant agent of one collector port (R433): up to 64 events in order, and per source the pending count with the
first event it counts. -/
structure FltAgent where
  queue : List FaultEvent
  pending : List (Nat × FaultEvent)
deriving DecidableEq, Repr

/-- One source (R437, FLT_SRC_CFG_s and FLT_SRC_CNT_s): configuration, timer, window count, escalations, total. -/
structure FltSource where
  cfg : BitVec 16
  timer : Nat
  count : Nat
  escalations : Nat
  total : Nat
deriving DecidableEq, Repr

/-- A Night Log entry (R440). -/
structure NightEntry where
  seqno : BitVec 32
  source : BitVec 5
  cls : BitVec 2
  escalated : Bool
  upgraded : Bool
  unit : BitVec 16
  mergedSources : BitVec 32
  mergedCount : Nat
  ctx : Option (BitVec 12)
  detail : BitVec 64
  time : BitVec 48
  events : Nat
deriving DecidableEq, Repr

/-- The reaction in progress or in force (R436, R444): whether it is fatal, its source, its entry's number and slot, the
unit, and the time it began. -/
structure Reaction where
  fatal : Bool
  source : BitVec 5
  seqno : BitVec 32
  slot : Option Nat
  unit : BitVec 16
  began : Nat
deriving DecidableEq, Repr

/-- The fault collector, the Night Log, the ALV generator and the FLT_ registers (R433 to R448). -/
structure Flt where
  agents : List (Nat × FltAgent)
  sources : List FltSource
  injectSrc : BitVec 5
  log : List (Nat × NightEntry)
  next : Nat
  wrapped : Bool
  frozen : Bool
  lost : BitVec 32
  seqno : BitVec 32
  first : Option NightEntry
  firstValid : Bool
  firstOpen : Bool
  serviceDue : Bool
  reaction : Option Reaction
  time : Nat
  alvLevel : Bool
  alvState : BitVec 2
  alvToggles : BitVec 32
  alvRefreshed : Bool
deriving DecidableEq, Repr

/-- FLT_SRC_CFG_s at reset (R476). -/
def srcCfgReset (s : Nat) : BitVec 16 :=
  if s = 0 then 0x6010
  else if s = 1 || s = 3 || s = 5 then 0x6002
  else if s = 2 || s = 4 then 0x6040
  else if s = 6 then 0x60FF
  else if s = 7 || s = 10 then 0x6004
  else if s = 9 || s = 20 || s = 30 then 0x54FF
  else if s = 14 || s = 15 then 0x5E08
  else if s = 16 || s = 26 then 0x5E04
  else if s = 21 then 0x5E10
  else 0x2001

/-- A source after reset. -/
def FltSource.reset (s : Nat) : FltSource :=
  { cfg := srcCfgReset s, timer := 0, count := 0, escalations := 0, total := 0 }

/-- The collector after a fundamental reset (R471, R476). -/
def Flt.reset : Flt :=
  { agents := [], sources := (List.range 32).map FltSource.reset, injectSrc := 0, log := [],
    next := 0, wrapped := false, frozen := false, lost := 0, seqno := 0, first := none, firstValid := false,
    firstOpen := false, serviceDue := false, reaction := none, time := 0, alvLevel := false, alvState := 0,
    alvToggles := 0, alvRefreshed := false }

/-! ### Rings, functions and the host port (10, 11) -/

/-- CMD_RING_STATUS.STATE (R280). -/
inductive RingSt where
  | disabled | active | doorbellAhead | stopped | draining
deriving DecidableEq, Repr

/-- Where a packet stands (R287, R255): read, received by the scheduler, running, waiting for a buffer, or ended with its
final completion still to be written. -/
inductive PktPhase where
  | read | received | running | done
deriving DecidableEq, Repr

/-- A packet the device has read whose final completion is not yet written (R286, R287). order is its place among all
packets read (R313), progress what a copy has done (R310). -/
structure Pkt where
  seq : BitVec 16
  bytes : Bytes
  head : Nat
  phase : PktPhase
  order : Nat
  progress : Nat
deriving DecidableEq, Repr

/-- A completion record that has been produced and not yet written (R289, R290). owed: it is the final completion of a packet that was
accepted, and not of one that stopped its ring (R286, R292). -/
structure Completion where
  tag : BitVec 16
  status : BitVec 8
  final : Bool
  seq : BitVec 16
  head : Nat
  result : Bytes
  irq : Bool
  owed : Bool := true
deriving DecidableEq, Repr

/-- What the ring is re-reading (R291, R292): a slot with a stale phase, or a torn packet, and how often it has. -/
inductive Reread where
  | none
  | phase (n : Nat)
  | torn (n : Nat)
deriving DecidableEq, Repr

/-- One ring pair with its Transom registers (R278 to R292). again: the slot at SQ_HEAD is to be read again, whatever TAIL is (R286,
R291). -/
structure Ring where
  st : RingSt
  stopCause : BitVec 5
  sqBase : BitVec 64
  cqBase : BitVec 64
  sqLog : BitVec 5
  cqLog : BitVec 5
  sqHdm : Bool
  cqHdm : Bool
  vec : BitVec 11
  enable : Bool
  sqHead : Nat
  nextSeq : BitVec 16
  sqPhase : Bool
  tail : Nat
  cqHead : Nat
  cqNext : Nat
  cqPhase : Bool
  dbAhead : BitVec 32
  rereads : BitVec 32
  reread : Reread
  pkts : List Pkt
  held : List Completion
  again : Bool := false
deriving DecidableEq, Repr

/-- A ring pair after reset: every register at its reset value of R280 (SQ_LOG2 and CQ_LOG2 6, SQ_PHASE 1). -/
def Ring.reset : Ring :=
  { st := .disabled, stopCause := 0, sqBase := 0, cqBase := 0, sqLog := 6, cqLog := 6, sqHdm := false, cqHdm := false,
    vec := 0, enable := false, sqHead := 0, nextSeq := 0, sqPhase := true, tail := 0, cqHead := 0, cqNext := 0,
    cqPhase := true, dbAhead := 0, rereads := 0, reread := .none, pkts := [], held := [] }

/-- An MSI-X table entry (R336). -/
structure MsixEntry where
  addr : BitVec 64
  data : BitVec 32
  masked : Bool
deriving DecidableEq, Repr

/-- An MSI-X entry after reset: masked, as PCI Express gives (PRESUMED, log entry 7). -/
def MsixEntry.reset : MsixEntry := { addr := 0, data := 0, masked := true }

/-- TDISP state of an interface (R377). -/
inductive Tdi where
  | unlocked | locked | run | error
deriving DecidableEq, Repr

/-- One function: what its configuration space and MSI-X tables hold (R324 to R340), and its TDISP state (R377); aerFirst is
the First Error Pointer (R330); barred says that it serves no packet until its interface is locked again. -/
structure Fn where
  enabled : Bool
  mse : Bool
  bme : Bool
  intDisable : Bool
  d3hot : Bool
  msixEnable : Bool
  msixMask : Bool
  msix : List (Nat × MsixEntry)
  pba : List Nat
  atsEnable : Bool
  priEnable : Bool
  priAlloc : BitVec 32
  respFailure : Bool
  uprgi : Bool
  quiescing : Bool
  removing : Bool
  aerUncor : BitVec 32
  aerCor : BitVec 32
  aerFirst : BitVec 5
  tdi : Tdi
  barred : Bool
  tdiNonce : Nat
  ltrEnable : Bool
  noTimeout : Bool
  cfg : List (Nat × BitVec 32)
deriving DecidableEq, Repr

/-- A function after reset: every enable 0. Only the PF is enabled (R324, R333). -/
def Fn.reset : Fn :=
  { enabled := false, mse := false, bme := false, intDisable := false, d3hot := false, msixEnable := false,
    msixMask := false, msix := [], pba := [], atsEnable := false, priEnable := false, priAlloc := 0,
    respFailure := false, uprgi := false, quiescing := false, removing := false, aerUncor := 0,
    aerCor := 0, aerFirst := 0, tdi := .unlocked, barred := false, tdiNonce := 0, ltrEnable := false, noTimeout := false,
    cfg := [] }

/-- A CXL.io read of the device that is outstanding or answered (R341): its tag, its function and, where it goes out untranslated
(R229), its PASID, its requester, the range it covers, the bytes received so far and how it ended. -/
structure IoRead where
  tag : BitVec 10
  fn : Nat
  pasid : Option Nat
  who : Waiter
  addr : Nat
  len : Nat
  got : Bytes
  ended : Option IoStatus
deriving DecidableEq, Repr

/-- The host port (R332 to R348): link, readiness, Portcullis, removal and the HST_ interrupt registers. -/
structure Port where
  linkUp : Bool
  linkBad : Bool
  ready : Bool
  frozen : Bool
  cause : BitVec 3
  causeSeen : BitVec 5
  clearRefused : Bool
  entries : BitVec 16
  removeRequest : Bool
  removeReady : Bool
  removeCancelled : Bool
  off : Bool
  heldMsgs : List (Option Nat)
  intStatus : BitVec 5
  intEnable : BitVec 5
  intVector : BitVec 11
  intxOn : Bool
  hotResetPending : Bool
  ltrActive : Bool
  ioReads : List IoRead
deriving DecidableEq, Repr

/-- The host port after a fundamental reset, link down (R333, R346, R471). -/
def Port.reset : Port :=
  { linkUp := false, linkBad := false, ready := false, frozen := false, cause := 0, causeSeen := 0,
    clearRefused := false, entries := 0, removeRequest := false, removeReady := false, removeCancelled := false,
    off := false, heldMsgs := [], intStatus := 0, intEnable := 0, intVector := 0, intxOn := false,
    hotResetPending := false, ltrActive := false, ioReads := [] }

/-! ### Images, sequences, steps, programs (01, 09) -/

/-- A loaded image: what its header, its section table and its placement give (R23, R24, R299), the scheduler parameter
block of a main image (R253), the mode in force at its load (R56), and how its key was released (R390). -/
structure Image where
  digest : Bytes
  bytes : Nat
  header : Bytes
  info : ImageMeta
  granules : List Nat
  codebooks : Bytes
  expertMap : List (Nat × Nat)
deriving DecidableEq, Repr

/-- A LOAD_MODEL in progress (R299): its packet, the header as it was read and checked (R21), what the sections tell, its placement,
and the handle of the key that was released. -/
structure Load where
  f : Nat
  r : Nat
  q : BitVec 16
  draft : Bool
  src : Nat
  bytes : Nat
  header : Bytes
  params : Bytes
  info : ImageMeta
  granules : List Nat
  key : Option Nat
deriving DecidableEq, Repr

/-- Sequence states with the codes of R250. -/
inductive SeqSt where
  | idle | prefill | decode | evicted | failed | closing
deriving DecidableEq, Repr

/-- An outstanding GENERATE (R303): its packet, its output buffer, and its progress. -/
structure Gen where
  f : Nat
  r : Nat
  q : BitVec 16
  out : Nat
  slots : Nat
  partialEvery : Nat
  emitted : Nat
  bytes : Nat
  since : Nat
  cancel : Bool
deriving DecidableEq, Repr

/-- One sequence's part in a step (R254): its rows, its draft length, its first position, whether a token is sampled, and
whether it decodes. -/
structure BatchRow where
  slot : Nat
  decode : Bool
  start : Nat
  rows : Nat
  d : Nat
  samples : Bool
deriving DecidableEq, Repr

/-- A distribution over token IDs that the sampler keeps (R268, R275): keep set in ascending ID with each e. -/
abbrev Dist := List (Nat × BitVec 32)

/-- A token that a step emits for a sequence, before commit (R268, R270, R276). -/
structure Emit where
  token : Nat
  draft : Bool
  logprob : BitVec 32
deriving DecidableEq, Repr

/-- What a step has produced for a sequence (R255 T2 to T5). -/
structure StepOut where
  slot : Nat
  drafts : List (Nat × Dist)
  draftsEnd : Bool
  emits : List Emit
  sampled : Bool
  maskEmpty : Bool
  nan : Bool
deriving DecidableEq, Repr

/-- The places of one image's KV of a sequence: its page tables (R145), its sliding-window rings (R261) and its page sets (R260). -/
structure KvPlaces where
  tables : Option Nat
  ring : Option Nat
  pages : List Nat
deriving DecidableEq, Repr

/-- One entry of the sequence table (R247 to R252, R262 to R272). stored is s; rebuilt counts the positions that a rebuild has
stored again (R264); back is the state an evicted sequence returns to; pages, ring and tables are the places of its page sets (R260), of its
sliding-window rings (R261) and of its page tables (R145), draftKv those of the draft image's KV (R255); late is its part of a step
whose output records wait for a host page (R256). -/
structure Sequence where
  gen : Nat
  ctx : Nat
  seqId : BitVec 64
  prio : Nat
  session : Option Nat
  st : SeqSt
  back : SeqSt
  history : List Nat
  stored : Nat
  params : Bytes
  mask : Bytes
  bias : List (Nat × BitVec 32)
  key : Bytes
  keyRng : Bool
  home : Nat
  served : Nat
  entered : Nat
  opened : Nat
  committed : Nat
  generate : Option Gen
  pages : List Nat
  ring : Option Nat
  rebuilt : Nat
  late : Option (BatchRow × StepOut)
  tables : Option Nat := none
  draftKv : KvPlaces := { tables := none, ring := none, pages := [] }
deriving DecidableEq, Repr

/-- The step in flight (R254 to R257): its number, batch, results, the batches that splits have left to run, and whether it is the
second run. -/
structure Step where
  number : Nat
  batch : List BatchRow
  outs : List StepOut
  rest : List (List BatchRow)
  rerun : Bool
deriving DecidableEq, Repr

/-- One core's part in a raw program (R95, R96). -/
structure ProgCore where
  g : Nat
  exited : Bool
  code : Word
  result : Word
  calls : Nat
deriving DecidableEq, Repr

/-- How a program is ending (R96). -/
inductive ProgEnd where
  | running | done | faulted | aborted
deriving DecidableEq, Repr

/-- A raw program, or one waiting for the step boundary (R259, R309, R96). -/
structure Program where
  f : Nat
  r : Nat
  q : BitVec 16
  ctx : Nat
  entry : Word
  arg : Word
  limit : Nat
  buf : Nat
  started : Bool
  cores : List ProgCore
  ending : ProgEnd
  fault : Option (Nat × Nat × Nat × Word × Word)
  dies : List Nat
  silent : Bool
deriving DecidableEq, Repr

/-- A sequence command that HB0.D has received and that the next step boundary applies (R251, R255), with the slot and the
pages that firmware chose for it. -/
structure Recv where
  f : Nat
  r : Nat
  q : BitVec 16
  slot : Nat
  pages : List Nat
deriving DecidableEq, Repr

/-- The scheduler (R247 to R264): images, sequences, page pool (length and references of each place), step, commands received,
programs, dies released for programs; the member map entries that name another core than before a die left (R453): member map and
member, and the core it came from; the promoted pages (R263): page and die, and the offset of its copy in the die's stacked SRAM;
and the rings, 64 × function + ring, that have had their turn in the rotation (R287). -/
structure Srv where
  main : Option Image
  draft : Option Image
  loading : Option Load
  sched : Bytes
  seqs : List (Nat × Sequence)
  gens : List (Nat × Nat)
  pool : List (Nat × (Nat × Nat))
  poolBytes : Nat
  step : Option Step
  stepNo : Nat
  order : Nat
  received : List Recv
  programs : List Program
  released : List Nat
  moved : List ((Nat × Nat) × Nat)
  promoted : List ((Nat × Nat) × Nat)
  pktOrder : Nat
  turned : List Nat
deriving DecidableEq, Repr

/-- Nothing loaded, opened or running (R333). -/
def Srv.reset : Srv :=
  { main := none, draft := none, loading := none, sched := [], seqs := [], gens := [], pool := [], poolBytes := 0,
    step := none, stepNo := 0, order := 0, received := [], programs := [], released := [], moved := [], promoted := [],
    pktOrder := 0, turned := [] }

/-- One block staged by a Finder (R163, R164): expert, bytes staged of PREFIX, whether a chunk of it was read. -/
structure Staged where
  expert : Nat
  complete : Bool
  read : Bool
deriving DecidableEq, Repr

/-- A Finder (R162 to R166): the layer it collects predictions for, summed weights, the cores that have submitted, the
order still to stage, both halves, the layer now served, and the eight counters. -/
structure Finder where
  layer : Nat
  sums : List (Nat × Nat)
  submitted : List Nat
  ranked : Bool
  filling : List Staged
  serving : List Staged
  servingLayer : Nat
  begun : List Nat
  predictions : Nat
  latePredictions : Nat
  stagedCount : Nat
  stagedRead : Nat
  hits : Nat
  lateChunks : Nat
  misses : Nat
  discarded : Nat
deriving DecidableEq, Repr

/-- A Finder with nothing staged and its counters 0 (R166). -/
def Finder.reset : Finder :=
  { layer := 0, sums := [], submitted := [], ranked := false, filling := [], serving := [], servingLayer := 0,
    begun := [], predictions := 0, latePredictions := 0, stagedCount := 0, stagedRead := 0, hits := 0, lateChunks := 0,
    misses := 0, discarded := 0 }

/-- A row of an exchange buffer as its tag gives it (R154). -/
structure XRow where
  src : Nat
  tok : Nat
  rank : Nat
  expert : Nat
  gate : BitVec 32
deriving DecidableEq, Repr

/-- A row that a member of an EXCHANGE sends: destination die, position in that die's buffer, tag (R154). -/
structure XSend where
  die : Nat
  pos : Nat
  row : XRow
deriving DecidableEq, Repr

/-- Where a member of a collective stands (R149 to R152): joined and waiting for the others, at work, or its descriptor has ended,
without or with an error. -/
inductive JoinPhase where
  | waiting | running | done | failed
deriving DecidableEq, Repr

/-- One member's part in a collective (R148 to R159): the core and channel that issued its descriptor, the member map, its order on the
group, its member index and its index among the members that the core serves (R453), the descriptor; then the tiles behind it,
the routes of an EXCHANGE (gate weight, expert, expert map entry, by token and rank) with the rows it sends, and the
contributions that have arrived and the tokens written of a COMBINE. -/
structure Joined where
  g : Nat
  chan : Nat
  map : Nat
  order : Nat
  member : Nat
  sub : Nat
  bytes : Bytes
  phase : JoinPhase
  tile : Nat
  routes : List (List (Nat × Nat × Nat))
  sends : List XSend
  got : List (Nat × Nat)
  outs : List Nat
deriving DecidableEq, Repr

/-- The latest EXCHANGE issued on a group, for its COMBINE (R156): member map, order, K, row units, the tokens of each member that has
issued it, and, once it is carried out, the rows of each die's buffer with those still to arrive. -/
structure ExchangeRec where
  map : Nat
  order : Nat
  k : Nat
  units : Nat
  tokens : List (Nat × Nat)
  rows : List (Nat × Nat)
  left : List (Nat × Nat)
deriving DecidableEq, Repr

/-! ### Security (13) -/

/-- An installed session key with its replay window and outbound counter (R380, R384, R386). -/
structure SessionKey where
  ctx : Nat
  key : Bytes
  inst : Bytes
  high : Nat
  seen : List Nat
  counter : Nat
  epoch : Nat
deriving DecidableEq, Repr

/-- An installed image key (R378, R390). -/
structure ImageKey where
  ctx : Nat
  key : Bytes
  digest : Bytes
  signer : Bytes
deriving DecidableEq, Repr

/-- Security state and the SEC_ registers (R370 to R394). devKey and sealKey are the private scalars that the boot ROM
derived (R370), none before B3; partKeys lists the key slots that hold a key and the draw it came from (R391). -/
structure Sec where
  keysReady : Bool
  devPriv : Nat
  sealPriv : Nat
  romDigest : Bytes
  fwDigest : Bytes
  svn : BitVec 32
  antiRollback : BitVec 32
  openCount : BitVec 32
  eyepiece : Bool
  scope : BitVec 8
  ideKeys : List (Bool × Bytes)
  ideGo : Option Bool
  spdm : List (Nat × Bool)
  spdmNext : Nat
  sessions : List (Nat × SessionKey)
  imageKeys : List (Nat × ImageKey)
  nextHandle : Nat
  partKeys : List (Nat × Nat)
  nonce : Option Bytes
  tokenAddr : BitVec 64
  busy : Bool
  opening : Option (BitVec 8)
  refused : Bool
  reason : BitVec 3
  attempts : BitVec 16
deriving DecidableEq, Repr

/-- Security state after a fundamental reset, before B3. The two flash counters are the package's (R371); the model starts
them at 0 (log entry 1). -/
def Sec.reset : Sec :=
  { keysReady := false, devPriv := 0, sealPriv := 0, romDigest := [], fwDigest := [], svn := 0, antiRollback := 0,
    openCount := 0, eyepiece := false, scope := 0, ideKeys := [], ideGo := none, spdm := [], spdmNext := 0,
    sessions := [], imageKeys := [], nextHandle := 1, partKeys := [], nonce := none, tokenAddr := 0, busy := false, opening := none,
    refused := false, reason := 0, attempts := 0 }

/-! ### Power (14) -/

/-- What the power manager knows of a rail (R397): the last report in mW, whether it is counted at its rated maximum, and
the reports received since. -/
structure Rail where
  mw : Nat
  lost : Bool
  good : Nat
deriving DecidableEq, Repr

/-- The power state of a compute die (R409, R410, R417): share and thermal ceiling in W, Louvre and clock step of each
cluster, the clock step each cluster waits to reach, power of the last period in mW, throttle and trip flags. -/
structure DiePwr where
  share : Rat
  therm : Rat
  louvre : List Nat
  steps : List Nat
  wants : List (Nat × Nat)
  powerMw : Nat
  perStep : Nat
  throttled : Bool
  tripped : Bool
  thermLouvre : Nat
deriving DecidableEq, Repr

/-- A hint in force (R415): its kind (0 heavy, 1 light), lead and duration in microseconds. -/
structure Hint where
  kind : Nat
  lead : Nat
  dur : Nat
deriving DecidableEq, Repr

/-- Power management and the PWR_ registers (R396 to R418). -/
structure Pwr where
  packageW : Nat
  hostW : Nat
  clamped : Bool
  updated : Bool
  heldCap : Option Nat
  varMode : Bool
  repAuto : Bool
  hostHints : Bool
  imageHints : Bool
  repStep : Nat
  variableActive : Bool
  repStepActive : Nat
  helioStep : Nat
  deadband : Nat
  floorW : Nat
  ceilW : Nat
  marginW : Nat
  threshMv : Nat
  hold : Nat
  throttleC : Nat
  hystC : Nat
  droop : BitVec 16
  capChanges : BitVec 16
  throttleEntries : BitVec 16
  louvrePeriods : BitVec 16
  louvreEngaged : Bool
  louvreSeen : Bool
  fixedMw : Nat
  commonLouvre : Nat
  rails : List (Nat × Rail)
  dies : List (Nat × DiePwr)
  sensors : List (Nat × Int)
  alerts : List Nat
  stretched : List Nat
  hint : Option Hint
  phaseHeavy : Option Bool
deriving DecidableEq, Repr

/-- A compute die's power state at reset: PWR_DIE_d LOUVRE 32, everything else 0 (R410), the ceiling at CEIL_W. -/
def DiePwr.reset : DiePwr :=
  { share := 0, therm := 220, louvre := [32, 32, 32, 32], steps := [0, 0, 0, 0], wants := [], powerMw := 0,
    perStep := 0, throttled := false, tripped := false, thermLouvre := 32 }

/-- Power management at reset (R399, R401, R408, R410, R413, R418, R471). -/
def Pwr.reset : Pwr :=
  { packageW := 1200, hostW := 3300, clamped := false, updated := false, heldCap := none, varMode := false,
    repAuto := true, hostHints := true, imageHints := true, repStep := 20, variableActive := false, repStepActive := 20,
    helioStep := 4, deadband := 3, floorW := 30, ceilW := 220, marginW := 40, threshMv := 40, hold := 64,
    throttleC := 100, hystC := 5, droop := 0, capChanges := 0, throttleEntries := 0, louvrePeriods := 0,
    louvreEngaged := false, louvreSeen := false, fixedMw := 0, commonLouvre := 32, rails := [],
    dies := [], sensors := [], alerts := [], stretched := [], hint := none, phaseHeavy := none }

/-! ### Bring-up and the Wicket (15, 17) -/

/-- A Wicket operation (R449): the code, the unit, the argument, and whether it is a severe reaction. -/
structure WktOp where
  op : BitVec 4
  unit : BitVec 16
  arg : BitVec 32
  fw : Bool
deriving DecidableEq, Repr

/-- The Wicket, the harvest maps and the WKT_ registers (R428, R449 to R456). inService lists the slots in service of each
cluster 4d + k; unusable the slots (36d + 9k + n) that are not usable; failed those of DEV_SLOTFAIL; tested the units
whose last TEST passed. -/
structure Wkt where
  cmdOp : BitVec 4
  cmdUnit : BitVec 16
  cmdArg : BitVec 32
  busy : Option WktOp
  waiting : List WktOp
  ignored : Bool
  result : BitVec 4
  lastOp : BitVec 4
  lastUnit : BitVec 16
  durationUs : BitVec 32
  inService : List (Nat × List Nat)
  unusable : List Nat
  failed : List Nat
  steps : List (Nat × Nat)
  dieOut : List Nat
  clusterOut : List Nat
  heldOut : List Nat
  tested : List Nat
  banks : List (Nat × List Nat)
  pcs : List (Nat × List Nat)
  pages : List (Nat × List Nat)
  linksDown : List Nat
  repaired : List Nat
deriving DecidableEq, Repr

/-- No harvest map yet and no operation (R471). -/
def Wkt.reset : Wkt :=
  { cmdOp := 0, cmdUnit := 0, cmdArg := 0, busy := none, waiting := [], ignored := false, result := 0, lastOp := 0,
    lastUnit := 0, durationUs := 0, inService := [], unusable := [], failed := [], steps := [], dieOut := [],
    clusterOut := [], heldOut := [], tested := [], banks := [], pcs := [], pages := [], linksDown := [], repaired := [] }

/-- Bring-up (R423 to R432) and the DEV_ registers (R430, R472, R473, R56). next is the stage that comes next, 7 when all
are complete. -/
structure Boot where
  next : Nat
  romStopped : Bool
  fwRunning : Bool
  noShutters : Bool
  state : BitVec 2
  stage : BitVec 3
  failStage : BitVec 3
  failUnit : BitVec 8
  timeMs : BitVec 16
  fwVersion : BitVec 64
  stackFailed : List Nat
  deterministic : Bool
  writeIgnored : Bool
  fpatomRefused : BitVec 16
  dieIds : List (Nat × BitVec 32)
  islandsOpen : List Nat
  shutterQueue : List Nat
  powered : Bool
deriving DecidableEq, Repr

/-- Bring-up at release of fundamental reset: DEV_BRINGUP 0xFFE0 (R471), no Shutter open. -/
def Boot.reset : Boot :=
  { next := 0, romStopped := false, fwRunning := false, noShutters := false, state := 0, stage := 0, failStage := 7,
    failUnit := 0xFF, timeMs := 0, fwVersion := 0, stackFailed := [], deterministic := false, writeIgnored := false,
    fpatomRefused := 0, dieIds := [], islandsOpen := [], shutterQueue := [], powered := true }

/-! ### The Coelostat pair (17) -/

/-- MIR_STATUS.STATE (R464). -/
inductive MirSt where
  | unpaired | pairing | resync | mirroring | broken | promoted
deriving DecidableEq, Repr

/-- A journal frame sent and not acknowledged (R460), and its offset in the peer's window. -/
structure JFrame where
  fseq : Nat
  offset : Nat
  bytes : Nat
  typ : BitVec 8
  tag : Nat
  payload : JPayload
deriving DecidableEq, Repr

/-- A completion or record that waits for the mirror (R461): released when the peer has acknowledged fseq. -/
structure Hold where
  fseq : Nat
  tag : Nat
  f : Nat
  r : Nat
  c : Option Completion
  writes : List (Nat × Nat × Bytes)
deriving DecidableEq, Repr

/-- The Coelostat side of this device and the MIR_ registers (R457 to R464). binds lists context tag and peer tag. -/
structure Mir where
  winGib : Nat
  syncFail : Bool
  lagMib : Nat
  st : MirSt
  role : Bool
  async : Bool
  overrun : Bool
  binds : List (Nat × Nat)
  pairPkt : Option (Nat × Nat × BitVec 16)
  acked : Nat
  nextSend : Nat
  nextRecv : Nat
  sent : Nat
  received : Nat
  peerWin : Nat
  unacked : List JFrame
  queued : List (BitVec 8 × Nat × JPayload)
  holds : List Hold
  nonce : Bytes
  ephPriv : Nat
  peer : Option HelloBody
  keyOut : Bytes
  keyIn : Bytes
  lanesDown : List Nat
  portUp : Bool
  lanePair : Nat
deriving DecidableEq, Repr

/-- Unpaired; MIR_CFG 0x0001_0010 (R471). -/
def Mir.reset : Mir :=
  { winGib := 16, syncFail := false, lagMib := 256, st := .unpaired, role := false, async := false, overrun := false,
    binds := [], pairPkt := none, acked := 0, nextSend := 0, nextRecv := 0, sent := 0, received := 0, peerWin := 0,
    unacked := [], queued := [], holds := [], nonce := [], ephPriv := 0, peer := none,
    keyOut := [], keyIn := [], lanesDown := [], portUp := true, lanePair := 0 }

/-! ### Outputs, the state, and how a step can stop -/

/-- The requests of CXL.cache that the device sends for a line (R361). -/
inductive D2hOp where
  | rdShared | rdOwn | rdOwnNoData | rdCurr
deriving DecidableEq, Repr

/-- What the part sends out, in order: the model's own record of it (log entry 8). -/
inductive OutMsg where
  | msix (fn : Nat) (vec : Nat) (addr : BitVec 64) (data : BitVec 32)
  | intx (assert : Bool)
  | atsRequest (fn : Nat) (pasid : Nat) (va : Nat) (noWrite : Bool)
  | pageRequest (fn : Nat) (pasid : Nat) (va : Nat) (rd wr : Bool) (prg : Nat)
  | invalidationCompletion (fn : Nat) (itag : BitVec 5)
  | functionReady (fn : Nat)
  | deviceReady
  | ltr (snoop noSnoop : Nat)
  | ioRead (fn : Nat) (pasid : Option Nat) (tag : BitVec 10) (addr : Nat) (len : Nat)
  | ioWrite (fn : Nat) (addr : Nat) (data : Bytes)
  | untranslatedWrite (fn : Nat) (pasid : Nat) (va : Nat) (data : Bytes)
  | retryStatus (fn : Nat)
  | unsupportedRequest (fn : Nat)
  | regValue (fn : Nat) (value : BitVec 64)
  | cxlRead (hpa : Nat) (data : Bytes) (poisoned : Bool)
  | cxlDone (hpa : Nat)
  | backInvalidate (line : Nat) (inval : Bool)
  | d2hRequest (hpa : Nat) (op : D2hOp)
  | d2hEvict (hpa : Nat) (data : Option Bytes)
  | snoopAnswer (hpa : Nat) (data : Option Bytes) (poisoned : Bool)
  | nack (stream : Nat) (line : Nat)
  | doe (ok : Bool) (vendor : BitVec 16) (typ : BitVec 8)
  | spdm (ok : Bool) (code : SpdmCode) (data : Bytes)
  | ide (ok : Bool)
  | tdisp (ok : Bool) (fn : Nat) (st : Tdi) (nonce : Nat)
  | sideband (data : Bytes)
  | hello (b : HelloBody)
  | finish
  | frame (typ : BitVec 8) (tag : Nat) (fseq : Nat) (offset : Nat) (p : JPayload)
  | alv (level : Bool)
deriving DecidableEq, Repr

/-- The whole part: the queue of waiting commands, its units, how many collectives each member of each group has issued (R150, by
collKey), what it has sent, and the count of open values drawn (the
model's own field, log entry 3). -/
structure State where
  pending : List Instr
  cores : List (Nat × Core)
  mem : Memory
  own : List (Nat × BitVec 32)
  fences : List Nat
  regulators : List (Nat × Regulator)
  ctxs : List (Nat × Ctx)
  ctxGens : List (Nat × Nat)
  fw : Ctx
  xlt : Xlt
  coh : Coh
  flt : Flt
  rings : List (Nat × Ring)
  fns : List (Nat × Fn)
  port : Port
  srv : Srv
  finders : List (Nat × Finder)
  joins : List Joined
  issues : List (Nat × Nat)
  exchanges : List ExchangeRec
  sec : Sec
  pwr : Pwr
  wkt : Wkt
  boot : Boot
  mir : Mir
  out : List OutMsg
  fresh : Nat
deriving DecidableEq, Repr

/-- A regulator after reset: RATE 0, BURST 0, CLASS 2 (R190). -/
def Regulator.reset : Regulator :=
  { rate := 0, burst := 0, cls := 2, credit := 0, guaranteed := 0, spare := 0, heldWindows := 0, held := false }

/-- The PF after reset: the one function that is there (R324). -/
def Fn.pf : Fn := { Fn.reset with enabled := true }

/-- The part right at the release of fundamental reset (R423): nothing opened, nothing loaded, every register at the reset
value of its table, no command waiting. -/
def State.reset : State :=
  { pending := [], cores := [], mem := { cells := [], poison := [], scratch := [] }, own := [], fences := [],
    regulators := [], ctxs := [], ctxGens := [], fw := Ctx.none, xlt := Xlt.reset, coh := Coh.reset, flt := Flt.reset,
    rings := [], fns := [(0, Fn.pf)], port := Port.reset, srv := Srv.reset, finders := [], joins := [], issues := [], exchanges := [],
    sec := Sec.reset, pwr := Pwr.reset, wkt := Wkt.reset, boot := Boot.reset, mir := Mir.reset, out := [], fresh := 0 }

/-- The part has no fault of its own: every device error is a value of the state (R83, R92, R296, R435). The one
constructor is never answered; a step that answered it would be safe. -/
inductive Fault where
  | none
deriving DecidableEq, Repr

/-- A refusal. notModelled is answered by an arm of exec whose command has no meaning yet (safe); no meaning answers it. -/
inductive Refusal where
  | notModelled (mnemonic : String)
deriving DecidableEq, Repr

end Sys2Proof.Machine
end

