-- ==== Sys2Proof/Machine/Ops.lean ====
section
/-! DEFINITION. The named operations that every meaning uses: memory and poison, cores and queues, physical addresses, the
ownership check, reports to the fault collector, outputs, semaphores, and taking an exception. -/

namespace Sys2Proof.Machine

/-! ### Physical addresses (R176, R177) -/

/-- TARGET of a physical address. -/
def paTarget (pa : Nat) : Nat := bits pa 51 46

/-- OFFSET of a physical address. -/
def paOffset (pa : Nat) : Nat := bits pa 45 0

/-- The address of offset off in stacked SRAM of die d. -/
def ssramPa (d off : Nat) : Nat := d <<< 46 ||| off

/-- The address of offset off in core SRAM of core g: TARGET 0x10 + d, logical core in [24:20]. -/
def coreSramPa (g off : Nat) : Nat := (0x10 + g / 32) <<< 46 ||| ((g % 32) <<< 20) ||| off

/-- The address of offset off in stack n. -/
def hbmPa (n off : Nat) : Nat := (0x20 + n) <<< 46 ||| off

/-- The key of a byte of host memory (log entry 6). -/
def hostKey (hpa : Nat) : Nat := 2 ^ 64 + hpa

/-- A key that names host memory. -/
def isHostKey (k : Nat) : Bool := decide (2 ^ 64 ≤ k)

/-- The aligned 64 B line of a key. -/
def lineOf (k : Nat) : Nat := k / 64 * 64

/-- The stack of an HBM address, if it is one. -/
def hbmStack (pa : Nat) : Option Nat :=
  if 0x20 ≤ paTarget pa ∧ paTarget pa ≤ 0x2B then some (paTarget pa - 0x20) else none

/-- The first byte of the granule that holds an address: 2 MiB of HBM, 64 KiB of stacked SRAM (R181). -/
def granuleOf (pa : Nat) : Nat :=
  if paTarget pa < 0x10 then pa / 2 ^ 16 * 2 ^ 16 else pa / 2 ^ 21 * 2 ^ 21

/-- The ownership table of a granule's address (R181): the table of its stack's home hub, or of its die. -/
def tableOf (pa : Nat) : Option Nat :=
  match hbmStack pa with
  | some n => some (n / 3)
  | none => if paTarget pa < 0x10 then some (4 + paTarget pa) else none

/-! ### Memory and poison (R66, R192, R194) -/

/-- What a byte that memory does not list reads as: program core SRAM handed over undefined (R94) and an HBM granule whose key
changed under its contents (R188, R195) are open values, everything else is 0 (log entry 6). -/
def Memory.unlisted (m : Memory) (k : Nat) : Byte :=
  if 0x10 ≤ paTarget k && paTarget k ≤ 0x1F && decide (k < 2 ^ 52) && decide (paOffset k < 2 ^ 25) &&
      decide (paOffset k % 2 ^ 20 < 0xF_0000) then
    match mapFind m.scratch ((paTarget k - 0x10) * 32 + paOffset k / 2 ^ 20) with
    | some e => Config.entryByte e (paOffset k % 2 ^ 20)
    | none => 0
  else if decide (2 ^ 51 ≤ k) && decide (k < 2 ^ 52) then
    match mapFind m.lost (k / 2 ^ 21) with
    | some e => Config.entryByte e (k % 2 ^ 21)
    | none => 0
  else 0

/-- The byte at key k. -/
def Memory.byte (m : Memory) (k : Nat) : Byte := (mapFind m.cells k).getD (m.unlisted k)

/-- n bytes from key k, lowest first. -/
def Memory.read (m : Memory) (k n : Nat) : Bytes := (List.range n).map (fun i => m.byte (k + i))

/-- The little-endian number in n bytes from key k. -/
def Memory.nat (m : Memory) (k n : Nat) : Nat := leNat (m.read k n)

/-- Memory with one byte written, in canonical form: a byte equal to what an unlisted one reads as is not listed. -/
def Memory.put (m : Memory) (k : Nat) (v : Byte) : Memory :=
  { m with cells := if v = m.unlisted k then mapDel m.cells k else mapPut m.cells k v }

/-- Memory with the bytes bs written from key k. -/
def Memory.write (m : Memory) (k : Nat) : Bytes → Memory
  | [] => m
  | b :: bs => (m.put k b).write (k + 1) bs

/-- The form that every memory operation keeps: addresses strictly rising, and no entry equal to what an unlisted address
reads as. -/
def Memory.wf (m : Memory) : Bool :=
  keysRise m.cells && m.cells.all (fun c => decide (c.2 ≠ m.unlisted c.1))

/-- A word of [k, k + n) is poisoned. -/
def Memory.poisoned (m : Memory) (k n : Nat) : Bool :=
  decide (n ≠ 0) && m.poison.any (fun w => decide (k / 8 ≤ w) && decide (w ≤ (k + n - 1) / 8))

/-- The first poisoned word of [k, k + n), as a key. -/
def Memory.firstPoison (m : Memory) (k n : Nat) : Nat :=
  ((m.poison.filter (fun w => decide (k / 8 ≤ w) && decide (w ≤ (k + n - 1) / 8))).headD (k / 8)) * 8

/-- The word w lies wholly within [k, k + n). -/
def covers (k n w : Nat) : Bool := decide (k ≤ 8 * w) && decide (8 * w + 8 ≤ k + n)

/-- The store of R194: a poisoned word that is wholly written is replaced and its poison cleared; one that is partly
written stays poisoned and loses the written bytes. -/
def Memory.store (m : Memory) (k : Nat) (bs : Bytes) : Memory :=
  if m.poisoned k bs.length then
    let kept := m.poison.filter (fun w =>
      decide (k / 8 ≤ w) && decide (w ≤ (k + bs.length - 1) / 8) && !covers k bs.length w)
    let bs' := (List.range bs.length).map (fun i =>
      if kept.contains ((k + i) / 8) then m.byte (k + i) else bs.getD i 0)
    { m.write k bs' with poison := m.poison.filter (fun w => !covers k bs.length w) }
  else m.write k bs

/-- A store to [k, k + n) would lose bytes in a poisoned word that it only partly writes (R194). -/
def Memory.losesBytes (m : Memory) (k n : Nat) : Bool :=
  m.poison.any (fun w => decide (n ≠ 0) && decide (k / 8 ≤ w) && decide (w ≤ (k + n - 1) / 8) && !covers k n w)

/-- Memory with every word of the line at k poisoned (R358). -/
def Memory.poisonLine (m : Memory) (k : Nat) : Memory :=
  { m with poison := (List.range 8).foldl (fun p i => setAdd p (k / 8 + i)) m.poison }

/-- Memory with [k, k + n) zeroed and unpoisoned (R188 step 4); a granule with undefined contents that lies within it is defined
again. -/
def Memory.zero (m : Memory) (k n : Nat) : Memory :=
  { cells := m.cells.filter (fun c => decide (c.1 < k) || decide (k + n ≤ c.1)),
    poison := m.poison.filter (fun w => decide (8 * w < k) || decide (k + n ≤ 8 * w)),
    scratch := m.scratch,
    lost := m.lost.filter (fun x => decide (x.1 * 2 ^ 21 < k) || decide (k + n < x.1 * 2 ^ 21 + 2 ^ 21)) }

/-- The granule of HBM at k holds open values (R188, R195): its key changed under what it holds. -/
def Memory.loseGranule (m : Memory) (k d : Nat) : Memory :=
  { cells := m.cells.filter (fun c => decide (c.1 < k) || decide (k + 2 ^ 21 ≤ c.1)), poison := m.poison,
    scratch := m.scratch, lost := mapPut m.lost (k / 2 ^ 21) d }

/-! ### Cores, queues, contexts -/

/-- Core g. -/
def State.core (s : State) (g : Nat) : Core := mapGet Core.reset s.cores g

/-- The state with core g replaced. -/
def State.setCore (s : State) (g : Nat) (c : Core) : State := { s with cores := mapSet Core.reset s.cores g c }

/-- The state with core g changed by f. -/
def State.modCore (s : State) (g : Nat) (f : Core → Core) : State := s.setCore g (f (s.core g))

/-- Register r; x0 reads 0. -/
def Core.reg (c : Core) (r : Reg) : Word := if r = 0 then 0 else mapGet 0 c.x r.toNat

/-- The core with register r written; x0 discards the write. -/
def Core.setReg (c : Core) (r : Reg) (v : Word) : Core := if r = 0 then c else { c with x := mapSet 0 c.x r.toNat v }

/-- Queue q: 0 matrix, 1 vector, 2 and 3 the DMA channels. -/
def Core.queue (c : Core) (q : Nat) : Queue := mapGet Queue.reset c.queues q

/-- The core with queue q replaced. -/
def Core.setQueue (c : Core) (q : Nat) (x : Queue) : Core := { c with queues := mapSet Queue.reset c.queues q x }

/-- The commands of a queue, in order. -/
def Queue.cmds (q : Queue) : List EngCmd :=
  q.items.filterMap (fun i => match i with | .cmd c => some c | .marker _ => none)

/-- Semaphore n. -/
def Core.sem (c : Core) (n : Nat) : Nat := mapGet 0 c.sems n

/-- The core with semaphore n holding v. -/
def Core.setSem (c : Core) (n v : Nat) : Core := { c with sems := mapSet 0 c.sems n v }

/-- Codebook slot 0 (R34). -/
def slot0 : Bytes := [0, 8, 16, 24, 32, 48, 64, 96, 0, 0xF8, 0xF0, 0xE8, 0xE0, 0xD0, 0xC0, 0xA0]

/-- Codebook slot i of a core; a slot never loaded holds slot 0 (R35). -/
def Core.slot (c : Core) (i : Nat) : Bytes := mapGet slot0 c.cb i

/-- The context of a tag. -/
def State.ctx (s : State) (tag : Nat) : Ctx := mapGet Ctx.none s.ctxs tag

/-- The state with a context replaced. -/
def State.setCtx (s : State) (tag : Nat) (c : Ctx) : State := { s with ctxs := mapSet Ctx.none s.ctxs tag c }

/-- Function f. -/
def State.fn (s : State) (f : Nat) : Fn := mapGet Fn.reset s.fns f

/-- The state with function f replaced. -/
def State.setFn (s : State) (f : Nat) (x : Fn) : State := { s with fns := mapSet Fn.reset s.fns f x }

/-- Ring pair r of function f. -/
def State.ring (s : State) (f r : Nat) : Ring := mapGet Ring.reset s.rings (64 * f + r)

/-- The state with ring pair r of function f replaced. -/
def State.setRing (s : State) (f r : Nat) (x : Ring) : State :=
  { s with rings := mapSet Ring.reset s.rings (64 * f + r) x }

/-- The die power record. -/
def State.diePwr (s : State) (d : Nat) : DiePwr := mapGet DiePwr.reset s.pwr.dies d

/-- The state with something sent. -/
def State.send (s : State) (m : OutMsg) : State := { s with out := s.out ++ [m] }

/-- The n-th open value (log entry 3) and the state that has drawn it. -/
def State.draw (s : State) : Nat × State := (Config.free s.fresh, { s with fresh := s.fresh + 1 })

/-- k random bytes drawn from one open value (R272, R380, R394). -/
def State.drawBytes (s : State) (k : Nat) : Bytes × State := (natLe s.draw.1 k, s.draw.2)

/-! ### Which units serve (R5, R428, R429, R449) -/

/-- The slots of cluster 4d + k in service, ascending. -/
def State.slots (s : State) (cl : Nat) : List Nat := mapGet [] s.wkt.inService cl

/-- The Shutter of an island is open (R419): islands 0 to 63 are the clusters CDd.Kk at 4d + k, 64 to 79 the islands CDd.S, 80 on
the islands P, H, M, D and S of the hubs at 80 + 5h. -/
def State.open (s : State) (island : Nat) : Bool := s.boot.islandsOpen.contains island

/-- Die d is in service: it answers and takes part in the scheduler (R429). -/
def State.dieUp (s : State) (d : Nat) : Bool :=
  !s.wkt.dieOut.contains d && s.open (64 + d) && (List.range 4).all (fun k => (s.slots (4 * d + k)).length = 8)

/-- Cluster cl is powered and has its eight slots. -/
def State.clusterUp (s : State) (cl : Nat) : Bool :=
  !s.wkt.dieOut.contains (cl / 4) && !s.wkt.clusterOut.contains cl && s.open (64 + cl / 4) && s.open cl && decide ((s.slots cl).length = 8)

/-- Die d takes part in step plans: it is in service with four clusters (R449) and not released to a program (R259). -/
def State.dieSched (s : State) (d : Nat) : Bool :=
  s.dieUp d && (List.range 4).all (fun k => s.clusterUp (4 * d + k)) && !s.srv.released.contains d

/-- Core g is defined and in service (R5). -/
def State.coreUp (s : State) (g : Nat) : Bool := s.clusterUp (g / 8)

/-- The global numbers of the cores in service, ascending. -/
def State.coresUp (s : State) : List Nat :=
  (List.range 512).filter s.coreUp

/-- The physical slot of core g (R5): the c-th in-service slot of its cluster. -/
def State.slotOf (s : State) (g : Nat) : Nat := (s.slots (g / 8)).getD (g % 8) (g % 8)

/-- The sequencer of core g issues its next instruction: the core serves, firmware does not hold it, nothing is waited
for. -/
def State.canIssue (s : State) (g : Nat) : Bool :=
  s.coreUp g && !(s.core g).parked && decide ((s.core g).wait = .none)

/-- A target answers (R179): stacked and core SRAM of a die in service, a stack that trained and has power, everything else
always. -/
def State.answers (s : State) (k : Nat) : Bool :=
  if isHostKey k then true
  else if paTarget k < 0x10 then !s.wkt.dieOut.contains (paTarget k) && s.open (64 + paTarget k)
  else if paTarget k < 0x20 then s.coreUp ((paTarget k - 0x10) * 32 + bits (paOffset k) 24 20)
  else if paTarget k = 0x3F then s.mir.portUp
  else (hbmStack k).all (fun n => !s.boot.stackFailed.contains n)

/-! ### Units of fault records (R441) and reports to the collector (R433) -/

/-- Core slot n of cluster CDd.Kk. -/
def unitSlot (d k n : Nat) : BitVec 16 := BitVec.ofNat 16 (0x1000 + d * 64 + k * 16 + n)

/-- The physical slot of core g. -/
def State.unitCore (s : State) (g : Nat) : BitVec 16 := unitSlot (g / 32) (g / 8 % 4) (s.slotOf g)

/-- Cluster CDd.Kk. -/
def unitCluster (d k : Nat) : BitVec 16 := BitVec.ofNat 16 (0x2000 + d * 4 + k)

/-- Compute die d. -/
def unitDie (d : Nat) : BitVec 16 := BitVec.ofNat 16 (0x3000 + d)

/-- Stacked-SRAM bank. -/
def unitBank (d b : Nat) : BitVec 16 := BitVec.ofNat 16 (0x4000 + d * 64 + b)

/-- Hub island i (0 P, 1 H, 2 M, 3 D, 4 S) of HBh. -/
def unitHub (i h : Nat) : BitVec 16 := BitVec.ofNat 16 (0x5000 + i * 16 + h)

/-- HBM pseudo-channel. -/
def unitPc (n pc : Nat) : BitVec 16 := BitVec.ofNat 16 (0x6000 + n * 64 + pc)

/-- Link. -/
def unitLink (i : Nat) : BitVec 16 := BitVec.ofNat 16 (0x7000 + i)

/-- Host port, mirror port, none. -/
def unitHost : BitVec 16 := 0x8000
def unitMirror : BitVec 16 := 0x9000
def unitNone : BitVec 16 := 0

/-- Island by its number. -/
def unitIsland (i : Nat) : BitVec 16 := BitVec.ofNat 16 (0xA000 + i)

/-- The collector port that carries the events of a unit (R433): the quadrant of its die, hub, stack or link; port 0 for
the host port and for no unit, port 3 for the mirror port. A hub-to-hub link reports through its lower hub (log entry 9). -/
def portOf (u : BitVec 16) : Nat :=
  let x := bits u.toNat 11 0
  match bits u.toNat 15 12 with
  | 1 => x / 64 / 4
  | 2 => x / 4 / 4
  | 3 => x / 4
  | 4 => x / 64 / 4
  | 5 => x % 4
  | 6 => x / 64 / 3
  | 7 => if x < 16 then x / 4 else if x < 32 then (x - 16) / 4 else if x < 35 then 0 else if x < 37 then 1 else 2
  | 9 => 3
  | 10 => if x < 64 then x / 16 else if x < 80 then (x - 64) / 4 else (x - 80) / 5
  | _ => 0

/-- The agent of port p takes an event (R433): its queue holds 64; beyond that the event is counted in the pending counter
of its source, saturating at 65,535. -/
def FltAgent.take (a : FltAgent) (e : FaultEvent) : FltAgent :=
  if a.queue.length < 64 then { a with queue := a.queue ++ [e] }
  else
    match mapFind a.pending e.src.val with
    | some p => { a with pending := mapPut a.pending e.src.val { p with events := satAdd 65535 p.events e.events } }
    | none => { a with pending := mapPut a.pending e.src.val e }

/-- An event is reported: its quadrant agent takes it. -/
def State.report (s : State) (e : FaultEvent) : State :=
  let a := mapGet { queue := [], pending := [] } s.flt.agents (portOf e.unit)
  { s with flt := { s.flt with agents := mapPut s.flt.agents (portOf e.unit) (a.take e) } }

/-- The event of source src (R434). -/
def event (src : Fin 32) (unit : BitVec 16) (detail : Nat) (ctx : Option Nat := none) : FaultEvent :=
  { src := src, unit := unit, detail := BitVec.ofNat 64 detail, ctx := ctx.map (BitVec.ofNat 12) }

/-- The unit whose memory a key names, for CE and UE reports (R434): core slot, SRAM bank (R169), pseudo-channel, or hub island H
of HB0 for the device cache. -/
def State.unitOfKey (s : State) (k : Nat) : BitVec 16 :=
  if isHostKey k then unitHub 1 0
  else if paTarget k < 0x10 then unitBank (paTarget k) (bits k 11 6)
  else if paTarget k < 0x20 then s.unitCore ((paTarget k - 0x10) * 32 + bits (paOffset k) 24 20)
  else match hbmStack k with
    | some n => unitPc n ((bits k 13 8) ^^^ (bits k 19 14))
    | none => unitNone

/-- The source that records an uncorrected error found at a key (R434): 1 core SRAM, 3 stacked SRAM, 7 HBM; 5, a shared-cache data
line, for a line of host memory, which only the device cache holds (log entry 109). -/
def ueSource (k : Nat) : Fin 32 :=
  if isHostKey k then 5 else if paTarget k < 0x10 then 3 else if paTarget k < 0x20 then 1 else 7

/-- The source that records a corrected word at a key (R434): 0 core SRAM, 2 stacked SRAM, 6 HBM, 4 the device cache. -/
def ceSource (k : Nat) : Fin 32 :=
  if isHostKey k then 4 else if paTarget k < 0x10 then 2 else if paTarget k < 0x20 then 0 else 6

/-! ### The ownership check (R179, R184, R185) -/

/-- Bytes of the HDM carve (R364). -/
def Coh.carveBytes (c : Coh) : Nat := (c.cohGib.toNat + c.bulkGib.toNat) * 2 ^ 30

/-- Carve offset o lies in the coherent window (R364). -/
def Coh.coherent (c : Coh) (o : Nat) : Bool := decide (o < c.cohGib.toNat * 2 ^ 30)

/-- The carve offset that a physical address has, if it lies in the carve (the inverse of R365). -/
def Coh.carveOff (c : Coh) (pa : Nat) : Option Nat :=
  match hbmStack pa with
  | none => none
  | some n =>
    let up := (2 ^ 36 - 1 - paOffset pa % 2 ^ 36) / 2 ^ 21
    let o := (12 * up + n) * 2 ^ 21 + paOffset pa % 2 ^ 21
    if o < c.carveBytes then some o else none

/-- What an ownership entry that is not listed holds: firmware sets carve granules to MODE 5 (R365), the others read MODE 0
(R183). -/
def State.ownDefault (s : State) (pa : Nat) : BitVec 32 :=
  if s.boot.fwRunning && (s.coh.carveOff pa).isSome then 0x5000 else 0

/-- The ownership entry of the granule that holds an address. -/
def State.entryOf (s : State) (pa : Nat) : BitVec 32 := mapGet (s.ownDefault pa) s.own (granuleOf pa)

/-- MODE of an entry as it acts (R185): 6 and 7 act as 0, and in stacked SRAM 4 and 5 act as 0. -/
def modeOf (e : BitVec 32) (ssram : Bool) : Nat :=
  let m := bits e.toNat 14 12
  if 6 ≤ m then 0 else if ssram && decide (4 ≤ m) then 0 else m

/-- A granule's entry grants a request (R182, R185). host is the host indicator, fw the firmware indicator. -/
def grants (e : BitVec 32) (ssram : Bool) (fw host : Bool) (tag : Nat) (write : Bool) : Bool :=
  if bit e.toNat 22 then false
  else if fw then true
  else
    let m := modeOf e ssram
    if host then m = 4 || m = 5
    else if m = 0 then false
    else if m = 1 || m = 4 then bits e.toNat 11 0 = tag
    else if m = 2 then !write
    else true

/-- A request passes the checks of R179 and R184 at its target. -/
def State.allowed (s : State) (pa : Nat) (fw host : Bool) (tag : Nat) (write : Bool) : Bool :=
  let t := paTarget pa
  let o := paOffset pa
  if t < 0x10 then decide (o < 0x300_0000) && !host && grants (s.entryOf pa) true fw host tag write
  else if t < 0x20 then
    decide (o < 2 ^ 25) && !host &&
      (fw || (decide (o % 2 ^ 20 < 0xF_0000) &&
        decide ((s.core ((t - 0x10) * 32 + o / 2 ^ 20)).residentTag = tag)))
  else if t < 0x2C then decide (o < 2 ^ 36) && grants (s.entryOf pa) false fw host tag write
  else if 0x30 ≤ t && t ≤ 0x33 then fw && decide (o < 2 ^ 28)
  else if t = 0x3F then fw && write && decide (o < 2 ^ 36)
  else false

/-- A refusal is recorded (R186, R434): a security-violation fault with the unit and the context it names. A request with the
firmware indicator names no context; its firmware fault is the same source (log entry 10). -/
def State.refusal (s : State) (unit : BitVec 16) (k : Nat) (fw : Bool) (tag : Option Nat) : State :=
  s.report (event 27 unit (k / 8 * 8) (if fw then none else tag))

/-! ### Reservations (R213) -/

/-- Every reservation on the line is lost, except core g's own (g = 512: none is spared). -/
def State.loseResv (s : State) (line g : Nat) : State :=
  let f := fun (p : Nat × Core) => if p.1 ≠ g && decide (p.2.resv = some line) then (p.1, { p.2 with resv := none }) else p
  { s with cores := s.cores.map f }

/-! ### Counters and the instruction cache (R61, R70, R74) -/

/-- A performance counter of core g rises by one unless inhibited (R74). -/
def Core.count (c : Core) (i : Nat) : Core :=
  if bit c.mcountinhibit.toNat i then c else { c with hpm := mapSet 0 c.hpm i (mapGet 0 c.hpm i + 1) }

/-- The line that the sequencer fetches from: 8,192 times its number, plus the context tag it carries, 4,096 for firmware. -/
def Core.fetchLine (c : Core) : Nat := (if c.machineMode then 4096 else bits c.wctx.toNat 11 0) + 8192 * (c.pc.toNat / 64)

/-- The instruction cache of 64 sets of 4 ways with a line filled (R61). Which line of a full set gives way is an open value: the
spec names no replacement (log entry 108). -/
def icacheFill (l : List Nat) (x : Nat) : List Nat :=
  let set := l.filter (fun y => decide (y / 8192 % 64 = x / 8192 % 64))
  if set.length < 4 then l ++ [x]
  else l.filter (· ≠ set.getD (Config.unstated 61 (set.foldl (fun a y => a * 2 ^ 77 + y) x) % 4) 0) ++ [x]

/-- The instruction at pc is fetched (R61, R70): a line that the instruction cache does not hold is filled, and the miss counted. -/
def Core.fetched (c : Core) : Core :=
  if c.icache.contains c.fetchLine then c else { c with icache := icacheFill c.icache c.fetchLine }.count 9

/-! ### Taking an exception and returning from it (R92, R93) -/

/-- mstatus at trap entry: MPIE takes MIE, MIE clears, MPP takes the mode (RISC-V Privileged 1.12). -/
def trapStatus (st : Word) (machine : Bool) : Word :=
  let n := st.toNat
  let n := putBits n 7 7 (b2n (bit n 3))
  let n := putBits n 3 3 0
  BitVec.ofNat 64 (putBits n 12 11 (if machine then 3 else 0))

/-- mstatus after a return: MIE takes MPIE, MPIE is 1, MPP is user; MPRV clears unless the return is to machine mode. -/
def returnStatus (st : Word) : Word :=
  let n := st.toNat
  let m := bits n 12 11
  let n := putBits n 3 3 (b2n (bit n 7))
  let n := putBits n 7 7 1
  let n := putBits n 12 11 0
  BitVec.ofNat 64 (if m = 3 then n else putBits n 17 17 0)

/-- Where a trap goes: the base of mtvec, or in vectored mode base + 4 × cause for an interrupt. -/
def trapPc (tvec : Word) (intr : Bool) (cause : Nat) : Word :=
  BitVec.ofNat 64 (tvec.toNat / 256 * 256 + (if intr && bit tvec.toNat 0 then 4 * cause else 0))

/-- A trap is taken: mepc, mcause, mtval and mstatus are written, the core enters machine mode at its handler, and the
reservation is lost (R213). A wait the trap breaks off has consumed nothing (R86, R209). -/
def Core.trap (c : Core) (intr : Bool) (cause : Nat) (epc tval : Word) : Core :=
  { c with mepc := epc, mcause := BitVec.ofNat 64 (cause + if intr then 2 ^ 63 else 0), mtval := tval,
           mstatus := trapStatus c.mstatus c.machineMode, machineMode := true, pc := trapPc c.mtvec intr cause,
           resv := none, wait := .none, semWaits := c.semWaits.filter (fun w => w.2 ≠ 0) }

/-- A return from a trap: the mode of MPP, mstatus restored, pc at mepc. -/
def Core.trapReturn (c : Core) : Core :=
  { c with machineMode := decide (bits c.mstatus.toNat 12 11 = 3), mstatus := returnStatus c.mstatus, pc := c.mepc }

/-- The raw program that holds core g and is still running. -/
def State.programOf (s : State) (g : Nat) : Option Program :=
  s.srv.programs.find? (fun p => p.started && decide (p.ending = .running) &&
    p.cores.any (fun c => decide (c.g = g) && !c.exited))

/-- A raw program that has started holds core g until it has ended, whether or not its part has called EXIT (R26, R96). -/
def State.heldByProgram (s : State) (g : Nat) : Bool :=
  s.srv.programs.any (fun p => p.started && p.cores.any (fun c => c.g = g))

/-- The raw program that holds core g ends FAULTED or ABORTED (R96). -/
def State.endingOn (s : State) (g : Nat) : Bool :=
  s.srv.programs.any (fun p => p.started && (decide (p.ending = .faulted) || decide (p.ending = .aborted)) &&
    p.cores.any (fun c => c.g = g))

/-- A waiter is channel c of core g, for queue q = 2 + c. -/
def chanWaits (g q : Nat) (w : Waiter) : Bool :=
  match w with
  | .chan g' c => decide (g'.val = g) && decide (q = 2 + c.val)
  | _ => false

/-- A member that has joined a collective and whose descriptor has not ended. -/
def Joined.isOpen (j : Joined) : Bool := decide (j.phase = .waiting) || decide (j.phase = .running)

/-- The descriptor of j is one of queue q of core g. -/
def Joined.onQueue (j : Joined) (g q : Nat) : Bool := decide (j.g = g) && decide (q = 2 + j.chan)

/-- Waits, reads and open parts in collectives of a DMA channel end with its command. -/
def State.quietChan (s : State) (g q : Nat) : State :=
  { s with joins := s.joins.filter (fun j => !(j.isOpen && j.onQueue g q)),
           xlt := { s.xlt with waits := s.xlt.waits.filter (fun w => !chanWaits g q w.who) },
           port := { s.port with ioReads := s.port.ioReads.filter (fun r => !chanWaits g q r.who || decide (r.ended = none)) } }

/-- The started descriptor of a channel waits on a page request (R237) or for the members of a collective. -/
def State.chanHeld (s : State) (g q : Nat) : Bool :=
  s.xlt.waits.any (fun w => chanWaits g q w.who && decide (w.phase ≠ .ats) && decide (w.phase ≠ .failed)) ||
    s.joins.any (fun j => j.isOpen && j.onQueue g q)

/-- A started descriptor of an ending program ends with what it has written (R96): its command, waits and part in a collective
are gone. -/
def State.stopChan (s : State) (g q : Nat) : State :=
  (s.quietChan g q).modCore g (fun c => c.setQueue q { c.queue q with items := [] })

/-- Firmware begins to end a program (R96): every sequencer of the set stops, commands that have not started are discarded
without waiting or signalling, and started ones go on. -/
def quietCore (c : Core) : Core :=
  let keep (i : QItem) : Bool := match i with
    | .cmd x => decide (x.phase = .started) || decide (x.phase = .released) || decide (x.phase = .finished)
    | .marker _ => false
  { c with machineMode := true, parked := true, wait := .none, semWaits := [], barriers := [],
           queues := c.queues.map (fun p => (p.1, { p.2 with items := p.2.items.filter keep })) }

/-- The program p begins to end (R96), with the fault to report; a started descriptor that waits on a page request or for the members
of a collective ends at once, at its next tile. -/
def State.endProgram (s : State) (p : Program) (e : ProgEnd) (fault : Option (Nat × Nat × Nat × Word × Word)) : State :=
  let srv := { s.srv with programs := s.srv.programs.map (fun x =>
    if x.f = p.f && x.r = p.r && x.q = p.q && decide (x.ending = .running) then
      { x with ending := e, fault := fault } else x) }
  let s := { s with srv := srv }
  if p.started then
    p.cores.foldl (fun s c =>
      [2, 3].foldl (fun s q => if s.chanHeld c.g q then s.stopChan c.g q else s) (s.modCore c.g quietCore)) s
  else s

/-- A fault of core g ends its raw program FAULTED (R96): queue and code of wengerr, or 0xFF and 0 for a sequencer. -/
def State.programFault (s : State) (g queue code : Nat) (cause tval : Word) : State :=
  match s.programOf g with
  | some p => s.endProgram p .faulted (some (g, queue, code, cause, tval))
  | none => s

/-- A synchronous exception is taken by core g (R92), with epc the pc of the instruction unless given. It is reported as
source 25 (R434), and in user mode it ends a raw program (R96). A core that firmware holds takes none (R96). -/
def State.exceptAt (s : State) (g cause : Nat) (epc tval : Word) : State :=
  let c := s.core g
  if c.parked then s else
  let s' := s.setCore g (c.trap false cause epc tval)
  let s' := s'.report (event 25 (s.unitCore g) cause (if c.machineMode then none else some (bits c.wctx.toNat 11 0)))
  if c.machineMode then s' else s'.programFault g 0xFF 0 (BitVec.ofNat 64 cause) tval

/-- The exception of the instruction at pc, which was fetched. -/
def State.except (s : State) (g cause : Nat) (tval : Word) : State :=
  (s.modCore g Core.fetched).exceptAt g cause (s.core g).pc tval

/-! ### Retiring an instruction -/

/-- The instruction retires: its line was fetched, pc advances by its length and minstret counts it unless inhibited (R73). -/
def Core.retire (c : Core) (len : Nat) : Core :=
  { c.fetched with pc := c.pc + BitVec.ofNat 64 len,
                   minstret := if bit c.mcountinhibit.toNat 2 then c.minstret else c.minstret + 1 }

/-- The instruction retires with v in rd. -/
def Core.finish (c : Core) (rd : Reg) (v : Word) (len : Nat) : Core := (c.setReg rd v).retire len

/-! ### Semaphores (R85 to R88) -/

/-- A signal of k to semaphore n: saturating at 65,535, where the wsemovf bit is set (R87). -/
def Core.signal (c : Core) (n k : Nat) : Core :=
  if c.sem n + k ≤ 65535 then c.setSem n (c.sem n + k)
  else { c.setSem n 65535 with wsemovf := c.wsemovf ||| (1 <<< n) }

/-- The signal of core g's semaphore n by k; saturation raises interrupt 17 (R87) and ends a raw program (R96). -/
def State.signal (s : State) (g n k : Nat) : State :=
  let s' := s.modCore g (fun c => c.signal n k)
  if (s.core g).sem n + k ≤ 65535 then s'
  else s'.programFault g 0xFF 0 (BitVec.ofNat 64 (2 ^ 63 + 17)) 0

/-- Waiter who (0 the sequencer, 1 + q queue q) is first in line on semaphore n (R85). -/
def Core.firstWaiter (c : Core) (n who : Nat) : Bool :=
  decide ((c.semWaits.find? (fun w => w.1 = n)).map (·.2) = some who)

/-! ### Engine halts (R83) -/

/-- Queue q halts on command ticket with an error code: HALTED is set, the first halt is recorded. -/
def Core.halt (c : Core) (q code : Nat) (ticket : BitVec 32) : Core :=
  let n := c.wengerr.toNat
  let n := n ||| (1 <<< q)
  let n := if bit n 19 then n else
    putBits (putBits (putBits (putBits n 15 8 code) 18 16 q) 19 19 1) 63 32 ticket.toNat
  { c with wengerr := BitVec.ofNat 64 n }

/-- Queue q is halted (R84). -/
def Core.halted (c : Core) (q : Nat) : Bool := bit c.wengerr.toNat q

/-- An engine of core g cannot carry out the command of a queue (R83): the queue halts and a raw program ends (R96). -/
def State.halt (s : State) (g q code : Nat) (ticket : BitVec 32) : State :=
  (s.modCore g (fun c => c.halt q code ticket)).programFault g q code (BitVec.ofNat 64 (2 ^ 63 + 16)) 0

end Sys2Proof.Machine
end

