-- ==== Sys2Proof/Machine/Access.lean ====
section
/-! DEFINITION. From a device pointer to the bytes it names: the pointer rules and rights (R222 to R227), the translation
caches (R228, R229), waiting for a translation (R232 to R236), the readiness of a line under coherence (R353, R354, R361),
and the reads and writes that engines and firmware make. -/

namespace Sys2Proof.Machine

/-! ### Pointer rules and rights (R222, R223, R226) -/

/-- What an access does. -/
inductive Kind where
  | read | write | atomic
deriving DecidableEq, Repr

/-- The access needs the read right (R226). -/
def Kind.reads : Kind → Bool
  | .write => false
  | _ => true

/-- The access needs the write right. -/
def Kind.writes : Kind → Bool
  | .read => false
  | _ => true

/-- The space code of a device pointer. -/
def space (p : Nat) : Nat := bits p 63 60

/-- The bits below the space code. -/
def spaceOff (p : Nat) : Nat := bits p 59 0

/-- The context whose rights an access carries: the firmware context with the firmware indicator (R68). -/
def State.rights (s : State) (fw : Bool) (tag : Nat) : Ctx := if fw then s.fw else s.ctx tag

/-- The range [ptr, ptr + len) is named lawfully and its context may make the access, as far as the check before
translation goes (R222, R223, R226). -/
def State.mayName (s : State) (fw : Bool) (tag : Nat) (ptr len : Nat) (k : Kind) : Bool :=
  let c := s.rights fw tag
  let o := spaceOff ptr
  match space ptr with
  | 0 => (fw || c.valid) && c.hostEn && decide (o + len ≤ (if c.sv57 then 2 ^ 56 else 2 ^ 47))
  | 1 => (fw || c.valid) && decide (c.hdmOff ≤ o) && decide (o + len ≤ c.hdmOff + c.hdmBytes) && decide (o + len ≤ 2 ^ 38) &&
      (!k.writes || c.hdmWr)
  | 2 => (fw || c.valid) && decide (o + len ≤ c.arenaBytes) && decide (o + len ≤ 2 ^ 39) &&
      (!k.writes || decide (c.arenaRoBytes ≤ o))
  | 3 => decide (o + len ≤ 0x300_0000)
  | 4 => decide (o + len ≤ if fw then 0x10_0000 else 0xF_0000)
  | _ => false

/-- The physical address of carve offset o (R365): granule i lies in stack i mod 12, downward from the top. -/
def carvePa (o : Nat) : Nat :=
  let i := o / 2 ^ 21
  hbmPa (i % 12) (2 ^ 36 - 2 ^ 21 * (i / 12 + 1) + o % 2 ^ 21)

/-- The carve offset that a host physical address has through a committed decoder (R366). -/
def Coh.hdmOff (c : Coh) (hpa : Nat) : Option Nat :=
  if c.dec0.committed && decide (c.dec0.base ≤ hpa) && decide (hpa < c.dec0.base + c.dec0.size) then
    some (hpa - c.dec0.base)
  else if c.dec1.committed && decide (c.dec1.base ≤ hpa) && decide (hpa < c.dec1.base + c.dec1.size) then
    some (c.cohGib.toNat * 2 ^ 30 + (hpa - c.dec1.base))
  else none

/-- The physical address of a pointer of spaces 0x1 to 0x4 (R222, R178). -/
def State.physOf (s : State) (g : Nat) (fw : Bool) (tag : Nat) (ptr : Nat) : Nat :=
  let o := spaceOff ptr
  match space ptr with
  | 1 => carvePa o
  | 2 => mapGet 0 (s.rights fw tag).arena (o / 2 ^ 21) + o % 2 ^ 21
  | 3 => ssramPa (g / 32) o
  | _ => coreSramPa g o

/-- A firmware pointer that is device-strict (R214): its target is control space, or its granule is marked. A range is so where a
byte of it is: strictRange. -/
def State.strict (s : State) (g : Nat) (fw : Bool) (tag : Nat) (ptr : Nat) : Bool :=
  decide (space ptr ≠ 0) && fw &&
    ((decide (0x30 ≤ paTarget (s.physOf g fw tag ptr)) && decide (paTarget (s.physOf g fw tag ptr) ≤ 0x33)) ||
      (decide (space ptr = 2) && s.fw.strict.contains (spaceOff ptr / 2 ^ 21)))

/-- A byte of [ptr, ptr + len) is device-strict (R214). -/
def State.strictRange (s : State) (g : Nat) (fw : Bool) (tag : Nat) (ptr len : Nat) : Bool :=
  s.strict g fw tag ptr || s.strict g fw tag (ptr + len - 1)

/-! ### Translation caches (R228, R229) -/

/-- Bytes of a page size (R229). -/
def pageBytes : PageSize → Nat
  | .k4 => 2 ^ 12
  | .m2 => 2 ^ 21
  | .g1 => 2 ^ 30
  | .g512 => 2 ^ 39

/-- PASID number that stands for a function address, which carries none (R279). -/
def noPasid : Nat := 2 ^ 20

/-- An entry translates va of a PASID. -/
def XEntry.hits (e : XEntry) (fn pasid va : Nat) : Bool :=
  decide (e.fn = fn) && decide (e.pasid = pasid) && decide (e.va ≤ va) && decide (va < e.va + pageBytes e.size)

/-- An entry gives the rights an access needs (R226). -/
def XEntry.usable (e : XEntry) (rd wr : Bool) : Bool := (!rd || e.rd) && (!wr || e.wr)

/-- The host physical address an entry gives. -/
def XEntry.at (e : XEntry) (va : Nat) : Nat := e.hpa + (va - e.va)

/-- Entries of an L1 (R228): 32 for a sequencer, 64 for a DMA channel. Unit 3g is the sequencer, 3g + 1 + c channel c. -/
def l1Size (unit : Nat) : Nat := if unit % 3 = 0 then 32 else 64

/-- The list with an entry moved or put first, within a size: least recently used last (R228). -/
def lruPut (l : List XEntry) (e : XEntry) (size : Nat) : List XEntry := (e :: l.filter (· ≠ e)).take size

/-- The set of an entry among the 8,192 of an L2 (R228): its page number modulo their number (DESIGN CHOICE, log entry 107). -/
def XEntry.set (e : XEntry) : Nat := e.va / pageBytes e.size % 8192

/-- An L2 of 65,536 entries in 8 ways with an entry moved or put first (R228): the least recently used of a full set goes. -/
def l2Put (l : List XEntry) (e : XEntry) : List XEntry :=
  let l := l.filter (· ≠ e)
  let same := l.filter (fun x => decide (x.set = e.set))
  e :: (match same[7]? with
    | some v => l.filter (· ≠ v)
    | none => l)

/-- Function number under which an L1 holds the pages of the firmware context, which no invalidation names. -/
def fwFn : Nat := 64

/-- The translation of va that the caches hold for a unit (none: a requester without an L1), and the caches after the
lookup: an L2 hit fills the L1, and hits and misses of the hub's L2 are counted (R228, R317). -/
def Xlt.lookup (x : Xlt) (unit : Option Nat) (hub fn pasid va : Nat) : Option XEntry × Xlt :=
  let l1 := match unit with | some u => mapGet [] x.l1 u | none => []
  match l1.find? (·.hits fn pasid va) with
  | some e => (some e, { x with l1 := match unit with
      | some u => mapPut x.l1 u (lruPut l1 e (l1Size u))
      | none => x.l1 })
  | none =>
    match (mapGet [] x.l2 hub).find? (·.hits fn pasid va) with
    | some e =>
      let x := { x with l2 := mapPut x.l2 hub (l2Put (mapGet [] x.l2 hub) e),
                        hits := mapPut x.hits hub (mapGet 0 x.hits hub + 1) }
      (some e, match unit with
        | some u => { x with l1 := mapPut x.l1 u (lruPut l1 e (l1Size u)) }
        | none => x)
    | none => (none, { x with misses := mapPut x.misses hub (mapGet 0 x.misses hub + 1) })

/-- The translation of va that the caches hold, changing nothing. -/
def Xlt.peek (x : Xlt) (unit : Option Nat) (hub fn pasid va : Nat) : Option XEntry := (x.lookup unit hub fn pasid va).1

/-! ### Waiting for a translation (R230, R232 to R236) -/

/-- The device may issue requests for a function now: it is enabled, a bus master, in D0 and not quiescing, and the port
passes them (R334, R338, R339, R344). A VF follows its PF's power state. -/
def State.sends (s : State) (f : Nat) : Bool :=
  (s.fn f).enabled && (s.fn f).bme && !(s.fn 0).d3hot && !(s.fn f).quiescing && !s.port.frozen && s.port.linkUp

/-- A fault of the function fails at once (R235): ATS or PRI disabled, an allocation of 0, or Response Failure seen. -/
def Fn.noPri (x : Fn) : Bool := !x.atsEnable || !x.priEnable || decide (x.priAlloc = 0) || x.respFailure

/-- A translation request is sent unless one for the page is outstanding or a limit is reached (R230). noWrite: only reads need
the page. -/
def State.askAts (s : State) (hub fn pasid va : Nat) (noWrite : Bool) : State :=
  let page := va / 2 ^ 12 * 2 ^ 12
  let one (nw : Bool) : AtsReq := { hub := hub, fn := fn, pasid := pasid, va := page, noWrite := nw, stale := false, units := [] }
  if s.xlt.ats.any (fun a => a.hub = hub && a.fn = fn && a.pasid = pasid && a.va = page && !a.stale) then s
  else
    match s.xlt.ats.find? (fun a => a.fn = fn && a.pasid = pasid && a.va = page && !a.stale) with
    | some a => { s with xlt := { s.xlt with ats := s.xlt.ats ++ [one a.noWrite] } }
    | none =>
      if !s.sends fn then s
      else if 64 ≤ (s.xlt.ats.filter (fun a => a.hub = hub)).length || 256 ≤ s.xlt.ats.length then s
      else { s with xlt := { s.xlt with ats := s.xlt.ats ++ [one noWrite] }, out := s.out ++ [.atsRequest fn pasid page noWrite] }

/-- The completion of the translation request that is outstanding for a page fills the L1 of a unit as well (R160). -/
def State.wantL1 (s : State) (hub fn pasid va unit : Nat) : State :=
  { s with xlt := { s.xlt with ats := s.xlt.ats.map (fun a =>
      if a.hub = hub && a.fn = fn && a.pasid = pasid && a.va = va / 2 ^ 12 * 2 ^ 12 && !a.stale then
        { a with units := setAdd a.units unit } else a) } }

/-- What a waiter learns of one page. -/
inductive XRes where
  | ok (hpa : Nat)
  | io
  | wait
  | failed
deriving DecidableEq, Repr

/-- Waiter who waits for the page of va. -/
def XWait.isFor (w : XWait) (who : Waiter) (va : Nat) : Bool := decide (w.who = who) && decide (w.va = va / 2 ^ 12 * 2 ^ 12)

/-- The state without who's wait for the page of va. -/
def State.unwait (s : State) (who : Waiter) (va : Nat) : State :=
  { s with xlt := { s.xlt with waits := s.xlt.waits.filter (fun w => !w.isFor who va) } }

/-- The core of a waiter. -/
def waiterCore : Waiter → Option Nat
  | .seq g => some g.val
  | .chan g _ => some g.val
  | .pkt .. => none

/-- A translation fault of a waiter is counted in hpmcounter10 (R74). -/
def State.countFault (s : State) (w : Waiter) : State :=
  match waiterCore w with
  | some g => s.modCore g (·.count 10)
  | none => s

/-- A page without a usable translation (R233, R234): the waiter waits for a translation, then for a page request; a wait
that has failed is taken away and answered; a function address never gets a page request (R279). hasEntry says that the page is
translated without the rights needed, which is a translation fault at once. -/
def State.needPage (s : State) (who : Waiter) (hub fn pasid va : Nat) (rd wr hasEntry : Bool) : XRes × State :=
  match s.xlt.waits.find? (·.isFor who va) with
  | some w =>
    match w.phase with
    | .failed => (.failed, s.unwait who va)
    | .ats => (.wait, s.askAts hub fn pasid va (!wr))
    | _ => (.wait, s)
  | none =>
    if !(s.fn fn).atsEnable || (hasEntry && ((s.fn fn).noPri || pasid = noPasid)) then (.failed, s.countFault who)
    else
      let w : XWait := { who := who, fn := fn, pasid := pasid, va := va / 2 ^ 12 * 2 ^ 12, rd := rd, wr := wr,
                         phase := if hasEntry then .faulted else .ats, successes := 0 }
      let s := { s with xlt := { s.xlt with waits := s.xlt.waits ++ [w] } }
      (.wait, if hasEntry then s.countFault who else s.askAts hub fn pasid va (!wr))

/-- A host virtual address resolved for a waiter (R228, R232, R233). -/
def State.resolve (s : State) (who : Waiter) (unit : Option Nat) (hub fn pasid va : Nat) (rd wr : Bool) : XRes × State :=
  let p := s.xlt.lookup unit hub fn pasid va
  let s := { s with xlt := p.2 }
  match p.1 with
  | some e =>
    if e.usable rd wr then (if e.u then .io else .ok (e.at va), s.unwait who va)
    else s.needPage who hub fn pasid va rd wr true
  | none => s.needPage who hub fn pasid va rd wr false

/-! ### Readiness of a line (R353 to R355, R361) -/

/-- The agent number of the host, and its place in a sharer vector (R350, R351). -/
def hostAgent : Nat := 544
def hostGroup : Nat := 68

/-- The sharer group of an agent (R351): the cluster of a sequencer's cache, the hub of a dome processor's. -/
def groupOf (a : Nat) : Nat := if a < 512 then a / 8 else if a < 544 then 64 + (a - 512) / 8 else hostGroup

/-- The agents of a group. -/
def agentsOf (grp : Nat) : List Nat :=
  if grp < 64 then (List.range 8).map (8 * grp + ·)
  else if grp < 68 then (List.range 8).map (512 + 8 * (grp - 64) + ·)
  else [hostAgent]

/-- The lines an agent's cache holds, with whether each is M (R352). -/
def Coh.lines (c : Coh) (a : Nat) : List (Nat × Bool) := mapGet [] c.held a

/-- The agent holds the line, in M if excl. -/
def Coh.holds (c : Coh) (a line : Nat) (excl : Bool) : Bool :=
  (c.lines a).any (fun p => p.1 = line && (!excl || p.2))

/-- The agent no longer holds the line. -/
def Coh.drop (c : Coh) (a line : Nat) : Coh :=
  { c with held := mapSet [] c.held a ((c.lines a).filter (fun p => p.1 ≠ line)) }

/-- The agent holds the line, in M or S. -/
def Coh.hold (c : Coh) (a line : Nat) (m : Bool) : Coh :=
  { c with held := mapPut c.held a ((line, m) :: (c.lines a).filter (fun p => p.1 ≠ line)) }

/-- The directory entry of a line. -/
def Coh.entry (c : Coh) (line : Nat) : Option DirEntry := mapFind c.dir line

/-- The host is recorded for the line: as sharer, or as owner if owner is asked. -/
def DirEntry.hostHolds (e : DirEntry) (owner : Bool) : Bool :=
  match e.st with
  | .owned a => decide (a = hostAgent)
  | .shared gs => !owner && gs.contains hostGroup

/-- Successive NACKs of a stream for a line. -/
def Coh.nackCount (c : Coh) (stream line : Nat) : Nat :=
  ((c.nacks.find? (fun n => n.1 = stream && n.2.1 = line)).map (·.2.2)).getD 0

/-- The first stream that holds a reservation for a line (R356). -/
def Coh.resvFirst (c : Coh) (line : Nat) : Option Nat := (c.resvs.find? (fun r => r.2 = line)).map (·.1)

/-- A request of a stream is not served now (R355, R356): it is NACKed, or, after 16 NACKs in succession, recorded as a
reservation, which is not NACKed. True if a NACK is sent. -/
def Coh.refuse (c : Coh) (stream line : Nat) : Bool × Coh :=
  if c.resvs.any (fun r => r.1 = stream && r.2 = line) then (false, c)
  else if 16 ≤ c.nackCount stream line && !c.resvs.any (fun r => r.1 = stream) then
    (false, { c with resvs := c.resvs ++ [(stream, line)],
                     reservations := BitVec.ofNat 16 (satAdd 0xFFFF c.reservations.toNat 1) })
  else
    (true, { c with nacks := c.nacks.filter (fun n => !(n.1 = stream && n.2.1 = line)) ++
                              [(stream, line, c.nackCount stream line + 1)] })

/-- A request of a stream is served: its NACKs and its reservation for the line are gone. -/
def Coh.served (c : Coh) (stream line : Nat) : Coh :=
  { c with nacks := c.nacks.filter (fun n => !(n.1 = stream && n.2.1 = line)),
           resvs := c.resvs.filter (fun r => !(r.1 = stream && r.2 = line)) }

/-- A request may be served before others for the line: no other stream has reserved it. -/
def Coh.turn (c : Coh) (stream line : Nat) : Bool :=
  match c.resvFirst line with
  | some x => decide (x = stream)
  | none => true

/-- Every cached copy of a line in the device is taken back and its directory entry freed (R353). -/
def Coh.recall (c : Coh) (line : Nat) : Coh :=
  { c with held := c.held.map (fun p => (p.1, p.2.filter (fun x => x.1 ≠ line))), dir := mapDel c.dir line,
           wbuf := c.wbuf.filter (fun x => x.2 ≠ line) }

/-- The state after a request that is not served now. -/
def State.refuseReq (s : State) (stream line : Nat) : State :=
  let r := s.coh.refuse stream line
  let s := { s with coh := r.2 }
  if r.1 then s.send (.nack stream line) else s

/-- An engine or bypassing access to a line of HBM is ready, and the state after what it asks for (R353 to R356): while the
entry is transient, or another stream has reserved the line, the request is refused; a host copy that must change is
snooped first. -/
def State.homeReady (s : State) (stream line : Nat) (write : Bool) : Bool × State :=
  match s.coh.entry line with
  | none => if s.coh.turn stream line then (true, { s with coh := s.coh.served stream line }) else (false, s.refuseReq stream line)
  | some e =>
    if e.trans.isSome || !s.coh.turn stream line then (false, s.refuseReq stream line)
    else if e.hostHolds (!write) then
      if s.port.frozen || !s.port.linkUp then (false, s)
      else
        let t : DirTrans := { req := .engine write, acks := [], fwd := false, snoop := true }
        (false, { s with coh := { s.coh with dir := mapPut s.coh.dir line { e with trans := some t } },
                         out := s.out ++ [.backInvalidate line write] })
    else (true, { s with coh := s.coh.served stream line })

/-- A line of host memory is held in the device cache, in M or E if excl (R361). -/
def Coh.dcHolds (c : Coh) (line : Nat) (excl : Bool) : Bool :=
  match mapFind c.dc line with
  | some .s => !excl
  | some _ => true
  | none => false

/-- The device may issue CXL.cache requests (R344, R363). -/
def State.cacheSends (s : State) : Bool := s.coh.cacheEnable && !s.coh.wbi && !s.port.frozen && s.port.linkUp

/-- A line of the device cache is used (R361). -/
def Coh.dcTouch (c : Coh) (line : Nat) : Coh := { c with dcUsed := mapPut c.dcUsed line c.clock, clock := c.clock + 1 }

/-- The request that brings a line in (R361): RdShared to read, RdOwnNoData to write it whole, RdOwn otherwise. -/
def d2hOp (excl whole : Bool) : D2hOp := if !excl then .rdShared else if whole then .rdOwnNoData else .rdOwn

/-- A line of host memory is ready in the device cache, or is asked for (R361). -/
def State.dcReady (s : State) (line : Nat) (excl whole : Bool) : Bool × State :=
  if !s.coh.wbi && s.coh.cacheEnable && s.coh.dcHolds line excl then (true, { s with coh := s.coh.dcTouch line })
  else if s.coh.d2h.any (fun p => p.1 = line) || !s.cacheSends then (false, s)
  else (false, { s with coh := { s.coh with d2h := s.coh.d2h ++ [(line, excl)] }, out := s.out ++ [.d2hRequest line (d2hOp excl whole)] })

/-- The target of one line of an access: its memory key, whether it is checked as a host request (R227), and whether it
goes out untranslated. -/
structure Tgt where
  key : Nat
  host : Bool
  io : Bool
deriving DecidableEq, Repr

/-- The target of a host physical address (R227): the home of the device's own HDM, or host memory. -/
def State.hostTgt (s : State) (hpa : Nat) : Tgt :=
  match s.coh.hdmOff hpa with
  | some o => { key := carvePa o, host := true, io := false }
  | none => { key := hostKey hpa, host := false, io := false }

/-- Who makes an access: the waiter, its L1, the core whose die and hub serve it, its requesting stream, the rights it carries
(R68: the context tag and the PASID), and whether reads of a target that does not answer are abandoned (R179). -/
structure Requester where
  who : Waiter
  unit : Option Nat
  g : Nat
  stream : Nat
  fw : Bool
  tag : Nat
  pasid : Nat
  abandon : Bool := false
deriving DecidableEq, Repr

/-- The function through which an access translates, by its context (R225). -/
def State.reqFn (s : State) (q : Requester) : Nat := (s.rights q.fw q.tag).func

/-- The PASID under which an access translates (R68): the firmware context's, or the one that the access carries. -/
def State.reqPasid (s : State) (q : Requester) : Nat := if q.fw then s.fw.pasid else q.pasid

/-- The context tag that a report of an access names: none for firmware (R434). -/
def Requester.ctx (q : Requester) : Option Nat := if q.fw then none else some q.tag

/-- The target of a pointer whose pages are translated. -/
def State.tgt (s : State) (q : Requester) (ptr : Nat) : Tgt :=
  if space ptr = 0 then
    match s.xlt.peek q.unit (q.g / 128) (s.reqFn q) (s.reqPasid q) (spaceOff ptr) with
    | some e => if e.u then { key := spaceOff ptr, host := false, io := true } else s.hostTgt (e.at (spaceOff ptr))
    | none => { key := 0, host := false, io := true }
  else { key := s.physOf q.g q.fw q.tag ptr, host := false, io := false }

/-- A page of space 0x1 or 0x2 enters the L1 of its requester, with 2 MiB and no translation request (R228). -/
def State.touchL1 (s : State) (q : Requester) (ptr : Nat) : State :=
  match q.unit with
  | some u =>
    if space ptr = 1 ∨ space ptr = 2 then
      let p := ptr / 2 ^ 21 * 2 ^ 21
      let e : XEntry := { fn := if q.fw then fwFn else s.reqFn q, pasid := s.reqPasid q, va := p, size := .m2,
                          hpa := s.physOf q.g q.fw q.tag p, rd := true, wr := s.mayName q.fw q.tag ptr 1 .write, u := false }
      { s with xlt := { s.xlt with l1 := mapPut s.xlt.l1 u (lruPut (mapGet [] s.xlt.l1 u) e (l1Size u)) } }
    else s
  | none => s

/-- Lines of HBM whose access needs the home (R353). -/
def needsHome (k : Nat) : Bool := !isHostKey k && (hbmStack k).isSome

/-! ### Reads by CXL.io (R341) -/

/-- How many CXL.io reads may be outstanding (R341): 1,024 with 10-bit tags, 256 with extended tags, else 32. The two
enables lie in Device Control 2 and Device Control of the PF's PCI Express capability (R326, R328). -/
def State.tagLimit (s : State) : Nat :=
  let c := (s.fn 0).cfg
  if bit (mapGet 0 c 0x78).toNat 12 then 1024 else if bit (mapGet 0 c 0x58).toNat 8 then 256 else 32

/-- The first free tag below the limit. -/
def State.freeTag (s : State) : Option Nat :=
  (List.range s.tagLimit).find? (fun t => !s.port.ioReads.any (fun r => decide (r.tag.toNat = t) && decide (r.ended = none)))

/-- The read of [addr, addr + len) that a waiter has asked for. -/
def State.ioRead (s : State) (who : Waiter) (pasid : Option Nat) (addr len : Nat) : Option IoRead :=
  s.port.ioReads.find? (fun r =>
    decide (r.who = who) && decide (r.pasid = pasid) && decide (r.addr = addr) && decide (r.len = len))

/-- What a waiter learns of one CXL.io read. -/
inductive IoRes where
  | data (bs : Bytes)
  | wait
  | failed
deriving DecidableEq, Repr

/-- A CXL.io read is asked for, or its result is answered (R341); with a PASID it goes out untranslated (R229). -/
def State.askIo (s : State) (who : Waiter) (fn : Nat) (pasid : Option Nat) (addr len : Nat) : IoRes × State :=
  match s.ioRead who pasid addr len with
  | some r => match r.ended with
    | none => (.wait, s)
    | some .ok => (.data (sliceBytes r.got 0 len), s)
    | some _ => (.failed, s)
  | none =>
    match s.freeTag with
    | none => (.wait, s)
    | some t =>
      if !s.sends fn then (.wait, s)
      else
        let r : IoRead := { tag := BitVec.ofNat 10 t, fn := fn, pasid := pasid, who := who, addr := addr, len := len,
                            got := [], ended := none }
        (.wait, { s with port := { s.port with ioReads := s.port.ioReads ++ [r] }, out := s.out ++ [.ioRead fn pasid r.tag addr len] })

/-- The waiter's finished reads are taken away. -/
def State.dropIo (s : State) (who : Waiter) : State :=
  { s with port := { s.port with ioReads := s.port.ioReads.filter (fun r => decide (r.who ≠ who) || decide (r.ended = none)) } }

/-! ### Ranges -/

/-- A range cut into pieces that lie in one block of size b each: (start, length), ascending. n bounds their number. -/
def cutAt (b : Nat) : Nat → Nat → Nat → List (Nat × Nat)
  | 0, _, _ => []
  | n + 1, p, len =>
    if len = 0 then []
    else
      let k := min len (b - p % b)
      (p, k) :: cutAt b n (p + k) (len - k)

/-- A range cut at 64 B lines. -/
def linesOf (p len : Nat) : List (Nat × Nat) := cutAt 64 (len / 64 + 2) p len

/-- How ready a whole access is. -/
inductive Ready where
  | ready | wait | failed
deriving DecidableEq, Repr

/-- The worse of two. -/
def Ready.and : Ready → Ready → Ready
  | .failed, _ => .failed
  | _, .failed => .failed
  | .wait, _ => .wait
  | _, .wait => .wait
  | .ready, .ready => .ready

/-! ### Bandwidth regulators (R189, R191) -/

/-- The regulator that meters a line of HBM (R189): none for a request with the firmware indicator, and, for a granule without
NOALLOC, none where the shared cache holds the line, which is an open value (log entry 34). -/
def State.regulatorOf (s : State) (fw : Bool) (k : Nat) : Option Nat :=
  match hbmStack k with
  | some n =>
    let e := s.entryOf k
    if fw || (!bit e.toNat 15 && decide (Config.unstated 189 (lineOf k) % 2 = 0)) then none
    else some (64 * (n / 3) + bits e.toNat 21 16)
  | none => none

/-- A regulator serves 64 bytes now at guaranteed priority; at spare priority; or holds the request (R191). CLASS 3 acts as 1. -/
def Regulator.guarantees (r : Regulator) : Bool := decide (r.cls ≠ 2) && decide (1 ≤ r.credit)
def Regulator.holds (r : Regulator) : Bool := decide (r.cls = 1 ∨ r.cls = 3) && decide (r.credit = 0)

/-- The regulator has served 64 bytes (R191). -/
def Regulator.serve (r : Regulator) : Regulator :=
  if r.guarantees then { r with credit := r.credit - 1, guaranteed := r.guaranteed + 64 } else { r with spare := r.spare + 64 }

/-- The state with a regulator changed. -/
def State.modRegulator (s : State) (i : Nat) (f : Regulator → Regulator) : State :=
  { s with regulators := mapPut s.regulators i (f (mapGet Regulator.reset s.regulators i)) }

/-- A line of HBM may be moved now, or its request is held until a window gives credit (R191). -/
def State.regulated (s : State) (fw : Bool) (k : Nat) : Bool × State :=
  match s.regulatorOf fw k with
  | some i =>
    if (mapGet Regulator.reset s.regulators i).holds then (false, s.modRegulator i (fun r => { r with held := true })) else (true, s)
  | none => (true, s)

/-- A line of HBM is moved: its bytes are counted (R191). -/
def State.meter (s : State) (fw : Bool) (k : Nat) : State :=
  match s.regulatorOf fw k with
  | some i => s.modRegulator i Regulator.serve
  | none => s

/-- One line of an access made ready (R232, R233): translated, and held or snooped as coherence asks. A refused target
needs nothing; a read of a target that does not answer waits for its bound (R179). -/
def State.prepLine (s : State) (q : Requester) (ptr len : Nat) (k : Kind) : Ready × State :=
  let line (s : State) (t : Tgt) : Ready × State :=
    if t.io then
      if k.reads then
        match s.askIo q.who (s.reqFn q) (some (s.reqPasid q)) (spaceOff ptr) len with
        | (.wait, s) => (.wait, s)
        | (_, s) => (.ready, s)
      else (.ready, s)
    else if k.reads && !q.abandon && !s.answers t.key && s.allowed t.key q.fw t.host q.tag false then (.wait, s)
    else if isHostKey t.key then
      let r := s.dcReady (lineOf (t.key - 2 ^ 64)) k.writes (decide (k = .write) && decide (len = 64))
      (if r.1 then .ready else .wait, r.2)
    else if needsHome t.key && s.allowed t.key q.fw t.host q.tag k.writes then
      match s.regulated q.fw t.key with
      | (false, s) => (.wait, s)
      | (true, s) =>
        let r := s.homeReady q.stream (lineOf t.key) k.writes
        (if r.1 then .ready else .wait, r.2)
    else (.ready, s)
  if space ptr = 0 then
    match s.resolve q.who q.unit (q.g / 128) (s.reqFn q) (s.reqPasid q) (spaceOff ptr) k.reads k.writes with
    | (.failed, s) => (.failed, s)
    | (.wait, s) => (.wait, s)
    | (.io, s) => line s { key := spaceOff ptr, host := false, io := true }
    | (.ok hpa, s) => line s (s.hostTgt hpa)
  else line (s.touchL1 q ptr) (s.tgt q ptr)

/-- Every line of a range made ready: a failure of one fails the whole, a wait of one makes the whole wait. -/
def State.prep (s : State) (q : Requester) (ptr len : Nat) (k : Kind) : Ready × State :=
  (linesOf ptr len).foldl (fun a p => let r := a.2.prepLine q p.1 p.2 k; (a.1.and r.1, r.2)) (.ready, s)

/-- What one line of a read gives: its bytes, or nothing with the fault to record (R179, R186, R194). -/
def State.readLine (s : State) (q : Requester) (unit : BitVec 16) (ptr len : Nat) : Option Bytes × State :=
  let t := s.tgt q ptr
  if t.io then
    match s.askIo q.who (s.reqFn q) (some (s.reqPasid q)) t.key len with
    | (.data bs, s) => (some bs, s)
    | (_, s) => (none, s)
  else if !isHostKey t.key && !s.allowed t.key q.fw t.host q.tag false then (none, s.refusal unit t.key q.fw q.ctx)
  else if !s.answers t.key then (none, s.report (event 15 unit (t.key / 8 * 8) q.ctx))
  else
    let s := s.meter q.fw t.key
    if s.mem.poisoned t.key len then (none, s.report (event 8 unit (s.mem.firstPoison t.key len) q.ctx))
    else (some (s.mem.read t.key len), s)

/-- The first line of a range whose target does not answer (R179). -/
def State.deadLine (s : State) (q : Requester) (ptr len : Nat) : Option Nat :=
  ((linesOf ptr len).map (fun p => s.tgt q p.1)).findSome? (fun t =>
    if !t.io && !s.answers t.key then some t.key else none)

/-- A range that is ready is read; none where a line is refused, dead or poisoned. -/
def State.readRange (s : State) (q : Requester) (unit : BitVec 16) (ptr len : Nat) : Option Bytes × State :=
  (linesOf ptr len).foldl (fun a p =>
    match a.1 with
    | none => a
    | some bs =>
      match a.2.readLine q unit p.1 p.2 with
      | (some b, s) => (some (bs ++ b), s)
      | (none, s) => (none, s)) (some [], s)

/-- A write to a line of memory by an agent other than a sequencer's cache: data-cache copies are taken back (R353), a
device-cache line becomes M (R361), reservations on the line are lost (R213), poison follows R194, with an uncorrected error of
the memory for the writer's context where bytes are lost. -/
def State.storeLine (s : State) (k : Nat) (bs : Bytes) (tag : Option Nat) : State :=
  let lost := s.mem.losesBytes k bs.length
  let s := { s with mem := s.mem.store k bs }
  let s := s.loseResv (lineOf k) 512
  let s :=
    if isHostKey k then
      let l := lineOf (k - 2 ^ 64)
      { s with coh := { s.coh with dc := if (mapFind s.coh.dc l).isSome then mapPut s.coh.dc l .m else s.coh.dc } }
    else if needsHome k then { s with coh := s.coh.recall (lineOf k) } else s
  if lost then s.report (event (ueSource k) (s.unitOfKey k) (k / 8 * 8) tag) else s

/-- Bytes that firmware writes at a physical address. -/
def State.fwWrite (s : State) (key : Nat) (bs : Bytes) : State :=
  (linesOf key bs.length).foldl (fun s p => s.storeLine p.1 (sliceBytes bs (p.1 - key) p.2) none) s

/-- One line of a write that is ready (R179, R186): refused or dead lines are not written. -/
def State.writeLine (s : State) (q : Requester) (unit : BitVec 16) (ptr : Nat) (bs : Bytes) : State :=
  let t := s.tgt q ptr
  if t.io then s.send (.untranslatedWrite (s.reqFn q) (s.reqPasid q) t.key bs)
  else if !isHostKey t.key && !s.allowed t.key q.fw t.host q.tag true then s.refusal unit t.key q.fw q.ctx
  else if !s.answers t.key then
    match q.who with
    | .chan g c =>
      let w : DeadWrite := { q := 2 + c.val, line := lineOf t.key, ptr := BitVec.ofNat 64 ptr,
                             tag := if q.fw then none else some (q.tag, s.reqPasid q) }
      s.modCore g (fun x => { x with deadWrites := x.deadWrites ++ [w] })
    | _ => s
  else (s.meter q.fw t.key).storeLine t.key bs q.ctx

/-- A range that is ready is written. -/
def State.writeRange (s : State) (q : Requester) (unit : BitVec 16) (ptr : Nat) (bs : Bytes) : State :=
  (linesOf ptr bs.length).foldl (fun s p => s.writeLine q unit p.1 (sliceBytes bs (p.1 - ptr) p.2)) s

end Sys2Proof.Machine
end

