-- ==== Sys2Proof/Machine/Operands.lean ====
section
/-! DEFINITION. Operand forms: the words of sequencer instructions (R67, R76), immediates, and the fields of engine
commands and descriptors. -/

namespace Sys2Proof.Machine

/-! ### Instruction words (R76 and the RISC-V Unprivileged ISA 20191213) -/

/-- An R-format word. -/
def wordR (opcode f7 f3 : Nat) (rs2 rs1 rd : Reg) : Word :=
  BitVec.ofNat 64 (f7 <<< 25 ||| rs2.toNat <<< 20 ||| rs1.toNat <<< 15 ||| f3 <<< 12 ||| rd.toNat <<< 7 ||| opcode)

/-- An I-format word. -/
def wordI (opcode f3 : Nat) (imm : BitVec 12) (rs1 rd : Reg) : Word :=
  BitVec.ofNat 64 (imm.toNat <<< 20 ||| rs1.toNat <<< 15 ||| f3 <<< 12 ||| rd.toNat <<< 7 ||| opcode)

/-- The opcodes of the four custom groups (R76), and SYSTEM. -/
def opDispatch : Nat := 0x0B
def opSem : Nat := 0x2B
def opBarrier : Nat := 0x5B
def opControl : Nat := 0x7B
def opSystem : Nat := 0x73

/-- base + sign-extended imm. -/
def effAddr (base : Word) (imm : BitVec 12) : Word := base + imm.signExtend 64

/-- Length of an instruction: 2 bytes in compressed form (C), 4 otherwise. -/
def instrLen (c : Bool) : Nat := if c then 2 else 4

/-- Bytes of a load (R67). -/
def loadBytes : LoadKind → Nat
  | .lb | .lbu => 1
  | .lh | .lhu => 2
  | .lw | .lwu => 4
  | .ld => 8

/-- A loaded value extended to 64 bits. -/
def loadValue (k : LoadKind) (v : Nat) : Word :=
  match k with
  | .lb => sext 8 v
  | .lh => sext 16 v
  | .lw => sext 32 v
  | _ => BitVec.ofNat 64 v

/-- Bytes of a store. -/
def storeBytes : MemSize → Nat
  | .b => 1
  | .h => 2
  | .w => 4
  | .d => 8

/-- The result of an integer AMO on w-bit values (R211, A extension). -/
def amoResult (op : AmoOp) (w old v : Nat) : Nat :=
  match op with
  | .swap => v
  | .add => (old + v) % 2 ^ w
  | .xor => old ^^^ v
  | .and => old &&& v
  | .or => old ||| v
  | .min => if sint w old ≤ sint w v then old else v
  | .max => if sint w v ≤ sint w old then old else v
  | .minu => min old v
  | .maxu => max old v

/-! ### Synchronisation words (R78) -/

/-- A count field: 0 means 256. -/
def count256 (n : Nat) : Nat := if n = 0 then 256 else n

def syncWaitEn (w : BitVec 64) : Bool := bit w.toNat 6
def syncWaitSem (w : BitVec 64) : Nat := bits w.toNat 5 0
def syncWaitCount (w : BitVec 64) : Nat := count256 (bits w.toNat 15 8)
def syncSigEn (w : BitVec 64) : Bool := bit w.toNat 22
def syncSigSem (w : BitVec 64) : Nat := bits w.toNat 21 16
def syncSigOn (w : BitVec 64) : Bool := bit w.toNat 23
def syncSigCount (w : BitVec 64) : Nat := count256 (bits w.toNat 31 24)

/-- A nonzero reserved bit. -/
def syncBad (w : BitVec 64) : Bool := bit w.toNat 7 || decide (bits w.toNat 63 32 ≠ 0)

/-! ### Engine command fields -/

/-- A byte of a command. -/
def cmdByte (bs : Bytes) (i : Nat) : Nat := (bs.getD i 0).toNat

/-- A signed 32-bit field (R142). -/
def fieldS32 (bs : Bytes) (off : Nat) : Int := sint 32 (fieldLe bs off 4)

/-- The opcode of a matrix or vector command or the type of a descriptor is reserved (R104, R117, R135, R160). -/
def reservedOp (q : Nat) (d : Bytes) : Bool :=
  let o := cmdByte d 0
  if q = 0 then decide (4 ≤ o)
  else if q = 1 then decide (0xB ≤ o) && !(decide (0x10 ≤ o) && decide (o ≤ 0x14))
  else decide (0xB ≤ o) || (decide (o = 0xA) && decide (4 ≤ cmdByte d 4))

/-- The code of the first check that fails, in table order (R109, R123, R138); 0 if none does. -/
def firstCode (l : List (Bool × Nat)) : Nat := ((l.find? (fun p => p.1)).map (·.2)).getD 0

/-- Depth of a queue (R61). -/
def queueDepth (q : Nat) : Nat := if q = 0 then 16 else if q = 1 then 32 else 64

/-- Queue entries that a command takes: one, or one for each descriptor of a chain (R133). -/
def EngCmd.entries (q : Nat) (c : EngCmd) : Nat := if q < 2 then 1 else c.bytes.length / 64

/-- Entries taken by the uncompleted commands of a queue (R80, R133). -/
def Queue.used (x : Queue) (q : Nat) : Nat := (x.cmds.map (EngCmd.entries q)).sum

/-- The ticket after a ticket; 0 is skipped (R80). -/
def nextTicket (t : BitVec 32) : BitVec 32 := if t + 1 = 0 then 1 else t + 1

/-- Descriptor i of a chain. -/
def EngCmd.descriptor (c : EngCmd) (i : Nat) : Bytes := sliceBytes c.bytes (64 * i) 64

/-- The completed counter c satisfies EWAIT's target t: (c - t) mod 2^32 < 2^31 (R82). -/
def ticketReached (c t : BitVec 32) : Bool := decide ((c - t).toNat < 2 ^ 31)

end Sys2Proof.Machine
end

