-- ==== Sys2Proof/Machine/Flags.lean ====
section
/-! DEFINITION. Flags and interrupt lines: pending interrupts of a core (R93), wbstat (R90), MSI-X and INTx (R336, R337),
AER status bits (R330). -/

namespace Sys2Proof.Machine

/-! ### Interrupts of a core -/

/-- mip as it reads (R73, R83, R87, R75): 3 and 11 are held, 16, 17 and 18 follow wengerr, wsemovf and wcyccmp. -/
def Core.mipNow (c : Core) : Word :=
  let n := c.mip.toNat &&& 0x808
  BitVec.ofNat 64 (n ||| (b2n (decide (bits c.wengerr.toNat 3 0 ≠ 0)) <<< 16) ||| (b2n (decide (c.wsemovf ≠ 0)) <<< 17)
    ||| (b2n (decide (c.wcyccmp.toNat ≤ c.mcycle.toNat)) <<< 18))

/-- The order in which pending interrupts are taken (R93). -/
def interruptOrder : List Nat := [16, 17, 11, 3, 18]

/-- The interrupt that core g would take now: pending and enabled in mie, with mstatus.MIE in machine mode and always in
user mode. -/
def Core.interrupt (c : Core) : Option Nat :=
  if c.machineMode && !bit c.mstatus.toNat 3 then none
  else interruptOrder.find? (fun i => bit c.mipNow.toNat i && bit c.mie.toNat i)

/-! ### wbstat (R90, R221) -/

/-- k stores or lines are recorded as dropped: DROPPED is set and DROP_COUNT rises, saturating at 0xFFFF. -/
def dropCount (w : Word) (k : Nat) : Word :=
  let n := w.toNat
  BitVec.ofNat 64 (putBits (putBits n 0 0 1) 31 16 (satAdd 0xFFFF (bits n 31 16) k))

/-! ### MSI-X and INTx (R336, R337) -/

/-- Vector vec of a function may be sent now. -/
def State.vectorOpen (s : State) (f vec : Nat) : Bool :=
  s.sends f && (s.fn f).msixEnable && !(s.fn f).msixMask && !(mapGet MsixEntry.reset (s.fn f).msix vec).masked

/-- A message falls due on a vector: sent, or its pending bit is set (R336). -/
def State.msix (s : State) (f vec : Nat) : State :=
  if s.vectorOpen f vec then
    let e := mapGet MsixEntry.reset (s.fn f).msix vec
    s.send (.msix f vec e.addr e.data)
  else s.setFn f { s.fn f with pba := setAdd (s.fn f).pba vec }

/-- Every pending vector that may now be sent is sent once (R336). -/
def State.flushMsix (s : State) (f : Nat) : State :=
  (s.fn f).pba.foldl (fun s v =>
    if s.vectorOpen f v then (s.setFn f { s.fn f with pba := setDel (s.fn f).pba v }).msix f v else s) s

/-- INTA is driven as R337 says: asserted while an enabled status bit is set, MSI-X is off and Interrupt Disable is 0. -/
def State.driveIntx (s : State) : State :=
  let want := decide ((s.port.intStatus &&& s.port.intEnable) ≠ 0) && !(s.fn 0).msixEnable && !(s.fn 0).intDisable
  if want = s.port.intxOn || !s.sends 0 then s
  else { s with port := { s.port with intxOn := want }, out := s.out ++ [.intx want] }

/-- Bit i of HST_INT_STATUS is set: INTx follows, or MSI-X vector HST_INT_CFG.VECTOR when the bit is enabled and was not
set before (R337). -/
def State.hostInt (s : State) (i : Nat) : State :=
  let old := s.port.intStatus
  let s' := { s with port := { s.port with intStatus := old ||| (1 <<< i) } }
  if (s.fn 0).msixEnable then
    if bit s.port.intEnable.toNat i && !bit old.toNat i then s'.msix 0 s.port.intVector.toNat else s'
  else s'.driveIntx

/-! ### AER (R330), bit places of the PCI Express Base Specification (PRESUMED, log entry 7) -/

def aerPoisoned : Nat := 12
def aerTimeout : Nat := 14
def aerUnexpected : Nat := 16
def aerUnsupported : Nat := 20
def aerInternal : Nat := 22
def aerCorrectedInternal : Nat := 14
def aerAdvisory : Nat := 13

/-- An uncorrectable error status bit of function f is set; First Error Pointer names the first while its bit is set. -/
def State.aerUncor (s : State) (f i : Nat) : State :=
  let x := s.fn f
  s.setFn f { x with aerUncor := x.aerUncor ||| (1 <<< i),
                     aerFirst := if bit x.aerUncor.toNat x.aerFirst.toNat then x.aerFirst else BitVec.ofNat 5 i }

/-- A correctable error status bit of function f is set. -/
def State.aerCor (s : State) (f i : Nat) : State := s.setFn f { s.fn f with aerCor := (s.fn f).aerCor ||| (1 <<< i) }

/-! ### Events of translation (XLT_PRI_EVENTS) -/

/-- Bit i of XLT_PRI_EVENTS is set for function f; FUNC is that of the first event since all bits were clear; the set bit
raises HST_INT_STATUS.XLT (R337). -/
def State.xltEvent (s : State) (i f : Nat) : State :=
  let x := s.xlt
  let x := { x with eventFn := if x.events = 0 then BitVec.ofNat 6 f else x.eventFn, events := x.events ||| (1 <<< i) }
  State.hostInt { s with xlt := x } 2

/-! ### Access to the BARs (R342, R344) -/

/-- The function answers memory requests to its BARs: the link is up, memory space is on, it does not quiesce, and neither the
Portcullis nor D3hot holds it off (R338, R342, R344). -/
def State.barOpen (s : State) (f : Nat) : Bool :=
  (s.fn f).enabled && (s.fn f).mse && !(s.fn f).quiescing && !s.port.frozen && !(s.fn 0).d3hot

/-- A host access to a BAR of function f: answered by k, or completed with Unsupported Request, which AER reports (R330,
R342). -/
def State.barAccess (s : State) (f : Nat) (k : State → State) : State :=
  if !s.port.linkUp then s
  else if s.barOpen f then k s
  else (s.send (.unsupportedRequest f)).aerUncor f aerUnsupported

/-- A VF removal is in progress (R500). -/
def State.removing (s : State) : Bool := s.fns.any (fun x => x.2.removing)

/-- A configuration request to function f: answered by k, or with Retry Status before readiness unless the Portcullis holds
(R432), during the function's quiesce,
and on the PF and its VFs during a VF removal (R332, R334, R335, R500), or with Unsupported Request where there is no such
function. -/
def State.cfgAccess (s : State) (f : Nat) (k : State → State) : State :=
  if !s.port.linkUp then s
  else if (!s.port.ready && !s.port.frozen) || (s.fn f).quiescing || s.removing then s.send (.retryStatus f)
  else if !(s.fn f).enabled then s.send (.unsupportedRequest f)
  else k s

/-- A Function Readiness Status message, or for none a Device Readiness Status message: sent, or held while the Portcullis holds
(R344). -/
def State.sendReady (s : State) (f : Option Nat) : State :=
  if s.port.frozen then { s with port := { s.port with heldMsgs := s.port.heldMsgs ++ [f] } }
  else if !s.port.linkUp then s
  else s.send (match f with
    | some f => .functionReady f
    | none => .deviceReady)

/-- A host write to a management register of PF BAR0: after a FAILED bring-up it is ignored unless the register is a DEV_ or FLT_
one (R431). -/
def State.bar0Write (s : State) (devFlt : Bool) (k : State → State) : State :=
  s.barAccess 0 (fun s => if decide (s.boot.state = 3) && !devFlt then s else k s)

end Sys2Proof.Machine
end

