-- ==== Sys2Proof/Machine/Fp.lean ====
section
/-! DEFINITION. Number formats and exact arithmetic (spec/02_number_formats.md): decoding, rounding, conversion, the
operations that vector lanes, the matrix engine, DMA and the samplers share. -/

namespace Sys2Proof.Machine

/-- A value of any format: NaN, a signed infinity, or (-1)^neg * m * 2^e exactly (R29, R31). -/
inductive FVal where
  | nan
  | inf (neg : Bool)
  | fin (neg : Bool) (m : Nat) (e : Int)
deriving DecidableEq, Repr

/-- The floating formats of R28, R29 and R39. -/
inductive Fmt where
  | e4m3 | e5m2 | e2m3 | e3m2 | bf16 | fp32 | w40
deriving DecidableEq, Repr

/-- Exponent bits of a format (R29, R39). -/
def fmtEb : Fmt → Nat
  | .e4m3 => 4 | .e5m2 => 5 | .e2m3 => 2 | .e3m2 => 3 | .bf16 => 8 | .fp32 => 8 | .w40 => 8

/-- Fraction bits of a format (R29, R39). -/
def fmtMb : Fmt → Nat
  | .e4m3 => 3 | .e5m2 => 2 | .e2m3 => 3 | .e3m2 => 2 | .bf16 => 7 | .fp32 => 23 | .w40 => 31

/-- Exponent bias of a format (R29, R39). -/
def fmtBias : Fmt → Nat
  | .e4m3 => 7 | .e5m2 => 15 | .e2m3 => 1 | .e3m2 => 3 | .bf16 => 127 | .fp32 => 127 | .w40 => 127

/-- Width of a format in bits. -/
def fmtWidth (f : Fmt) : Nat := 1 + fmtEb f + fmtMb f

/-- The canonical NaN of a format (R31); the MXFP6 formats have none and are never destinations. -/
def fmtNan : Fmt → Nat
  | .e4m3 => 0x7F | .e5m2 => 0x7E | .e2m3 => 0 | .e3m2 => 0 | .bf16 => 0x7FC0 | .fp32 => 0x7FC00000 | .w40 => 0x7FC0000000

/-- The value that the bits n hold in format f (R29, R30, R39). -/
def fpDecode (f : Fmt) (n : Nat) : FVal :=
  let mb := fmtMb f
  let eb := fmtEb f
  let frac := n % 2 ^ mb
  let ex := (n >>> mb) % 2 ^ eb
  let neg := bit n (eb + mb)
  let lsb : Int := 1 - (fmtBias f : Int) - (mb : Int)
  let norm := if ex = 0 then FVal.fin neg frac lsb else FVal.fin neg (frac + 2 ^ mb) (lsb + (ex : Int) - 1)
  match f with
  | .e4m3 => if ex = 15 ∧ frac = 7 then .nan else norm
  | .e2m3 => norm
  | .e3m2 => norm
  | _ => if ex = 2 ^ eb - 1 then (if frac = 0 then .inf neg else .nan) else norm

/-- Round m * 2^e to a multiple of 2^q, to nearest, ties to even. -/
def rneAt (m : Nat) (e q : Int) : Nat :=
  if q ≤ e then m <<< (e - q).toNat
  else
    let k := (q - e).toNat
    let r := m >>> k
    let rem := m % 2 ^ k
    let half := 2 ^ (k - 1)
    if rem > half ∨ (rem = half ∧ r % 2 = 1) then r + 1 else r

/-- The exponent of the leading bit of m * 2^e, for m above 0. -/
def leadExp (m : Nat) (e : Int) : Int := e + (Nat.log2 m : Int)

/-- The overflow result of a destination format (R40, R48, R49). -/
def fpOverflow (f : Fmt) (neg sat : Bool) : Nat :=
  let s := b2n neg <<< (fmtEb f + fmtMb f)
  match f with
  | .e4m3 => if sat then s + 0x7E else 0x7F
  | .e5m2 => if sat then s + 0x7B else s + 0x7C
  | _ => s + ((2 ^ fmtEb f - 1) <<< fmtMb f)

/-- Largest finite magnitude of a format, in units of 2^(lsb of the format), as an encoding without sign. -/
def fpMaxCode : Fmt → Nat
  | .e4m3 => 0x7E | .e5m2 => 0x7B | .e2m3 => 0x1F | .e3m2 => 0x1F
  | f => ((2 ^ fmtEb f - 1) <<< fmtMb f) - 1

/-- One rounding of a value to format f: RNE with unbounded exponent, then the overflow rule (R40, R48, R49). -/
def fpRound (f : Fmt) (sat : Bool) (v : FVal) : Nat :=
  match v with
  | .nan => fmtNan f
  | .inf neg => fpOverflow f neg sat
  | .fin neg m e =>
    let s := b2n neg <<< (fmtEb f + fmtMb f)
    if m = 0 then s else
    let mb := fmtMb f
    let emin : Int := 1 - (fmtBias f : Int)
    let q := max (leadExp m e) emin - (mb : Int)
    let r := rneAt m e q
    -- the code without sign: a significand of 2^(mb+1) carries into the exponent by itself
    let ex := (q - (emin - (mb : Int))).toNat
    let code := ex <<< mb
    let code := code + r
    if code > fpMaxCode f then fpOverflow f neg sat else s + code

/-- One rounding to FP32 (rne32 of the spec). -/
def rne32 (v : FVal) : Nat := fpRound .fp32 false v

/-- The value of FP32 bits. -/
def f32 (n : Nat) : FVal := fpDecode .fp32 n

/-- m1 * 2^e1 in units of 2^e, e ≤ e1, with its sign. -/
def alignInt (neg : Bool) (m : Nat) (e1 e : Int) : Int :=
  let v : Int := ((m <<< (e1 - e).toNat : Nat) : Int)
  if neg then -v else v

/-- The exact value of an integer i times 2^e; zero is +0 unless negZero. -/
def ofInt (i : Int) (e : Int) (negZero : Bool := false) : FVal :=
  if i = 0 then .fin negZero 0 e else .fin (i < 0) i.natAbs e

/-- The exact negation. -/
def fneg : FVal → FVal
  | .nan => .nan
  | .inf n => .inf (!n)
  | .fin n m e => .fin (!n) m e

/-- The exact sum. An exact zero is +0, but for the sum of two −0 (R40; IEEE 754 RNE). -/
def fadd (a b : FVal) : FVal :=
  match a, b with
  | .nan, _ => .nan
  | _, .nan => .nan
  | .inf x, .inf y => if x = y then .inf x else .nan
  | .inf x, _ => .inf x
  | _, .inf y => .inf y
  | .fin n1 m1 e1, .fin n2 m2 e2 =>
    if m1 = 0 ∧ m2 = 0 then .fin (n1 && n2) 0 0
    else
      let e := min e1 e2
      ofInt (alignInt n1 m1 e1 e + alignInt n2 m2 e2 e) e

/-- The exact difference. -/
def fsub (a b : FVal) : FVal := fadd a (fneg b)

/-- The exact product. -/
def fmul (a b : FVal) : FVal :=
  match a, b with
  | .nan, _ => .nan
  | _, .nan => .nan
  | .inf x, .inf y => .inf (x != y)
  | .inf x, .fin y m _ => if m = 0 then .nan else .inf (x != y)
  | .fin x m _, .inf y => if m = 0 then .nan else .inf (x != y)
  | .fin n1 m1 e1, .fin n2 m2 e2 => .fin (n1 != n2) (m1 * m2) (e1 + e2)

/-- The exact a * b + c. -/
def ffma (a b c : FVal) : FVal := fadd (fmul a b) c

/-- The quotient a / b with a sticky bit below k bits of precision, exact for every later rounding of fewer bits. -/
def fdivBits (k : Nat) (a b : FVal) : FVal :=
  match a, b with
  | .nan, _ => .nan
  | _, .nan => .nan
  | .inf _, .inf _ => .nan
  | .inf x, .fin y _ _ => .inf (x != y)
  | .fin x _ _, .inf y => .fin (x != y) 0 0
  | .fin x m1 e1, .fin y m2 e2 =>
    if m2 = 0 then (if m1 = 0 then .nan else .inf (x != y))
    else
      let sh := k + Nat.log2 m2
      let n := m1 <<< sh
      .fin (x != y) (2 * (n / m2) + b2n (n % m2 ≠ 0)) (e1 - e2 - (sh : Int) - 1)

/-- The quotient, kept to more bits than any destination has. -/
def fdiv (a b : FVal) : FVal := fdivBits 80 a b

/-- Order of two values that are not NaN, with −0 below +0 (R117, R121): a < b. -/
def flt (a b : FVal) : Bool :=
  match a, b with
  | .nan, _ => false
  | _, .nan => false
  | .inf x, .inf y => x && !y
  | .inf x, .fin .. => x
  | .fin .., .inf y => !y
  | .fin n1 m1 e1, .fin n2 m2 e2 =>
    if m1 = 0 ∧ m2 = 0 then n1 && !n2
    else
      let e := min e1 e2
      decide (alignInt n1 m1 e1 e < alignInt n2 m2 e2 e)

/-- Is the value NaN. -/
def isNan : FVal → Bool
  | .nan => true
  | _ => false

/-- Is the value an infinity. -/
def isInf : FVal → Bool
  | .inf _ => true
  | _ => false

/-- Is the value a zero. -/
def isZero : FVal → Bool
  | .fin _ m _ => m == 0
  | _ => false

/-- Numerical a ≤ b with equal zeros; false on NaN. -/
def fle (a b : FVal) : Bool :=
  !isNan a && !isNan b && ((isZero a && isZero b) || !flt b a)

/-- The sign of a value. -/
def fsign : FVal → Bool
  | .nan => false
  | .inf n => n
  | .fin n _ _ => n

/-- The magnitude. -/
def fabs : FVal → FVal
  | .nan => .nan
  | .inf _ => .inf false
  | .fin _ m e => .fin false m e

/-- VMAX of R117: +0 above −0; a NaN yields the other; both NaN give NaN. -/
def vmaxF (a b : FVal) : FVal :=
  if isNan a then b else if isNan b then a else if flt a b then b else a

/-- VMIN of R117. -/
def vminF (a b : FVal) : FVal :=
  if isNan a then b else if isNan b then a else if flt b a then b else a

/-- The element formats that a 4-bit code names (R99); none where the code is reserved or no floating format. -/
def fmtOfCode (c : Nat) : Option Fmt :=
  match c with
  | 0x0 => some .e4m3
  | 0x1 => some .e5m2
  | 0x2 => some .e4m3
  | 0x3 => some .e5m2
  | 0x4 => some .e2m3
  | 0x5 => some .e3m2
  | 0x7 => some .bf16
  | 0x9 => some .fp32
  | 0xA => some .w40
  | _ => none

/-- Element size in bytes in core SRAM of the codes that hold whole bytes (R99, R40); 0 for the others. -/
def codeSize (c : Nat) : Nat :=
  match c with
  | 0x0 => 1 | 0x1 => 1 | 0x2 => 1 | 0x3 => 1 | 0x6 => 1 | 0x7 => 2 | 0x9 => 4 | 0xA => 8 | _ => 0

/-- The value of an element read under a vector or DMA format code (R99). -/
def elemVal (c n : Nat) : FVal :=
  match fmtOfCode c with
  | some f => fpDecode f n
  | none => .nan

/-- The bytes of a value stored under a destination format code, W40 in its 8-byte container (R40, R99). -/
def elemBytes (c : Nat) (sat : Bool) (v : FVal) : Bytes :=
  match fmtOfCode c with
  | some f => natLe (fpRound f sat v) (codeSize c)
  | none => []

/-- E8M0 block scale exponent (R29): none for 0xFF, which makes the block NaN. -/
def e8m0 (b : Nat) : Option Int := if b = 0xFF then none else some ((b : Int) - 127)

/-- Least E4M3 value, as bits, at or above a positive finite value; at most 448, at least 2^-9 (R51). -/
def e4m3RoundUp (v : FVal) : Nat :=
  let ok := (List.range 0x7F).filter (fun c => c ≥ 1 && fle v (fpDecode .e4m3 c))
  ok.headD 0x7E

/-- Round a positive finite value up to FP32 (R53). -/
def fp32RoundUp (v : FVal) : Nat :=
  let r := rne32 v
  if fle v (f32 r) then r else r + 1

/-- Round a value to an integer, ties to even, limited to lo..hi (R51). -/
def rneInt (lo hi : Int) (v : FVal) : Int :=
  match v with
  | .fin neg m e =>
    let r : Int := (rneAt m e 0 : Nat)
    max lo (min hi (if neg then -r else r))
  | .inf neg => if neg then lo else hi
  | .nan => 0

end Sys2Proof.Machine
end

