-- ==== Sys2Proof/Machine/Loads.lean ====
section
/-! DEFINITION. The sequencer's accesses: loads, stores, the store buffer, atomics, reservations, FENCE and FENCE.I
(R68 to R72, R91, R199 to R206, R211 to R214). An access that cannot be made yet leaves pc, asks for what it needs and is
issued again (R233). The order of a core's LOAD commands is the order in which it performs its loads (R202, log entry 106). -/

namespace Sys2Proof.Machine

/-- A meaning that always goes on. -/
abbrev Res := Host.Outcome State Fault Refusal

/-- The privilege of a load or store (mstatus.MPRV, RISC-V Privileged 1.12): true for machine mode. -/
def Core.dataMachine (c : Core) : Bool :=
  c.machineMode && !(bit c.mstatus.toNat 17 && decide (bits c.mstatus.toNat 12 11 = 0))

/-- Who a sequencer access comes from (R68, R180). -/
def State.seqReq (s : State) (g : Nat) : Requester :=
  { who := .seq ⟨g % 512, Nat.mod_lt _ (by decide)⟩, unit := some (3 * g), g := g, stream := g,
    fw := (s.core g).dataMachine, tag := bits (s.core g).wctx.toNat 11 0,
    pasid := bits (s.core g).wctx.toNat 31 12 }

/-- A user-mode access is shut out (R75 wctx.VALID). -/
def State.shutOut (s : State) (g : Nat) : Bool := !(s.core g).dataMachine && !bit (s.core g).wctx.toNat 33

/-- A line of the private arena is ready for a sequencer: its data cache holds it, in M if excl, or the request goes to the
home (R199, R352). At most four load misses are outstanding (R202). -/
def State.cacheReady (s : State) (g line : Nat) (excl : Bool) : Bool × State :=
  if s.coh.holds g line excl then (true, s)
  else if s.coh.reqs.any (fun r => r.1 = g && r.2.1 = line) then (false, s)
  else if !excl && decide (4 ≤ (s.coh.reqs.filter (fun r => r.1 = g && !r.2.2)).length) then (false, s)
  else (false, { s with coh := { s.coh with reqs := s.coh.reqs ++ [(g, line, excl)] } }.modCore g (·.count 8))

/-- A sequencer access made ready, line by line: space 0x2 through the data cache unless the granule is strict, the rest as
every access (R69). -/
def State.seqPrep (s : State) (q : Requester) (ptr len : Nat) (k : Kind) : Ready × State :=
  if space ptr = 2 && !s.strict q.g q.fw q.tag ptr then
    (linesOf ptr len).foldl (fun a p =>
      let key := a.2.physOf q.g q.fw q.tag p.1
      let s := a.2.touchL1 q p.1
      if (hbmStack key).isSome && s.allowed key q.fw false q.tag k.writes then
        let r := s.cacheReady q.g (lineOf key) k.writes
        (a.1.and (if r.1 then .ready else .wait), r.2)
      else (a.1, s)) (.ready, s)
  else s.prep q ptr len k

/-- Who a buffered store comes from: its sequencer, with the rights that the store carried. -/
def State.sbReq (s : State) (g : Nat) (e : SbEntry) : Requester := { s.seqReq g with fw := e.fw, tag := e.tag, pasid := e.pasid }

/-- The place of a target's byte: its memory key, or for an untranslated-only page its address under its function and PASID. -/
def State.place (s : State) (q : Requester) (t : Tgt) : Nat :=
  if t.io then t.key + 2 ^ 66 * (1 + s.reqPasid q + 2 ^ 21 * s.reqFn q) else t.key

/-- The places of the bytes of [ptr, ptr + len), line by line. -/
def State.placesOf (s : State) (q : Requester) (ptr len : Nat) : List Nat :=
  (linesOf ptr len).flatMap (fun p => (List.range p.2).map (s.place q (s.tgt q p.1) + ·))

/-- The bytes of a store buffer entry with their places. -/
def State.sbPlaces (s : State) (g : Nat) (e : SbEntry) : List (Nat × Byte) :=
  let q := s.sbReq g e
  e.bytes.map (fun b => (s.place q (s.tgt q (e.line + b.1 / 64 * 64)) + b.1 % 64, b.2))

/-- What the store buffer holds of the bytes of a load (R203). -/
inductive Forward where
  | none
  | all (bs : Bytes)
  | partly
deriving DecidableEq, Repr

/-- What an entry holds of the bytes at some places. -/
def coveredBy (held : List (Nat × Byte)) (places : List Nat) : List (Option Byte) :=
  places.map (fun k => (held.find? (fun b => b.1 = k)).map (·.2))

/-- Forwarding from the youngest entry that holds any of the bytes, if it holds all of them; otherwise the load waits. -/
def State.forward (s : State) (g : Nat) (places : List Nat) : Forward :=
  match ((s.core g).sb.reverse.map (fun e => coveredBy (s.sbPlaces g e) places)).find? (fun l => l.any Option.isSome) with
  | Option.none => .none
  | some l => if l.all Option.isSome then .all (l.map (·.getD 0)) else .partly

/-- A device-strict store of core g is not acknowledged yet (R214). -/
def State.strictPending (s : State) (g : Nat) : Bool := (s.core g).sb.any (fun e => s.strict g e.fw e.tag e.ptr.toNat)

/-- LOAD (R67 to R72, R202, R203, R226). -/
def execLoad (g : CoreId) (rd rs1 : Reg) (imm : BitVec 12) (kind : LoadKind) (c : Bool) (s : State) : Res :=
  let k := s.core g
  let a := effAddr (k.reg rs1) imm
  let n := loadBytes kind
  let q := s.seqReq g
  let strict := s.strictRange g q.fw q.tag a.toNat n
  if !s.canIssue g then .next s
  else if s.shutOut g || !s.mayName q.fw q.tag a.toNat n .read then .next (s.except g 5 a)
  else if strict && decide (a.toNat % n ≠ 0) then .next (s.except g 4 a)
  else if strict && s.strictPending g then .next s
  else
    match s.seqPrep q a.toNat n .read with
    | (.failed, s) => .next (s.except g 13 a)
    | (.wait, s) => .next s
    | (.ready, s) =>
      match if strict then .none else s.forward g (s.placesOf q a.toNat n) with
      | .partly => .next s
      | .all bs => .next (s.modCore g (fun x => x.finish rd (loadValue kind (leNat bs)) (instrLen c)))
      | .none =>
        match s.readRange q (s.unitCore g) a.toNat n with
        | (some bs, s) => .next ((s.dropIo q.who).modCore g (fun x => x.finish rd (loadValue kind (leNat bs)) (instrLen c)))
        | (Option.none, s) => .next ((s.dropIo q.who).except g 5 a)

/-- A store enters the buffer (R203): in merging mode it merges into the entry of its line, in program order. -/
def Core.buffer (c : Core) (e : SbEntry) : Core :=
  let same (x : SbEntry) : Bool := x.merge && x.line = e.line && x.tag = e.tag && x.pasid = e.pasid && x.fw = e.fw
  if e.merge && c.sb.any same then
    { c with sb := c.sb.map (fun x =>
        if same x then { x with bytes := e.bytes.foldl (fun m b => mapPut m b.1 b.2) x.bytes } else x) }
  else { c with sb := c.sb ++ [e] }

/-- The buffer entries of a store (R203): one in FIFO mode, one for each line it touches in merging mode. -/
def sbEntries (ptr : Nat) (bs : Bytes) (q : Requester) (merge : Bool) : List SbEntry :=
  let entry (p n : Nat) : SbEntry :=
    { line := lineOf p, ptr := BitVec.ofNat 64 ptr,
      bytes := (List.range n).map (fun i => (p % 64 + i, bs.getD (p - ptr + i) 0)), fw := q.fw, tag := q.tag,
      pasid := q.pasid, merge := merge }
  if merge then (linesOf ptr bs.length).map (fun p => entry p.1 p.2) else [entry ptr bs.length]

/-- The buffer takes these entries: at most 8 (R203). -/
def Core.sbRoom (c : Core) (es : List SbEntry) : Bool := decide ((es.foldl Core.buffer c).sb.length ≤ 8)

/-- The store is buffered if there is room, and stalls otherwise (R203). -/
def State.bufferStore (s : State) (g : Nat) (es : List SbEntry) (len : Nat) : State :=
  if (s.core g).sbRoom es then s.modCore g (fun x => (es.foldl Core.buffer x).retire len) else s

/-- The pages of a store are made ready for the buffer (R233): translated with the write right in space 0x0. -/
def State.storePrep (s : State) (q : Requester) (ptr len : Nat) : Ready × State :=
  if space ptr = 0 then
    (cutAt 4096 3 ptr len).foldl (fun (x : Ready × State) p =>
      match x.2.resolve q.who q.unit (q.g / 128) (s.reqFn q) (s.reqPasid q) p.1 false true with
      | (.failed, s) => (.failed, s)
      | (.wait, s) => (x.1.and .wait, s)
      | (_, s) => (x.1, s)) (.ready, s)
  else (.ready, s.touchL1 q ptr)

/-- STORE (R67 to R72, R203, R226): translated, checked and buffered. A device-strict store is performed at once; where its target
does not answer it waits in the buffer for the acknowledgement, and the next device-strict access with it (R204, R214). -/
def execStore (g : CoreId) (rs1 rs2 : Reg) (imm : BitVec 12) (size : MemSize) (c : Bool) (s : State) : Res :=
  let k := s.core g
  let a := effAddr (k.reg rs1) imm
  let n := storeBytes size
  let bs := natLe (k.reg rs2).toNat n
  let q := s.seqReq g
  if !s.canIssue g then .next s
  else if s.shutOut g || !s.mayName q.fw q.tag a.toNat n .write then .next (s.except g 7 a)
  else if s.strictRange g q.fw q.tag a.toNat n then
    if a.toNat % n ≠ 0 then .next (s.except g 6 a)
    else if s.strictPending g then .next s
    else if !s.allowed (s.physOf g q.fw q.tag a.toNat) q.fw false q.tag true then
      .next ((s.refusal (s.unitCore g) (s.physOf g q.fw q.tag a.toNat) q.fw q.ctx).except g 7 a)
    else if s.answers (s.physOf g q.fw q.tag a.toNat) then
      .next ((s.writeRange q (s.unitCore g) a.toNat bs).modCore g (·.retire (instrLen c)))
    else .next (s.bufferStore g (sbEntries a.toNat bs q false) (instrLen c))
  else
    match s.storePrep q a.toNat n with
    | (.failed, s) => .next (s.except g 15 a)
    | (.wait, s) => .next s
    | (.ready, s) =>
      .next (s.bufferStore g (sbEntries a.toNat bs q (!k.machineMode && bit k.wctx.toNat 32)) (instrLen c))

/-- The entry may leave the buffer now (R203): the oldest in FIFO mode; in merging mode any behind no FIFO entry. -/
def mayDrain (sb : List SbEntry) (i : Nat) : Bool :=
  match sb[i]? with
  | some e => if e.merge then (sb.take i).all (·.merge) else decide (i = 0)
  | none => false

/-- The bytes of a store by the line they go to: the line's pointer, and the bytes by offset in the line. -/
def sbLines (line : Nat) (part : List (Nat × Byte)) : List (Nat × List (Nat × Byte)) :=
  ([0, 1].map (fun i => (line + 64 * i, (part.filter (fun b => decide (b.1 / 64 = i))).map (fun b => (b.1 % 64, b.2))))).filter
    (fun l => !l.2.isEmpty)

/-- The bytes of a buffered store that go to one line are performed (R199, R210): the line's poison follows R194, reservations of
others are lost, a host line becomes M, and copies of a line of HBM that bypasses the cache are taken back. -/
def State.performLine (s : State) (g : Nat) (q : Requester) (l : Nat × List (Nat × Byte)) : State :=
  let t := s.tgt q l.1
  if t.io then
    l.2.foldl (fun s b => s.send (.untranslatedWrite (s.reqFn q) (s.reqPasid q) (t.key + b.1) [b.2])) s
  else
    let part := l.2.map (fun b => (t.key + b.1, b.2))
    let kept := s.mem.poison.filter (fun w =>
      part.any (fun b => b.1 / 8 = w) && !((List.range 8).all (fun i => part.any (fun b => b.1 = 8 * w + i))))
    let live := part.filter (fun b => !kept.contains (b.1 / 8))
    let m := live.foldl (fun (m : Memory) b => m.put b.1 b.2) s.mem
    let s := { s with mem := { m with poison := m.poison.filter (fun w =>
        kept.contains w || !part.any (fun b => b.1 / 8 = w)) } }
    let s := s.loseResv (lineOf t.key) g
    let s := if isHostKey t.key then
        { s with coh := { s.coh with dc := mapPut s.coh.dc (lineOf (t.key - 2 ^ 64)) .m } } else s
    let s := if space l.1 ≠ 2 && needsHome t.key then { s with coh := s.coh.recall (lineOf t.key) } else s
    if kept.isEmpty then s else s.report (event (ueSource t.key) (s.unitOfKey t.key) (kept.headD 0 * 8) q.ctx)

/-- A line of a buffered store is refused at its target (R186). -/
def State.lineRefused (s : State) (q : Requester) (ptr : Nat) : Bool :=
  let t := s.tgt q ptr
  !t.io && !isHostKey t.key && !s.allowed t.key q.fw t.host q.tag true

/-- A line of a buffered store has a target that answers (R179). -/
def State.lineAnswers (s : State) (q : Requester) (ptr : Nat) : Bool :=
  let t := s.tgt q ptr
  t.io || s.answers t.key

/-- STORE_BUFFER_DRAIN (R199, R203, R210): a FIFO entry is performed whole, a merging entry one aligned word at a time. A
refused line is not written and takes cause 7 when the refusal returns (R186); a store with a line whose target does not answer
stays (R204). -/
def execStoreBufferDrain (g : CoreId) (entry : Nat) (word : Fin 8) (s : State) : Res :=
  match (s.core g).sb[entry]? with
  | none => .next s
  | some e =>
    let part := if e.merge then e.bytes.filter (fun b => b.1 / 8 = word.val) else e.bytes
    let rest := if e.merge then e.bytes.filter (fun b => b.1 / 8 ≠ word.val) else []
    let q := s.sbReq g e
    let ls := sbLines e.line part
    let gone (s : State) : State := s.modCore g (fun c =>
      { c with sb := if rest.isEmpty then c.sb.eraseIdx entry else c.sb.set entry { e with bytes := rest } })
    if part.isEmpty || !s.coreUp g || !mayDrain (s.core g).sb entry then .next s
    else
      match ls.foldl (fun (a : Ready × State) l => let r := a.2.seqPrep q l.1 1 .write; (a.1.and r.1, r.2)) (.ready, s) with
      | (.failed, s) => .next ((gone s).exceptAt g 15 (s.core g).pc e.ptr)
      | (.wait, s) => .next s
      | (.ready, s) =>
        if ls.any (fun l => !s.lineRefused q l.1 && !s.lineAnswers q l.1) then .next s
        else
          let bad := ls.filter (fun l => s.lineRefused q l.1)
          let s' := (ls.filter (fun l => !s.lineRefused q l.1)).foldl (fun s l => s.performLine g q l) s
          if bad.isEmpty then .next (gone s')
          else
            .next ((bad.foldl (fun s l => s.refusal (s.unitCore g) (s.tgt q l.1).key q.fw q.ctx) (gone s')).exceptAt g 7 (s.core g).pc e.ptr)

/-- The store buffer holds a store to the line of a key. -/
def State.buffersLine (s : State) (g key : Nat) : Bool :=
  (s.core g).sb.any (fun e => (s.sbPlaces g e).any (fun b => decide (lineOf b.1 = lineOf key)))

/-- An atomic's place is ready (R211): host memory in M or E in the device cache, HBM at its home with the copies taken
back. -/
def State.atomPrep (s : State) (q : Requester) (ptr len : Nat) : Ready × State := s.prep q ptr len .atomic

/-- Spaces and regions where no atomic executes (R91, R211). An untranslated-only page has no place either (log entry 12). -/
def State.noAtomic (s : State) (q : Requester) (ptr : Nat) : Bool :=
  decide (3 ≤ space ptr) || s.strict q.g q.fw q.tag ptr || (decide (space ptr = 0) && (s.tgt q ptr).io)

/-- The common course of an atomic on n bytes: checks, ordering against the store buffer, readiness, refusal, poison; then
act gets the old value and answers the new one (none: nothing is written) with what the core becomes. Where several causes hold the
spec orders none of them: misalignment comes before the spaces and rights that take no atomic (R91), and poison before the refusal of
deterministic mode, which is then not counted (R57) (DESIGN CHOICE, log entry 103). -/
def State.atomic (s : State) (g : Nat) (ptr : Word) (n : Nat) (rl : Bool) (misaligned access pageFault : Nat)
    (refused : State → State) (act : State → Nat → Option Nat × State) : State :=
  let q := s.seqReq g
  let a := ptr.toNat
  if !s.canIssue g then s
  else if a % n ≠ 0 then s.except g misaligned ptr
  else if s.shutOut g || decide (3 ≤ space a) || !s.mayName q.fw q.tag a n .atomic || s.strict g q.fw q.tag a then
    s.except g access ptr
  else if rl && !(s.core g).sb.isEmpty then s
  else
    match s.atomPrep q a n with
    | (.failed, s) => s.except g pageFault ptr
    | (.wait, s) => if s.noAtomic q a && (s.xlt.waits.find? (·.isFor q.who (spaceOff a))).isNone && decide (space a = 0)
        && (s.tgt q a).key = spaceOff a then (s.dropIo q.who).except g access ptr else s
    | (.ready, s) =>
      let t := s.tgt q a
      if s.noAtomic q a then (s.dropIo q.who).except g access ptr
      else if s.buffersLine g t.key then s
      else if !isHostKey t.key && !s.allowed t.key q.fw t.host q.tag true then
        refused (s.refusal (s.unitCore g) t.key q.fw q.ctx)
      else if s.mem.poisoned t.key n then
        (s.report (event 8 (s.unitCore g) (s.mem.firstPoison t.key n) q.ctx)).except g access ptr
      else
        match act s (s.mem.nat t.key n) with
        | (some v, s) => s.storeLine t.key (natLe v n) q.ctx
        | (none, s) => s

/-- AMO (R211, R212, A extension): rd takes the old value; rl waits for the store buffer, aq needs nothing more, because
later accesses are issued later. -/
def execAmo (g : CoreId) (op : AmoOp) (dbl _aq rl : Bool) (rd rs1 rs2 : Reg) (s : State) : Res :=
  let n := if dbl then 8 else 4
  let p := (s.core g).reg rs1
  let v := (s.core g).reg rs2
  .next (s.atomic g p n rl 6 7 15 (fun s => s.except g 7 p) (fun s old =>
    (some (amoResult op (8 * n) old (v.toNat % 2 ^ (8 * n))), s.modCore g (fun c => c.finish rd (sext (8 * n) old) 4))))

/-- The floating-point atomics (R91, R57): refused with cause 26 and counted under deterministic mode. -/
def State.fpAtomic (s : State) (g n : Nat) (rl : Bool) (rd rs1 rs2 : Reg) (f : Nat → Nat → Nat) : State :=
  let p := (s.core g).reg rs1
  let v := (s.core g).reg rs2
  s.atomic g p n rl 6 7 15 (fun s => s.except g 7 p) (fun s old =>
    if s.boot.deterministic then
      let b := s.boot
      (none, { s with boot := { b with fpatomRefused := BitVec.ofNat 16 (satAdd 0xFFFF b.fpatomRefused.toNat 1) } }.except g 26 p)
    else (some (f old (v.toNat % 2 ^ (8 * n))), s.modCore g (fun c => c.finish rd (sext (8 * n) old) 4)))

/-- AMOFADD.S (R91): one rounding by RNE. -/
def execAmofaddS (g : CoreId) (_aq rl : Bool) (rd rs1 rs2 : Reg) (s : State) : Res :=
  .next (s.fpAtomic g 4 rl rd rs1 rs2 (fun a b => fpRound .fp32 false (fadd (fpDecode .fp32 a) (fpDecode .fp32 b))))

/-- AMOFMAX.S (R91). -/
def execAmofmaxS (g : CoreId) (_aq rl : Bool) (rd rs1 rs2 : Reg) (s : State) : Res :=
  .next (s.fpAtomic g 4 rl rd rs1 rs2 (fun a b => fpRound .fp32 false (vmaxF (fpDecode .fp32 a) (fpDecode .fp32 b))))

/-- AMOFADD.BF (R91). -/
def execAmofaddBf (g : CoreId) (_aq rl : Bool) (rd rs1 rs2 : Reg) (s : State) : Res :=
  .next (s.fpAtomic g 2 rl rd rs1 rs2 (fun a b => fpRound .bf16 false (fadd (fpDecode .bf16 a) (fpDecode .bf16 b))))

/-- AMOFMAX.BF (R91). -/
def execAmofmaxBf (g : CoreId) (_aq rl : Bool) (rd rs1 rs2 : Reg) (s : State) : Res :=
  .next (s.fpAtomic g 2 rl rd rs1 rs2 (fun a b => fpRound .bf16 false (vmaxF (fpDecode .bf16 a) (fpDecode .bf16 b))))

/-- LR (R213): the line is held where R211 executes it, in M for space 0x2, and the reservation is placed on it. It needs the right
to write, at translation (R226) and at the target (R185); a refused LR takes cause 5 and leaves the reservation (R186). -/
def execLr (g : CoreId) (dbl _aq rl : Bool) (rd rs1 : Reg) (s : State) : Res :=
  let n := if dbl then 8 else 4
  let p := (s.core g).reg rs1
  let q := s.seqReq g
  let a := p.toNat
  if !s.canIssue g then .next s
  else if a % n ≠ 0 then .next (s.except g 4 p)
  else if s.shutOut g || decide (3 ≤ space a) || !s.mayName q.fw q.tag a n .atomic || s.strict g q.fw q.tag a then
    .next (s.except g 5 p)
  else if rl && !(s.core g).sb.isEmpty then .next s
  else
    match s.seqPrep q a n .atomic with
    | (.failed, s) => .next (s.except g 13 p)
    | (.wait, s) => .next s
    | (.ready, s) =>
      let t := s.tgt q a
      if s.noAtomic q a then .next ((s.dropIo q.who).except g 5 p)
      else if s.buffersLine g t.key then .next s
      else if !isHostKey t.key && !s.allowed t.key q.fw t.host q.tag true then
        .next ((s.refusal (s.unitCore g) t.key q.fw q.ctx).except g 5 p)
      else
        match s.readRange q (s.unitCore g) a n with
        | (some bs, s) => .next (s.modCore g (fun c =>
            { c.finish rd (sext (8 * n) (leNat bs)) 4 with resv := some (lineOf t.key) }))
        | (none, s) => .next (s.except g 5 p)

/-- SC (R213): it succeeds only with the reservation held for its line, and may still fail for no reason, which an open value
decides; how often in succession it may is an open value too, so that every constrained loop succeeds in the end. It always
clears the reservation. A refused SC fails (R186). -/
def execSc (g : CoreId) (dbl _aq rl : Bool) (rd rs1 rs2 : Reg) (s : State) : Res :=
  let n := if dbl then 8 else 4
  let p := (s.core g).reg rs1
  let v := (s.core g).reg rs2
  let q := s.seqReq g
  let a := p.toNat
  let fail (s : State) : State := s.modCore g (fun c => { c.finish rd 1 4 with resv := none })
  if !s.canIssue g then .next s
  else if a % n ≠ 0 then .next (s.except g 6 p)
  else if s.shutOut g || decide (3 ≤ space a) || !s.mayName q.fw q.tag a n .atomic || s.strict g q.fw q.tag a then
    .next (s.except g 7 p)
  else if rl && !(s.core g).sb.isEmpty then .next s
  else if (s.core g).resv = none then .next (fail s)
  else
    match s.seqPrep q a n .atomic with
    | (.failed, s) => .next (s.except g 15 p)
    | (.wait, s) => .next s
    | (.ready, s) =>
      let t := s.tgt q a
      if s.noAtomic q a then .next ((s.dropIo q.who).except g 7 p)
      else if s.buffersLine g t.key then .next s
      else if !isHostKey t.key && !s.allowed t.key q.fw t.host q.tag true then
        .next (fail (s.refusal (s.unitCore g) t.key q.fw q.ctx))
      else if s.mem.poisoned t.key n then
        .next ((s.report (event 8 (s.unitCore g) (s.mem.firstPoison t.key n) q.ctx)).except g 7 p)
      else if (s.core g).resv ≠ some (lineOf t.key) then .next (fail s)
      else if s.draw.1 % 2 = 1 && decide ((s.core g).scFails < Config.unstated 213 g) then
        .next ((fail s.draw.2).modCore g (fun c => { c with scFails := c.scFails + 1 }))
      else
        let s := s.draw.2
        let s := { s with mem := s.mem.store t.key (natLe v.toNat n) }
        let s := if isHostKey t.key then
            { s with coh := { s.coh with dc := mapPut s.coh.dc (lineOf (t.key - 2 ^ 64)) .m } } else s
        let s := s.loseResv (lineOf t.key) g
        .next (s.modCore g (fun c => { c.finish rd 0 4 with resv := none, scFails := 0 }))

/-- RESERVATION_TIMEOUT (R213): 2^12 cycles have passed since the LR. -/
def execReservationTimeout (g : CoreId) (s : State) : Res := .next (s.modCore g (fun c => { c with resv := none }))

end Sys2Proof.Machine
end

