-- ==== Sys2Proof/Machine/Csr.lean ====
section
/-! DEFINITION. The CSRs (R73 to R75), the breakpoint, environment calls of a raw program (R92, R95) and interrupts (R93,
R96). -/

namespace Sys2Proof.Machine

/-! ### CSRs (R73, R75) -/

/-- Bit of mcounteren and mcountinhibit that a counter number has, if R73 lists it: 0, 2 to 10. -/
def counterBit (n : Nat) : Bool := decide (n = 0) || (decide (2 ≤ n) && decide (n ≤ 10))

/-- A counter by its bit: cycle, instret, hpmcounter3 to 10. -/
def Core.counter (c : Core) (i : Nat) : Word :=
  if i = 0 then c.mcycle else if i = 2 then c.minstret else mapGet 0 c.hpm i

/-- The core with a counter written. -/
def Core.setCounter (c : Core) (i : Nat) (v : Word) : Core :=
  if i = 0 then { c with mcycle := v } else if i = 2 then { c with minstret := v }
  else { c with hpm := mapSet 0 c.hpm i v }

/-- misa (R73). -/
def misaValue : Word := 0x8000_0000_0090_1105

/-- wcoreid (R75): G and SLOT. -/
def State.coreIdWord (s : State) (g : Nat) : Word := BitVec.ofNat 64 (g ||| s.slotOf g <<< 16)

/-- The value of CSR n of core g, if the number is implemented (R73, R75). -/
def State.csr (s : State) (g n : Nat) : Option Word :=
  let c := s.core g
  match n with
  | 0x300 => some c.mstatus
  | 0x301 => some misaValue
  | 0x304 => some c.mie
  | 0x305 => some c.mtvec
  | 0x306 => some c.mcounteren
  | 0x320 => some c.mcountinhibit
  | 0x340 => some c.mscratch
  | 0x341 => some c.mepc
  | 0x342 => some c.mcause
  | 0x343 => some c.mtval
  | 0x344 => some c.mipNow
  | 0x7C0 => some c.wctx
  | 0x7C1 => some c.wcyccmp
  | 0x800 => some c.wsemovf
  | 0x801 => some c.wbstat
  | 0x802 => some c.wengerr
  | 0xCC0 => some (s.coreIdWord g)
  | 0xF11 => some 0
  | 0xF12 => some 0
  | 0xF13 => some 1
  | 0xF14 => some (BitVec.ofNat 64 g)
  | n =>
    if 0x323 ≤ n ∧ n ≤ 0x32A then some (BitVec.ofNat 64 (n - 0x320))
    else if 0xB00 ≤ n ∧ n ≤ 0xB0A ∧ counterBit (n - 0xB00) then some (c.counter (n - 0xB00))
    else if 0xC00 ≤ n ∧ n ≤ 0xC0A ∧ counterBit (n - 0xC00) then some (c.counter (n - 0xC00))
    else none

/-- mstatus keeps MIE, MPIE, MPP 0b00 or 0b11, MPRV and TW (R73); another MPP keeps the old one. -/
def statusWrite (old v : Word) : Word :=
  let n := v.toNat &&& 0x22_1888
  BitVec.ofNat 64 (if bits n 12 11 = 1 ∨ bits n 12 11 = 2 then putBits n 12 11 (bits old.toNat 12 11) else n)

/-- mtvec keeps a base aligned to 256 B and mode 0 or 1 (R73); another mode keeps the old one. -/
def tvecWrite (old v : Word) : Word :=
  BitVec.ofNat 64 (v.toNat / 256 * 256 + (if bits v.toNat 1 0 ≤ 1 then bits v.toNat 1 0 else bits old.toNat 1 0))

/-- wbstat after a write of v (R75): DROPPED is W1C, and DROP_COUNT clears with it. -/
def wbstatWrite (old v : Word) : Word := if bit v.toNat 0 && bit old.toNat 0 then 0 else old

/-- wengerr after a write of v (R75): FIRST is W1C. -/
def wengerrWrite (old v : Word) : Word :=
  if bit v.toNat 19 then BitVec.ofNat 64 (putBits old.toNat 19 19 0) else old

/-- The core with CSR n written; a write to a register without writable fields is ignored (log entry 13). -/
def Core.csrWrite (c : Core) (n : Nat) (v : Word) : Core :=
  match n with
  | 0x300 => { c with mstatus := statusWrite c.mstatus v }
  | 0x304 => { c with mie := v &&& 0x7_0808 }
  | 0x305 => { c with mtvec := tvecWrite c.mtvec v }
  | 0x306 => { c with mcounteren := v &&& 0x7FD }
  | 0x320 => { c with mcountinhibit := v &&& 0x7FD }
  | 0x340 => { c with mscratch := v }
  | 0x341 => { c with mepc := BitVec.ofNat 64 (v.toNat / 2 * 2) }
  | 0x342 => { c with mcause := v }
  | 0x343 => { c with mtval := v }
  | 0x7C0 => { c with wctx := BitVec.ofNat 64 (bits v.toNat 33 0) }
  | 0x7C1 => { c with wcyccmp := v }
  | 0x800 => { c with wsemovf := c.wsemovf &&& ~~~v }
  | 0x801 => { c with wbstat := wbstatWrite c.wbstat v }
  | 0x802 => { c with wengerr := wengerrWrite c.wengerr v }
  | n => if 0xB00 ≤ n ∧ n ≤ 0xB0A ∧ counterBit (n - 0xB00) then c.setCounter (n - 0xB00) v else c

/-- The mode of core g may access CSR n: bits [9:8] of the number name the mode, and a user read of a counter needs its
mcounteren bit (R73, Privileged Architecture 1.12). -/
def Core.mayCsr (c : Core) (n : Nat) : Bool :=
  c.machineMode || (decide (bits n 9 8 = 0) && (!decide (0xC00 ≤ n ∧ n ≤ 0xC0A) || bit c.mcounteren.toNat (n - 0xC00)))

/-- What a CSR instruction writes. -/
def csrValue (op : CsrOp) (old src : Word) : Word :=
  match op with
  | .rw => src
  | .rs => old ||| src
  | .rc => old &&& ~~~src

/-- funct3 of a CSR instruction. -/
def csrF3 (op : CsrOp) (imm : Bool) : Nat :=
  (match op with | .rw => 1 | .rs => 2 | .rc => 3) + (if imm then 4 else 0)

/-- CSR_ACCESS (R67, R73, R75, R92): rd takes the old value; CSRRS and CSRRC with x0 or 0 do not write; an unimplemented
number, an unprivileged access and a write to a read-only number raise illegal instruction. -/
def execCsrAccess (g : CoreId) (csr : BitVec 12) (op : CsrOp) (useImm : Bool) (rd rs1 : Reg) (s : State) : Res :=
  let c := s.core g
  let src := if useImm then rs1.zeroExtend 64 else c.reg rs1
  let writes := decide (op = .rw) || decide (rs1 ≠ 0)
  let illegal := s.except g 2 (wordI opSystem (csrF3 op useImm) csr rs1 rd)
  if !s.canIssue g then .next s
  else if !c.mayCsr csr.toNat || (writes && decide (bits csr.toNat 11 10 = 3)) then .next illegal
  else
    match s.csr g csr.toNat with
    | none => .next illegal
    | some old => .next (s.modCore g (fun c =>
        let c := c.finish rd old 4
        if writes then c.csrWrite csr.toNat (csrValue op old src) else c))

/-! ### Breakpoint and environment calls (R92, R95) -/

/-- EBREAK (R92): cause 3, mtval the address of the instruction. -/
def execEbreak (g : CoreId) (_c : Bool) (s : State) : Res :=
  if !s.canIssue g then .next s else .next (s.except g 3 (s.core g).pc)

/-- The function number of an environment call (R95): a7. -/
def Core.a7 (c : Core) : Nat := (c.reg 17).toNat

/-- The part of core g in its raw program, if it runs one. -/
def State.progCore (s : State) (g : Nat) : Option ProgCore :=
  (s.programOf g).bind (fun p => p.cores.find? (fun c => c.g = g))

/-- The state with core g's part of its raw program changed. -/
def State.modProgCore (s : State) (g : Nat) (f : ProgCore → ProgCore) : State :=
  match s.programOf g with
  | none => s
  | some p =>
    { s with srv := { s.srv with programs := s.srv.programs.map (fun x =>
        if x = p then { x with cores := x.cores.map (fun c => if c.g = g then f c else c) } else x) } }

/-- An environment call is served by firmware (R95): the core traps with cause 8, and firmware returns to the instruction
after the call. -/
def Core.served (c : Core) : Core :=
  let t := c.fetched.trap false 8 c.pc 0
  let r := { t with mepc := t.mepc + 4 }.trapReturn
  { r with minstret := if bit r.mcountinhibit.toNat 2 then r.minstret else r.minstret + 1 }

/-- The environment call fn of core g: act where a raw program's user mode makes it, else the exception (R92). -/
def State.ecall (s : State) (g : Nat) (mine : Nat → Bool) (act : State) : State :=
  let c := s.core g
  if !s.canIssue g || !mine c.a7 then s
  else if c.machineMode then s.except g 11 0
  else if (s.progCore g).isSome then act
  else s.except g 8 0

/-- Every core of the program has called EXIT: it ends DONE once its queues are empty or halted (R96). -/
def State.allExited (s : State) (g : Nat) (p : Program) : State :=
  { s with srv := { s.srv with programs := s.srv.programs.map (fun x =>
      if x.started && decide (x.f = p.f) && decide (x.r = p.r) && decide (x.q = p.q) && decide (x.ending = .running)
          && x.cores.any (fun c => c.g = g) && x.cores.all (·.exited) then { x with ending := .done } else x) } }

/-- EXIT (R95): the core's part ends with exit code a0; firmware keeps the core. -/
def execExit (g : CoreId) (s : State) : Res :=
  .next (s.ecall g (· = 0)
    (match s.programOf g with
    | none => s
    | some p =>
      let s' := s.modProgCore g (fun c => { c with exited := true, code := (s.core g).reg 10 })
      let s' := s'.modCore g (fun c => { c.served with machineMode := true, parked := true })
      s'.allExited g p))

/-- REPORT (R95): a0 goes to the core's result slot. -/
def execReport (g : CoreId) (s : State) : Res :=
  .next (s.ecall g (· = 1)
    ((s.modProgCore g (fun c => { c with result := (s.core g).reg 10 })).modCore g Core.served))

/-- RENDEZVOUS (R95): the core's k-th call begins to wait. -/
def execRendezvous (g : CoreId) (s : State) : Res :=
  .next (s.ecall g (· = 2)
    (let k := ((s.progCore g).map (·.calls)).getD 0 + 1
     (s.modProgCore g (fun c => { c with calls := k })).modCore g (fun c =>
       { c.fetched.trap false 8 c.pc 0 with wait := .rendezvous k })))

/-- Every core of the set has called RENDEZVOUS k times or has exited. -/
def Program.met (p : Program) (k : Nat) : Bool := p.cores.all (fun c => c.exited || decide (k ≤ c.calls))

/-- RENDEZVOUS_RETURN (R95): the k-th call returns. -/
def execRendezvousReturn (g : CoreId) (s : State) : Res :=
  match (s.core g).wait, s.programOf g with
  | .rendezvous k, some p =>
    if p.met k && s.coreUp g && !(s.core g).parked then
      .next (s.modCore g (fun c =>
        let r := { c with wait := .none, mepc := c.mepc + 4 }.trapReturn
        { r with minstret := if bit r.mcountinhibit.toNat 2 then r.minstret else r.minstret + 1 }))
    else .next s
  | _, _ => .next s

/-- ECALL_OTHER_FUNCTION (R95): a0 = -1. -/
def execEcallOtherFunction (g : CoreId) (s : State) : Res :=
  .next (s.ecall g (fun n => decide (3 ≤ n)) (s.modCore g (fun c => c.served.setReg 10 (BitVec.allOnes 64))))

/-! ### Interrupts (R93, R75) -/

/-- A wait that an interrupt may break off (R86, R209, R233): every wait of the sequencer but one firmware serves. -/
def SeqWait.breaks : SeqWait → Bool
  | .rendezvous _ => false
  | _ => true

/-- TAKE_INTERRUPT (R93): the first pending and enabled interrupt is taken, mepc naming the instruction not yet executed;
the message of bit 3 or 11 is taken with it (log entry 14). -/
def execTakeInterrupt (g : CoreId) (s : State) : Res :=
  let c := s.core g
  if !s.coreUp g || c.parked || !c.wait.breaks then .next s
  else
    match c.interrupt with
    | none => .next s
    | some i => .next (s.modCore g (fun c =>
        let t := c.trap true i c.pc 0
        if i = 3 ∨ i = 11 then { t with mip := BitVec.ofNat 64 (putBits t.mip.toNat i i 0) } else t))

/-- WCYCCMP_MATCH (R75, R96): mcycle has reached wcyccmp, so interrupt 18 is pending; a raw program with a time limit that
expires ends ABORTED. -/
def execWcyccmpMatch (g : CoreId) (s : State) : Res :=
  let c := s.core g
  if !s.coreUp g || bit c.mcountinhibit.toNat 0 then .next s
  else
    let s' := s.modCore g (fun c => { c with mcycle := BitVec.ofNat 64 (max c.mcycle.toNat c.wcyccmp.toNat) })
    match s.programOf g with
    | some p => .next (if p.limit = 0 then s' else s'.endProgram p .aborted none)
    | none => .next s'

end Sys2Proof.Machine
end

