-- ==== Sys2Proof/Machine/Descriptor.lean ====
section
/-! DEFINITION. DMA descriptors as the queue holds them (R133 to R137, R142, R146) and their translation ahead of execution (R81,
R231). -/

namespace Sys2Proof.Machine

/-- Who a DMA access of channel ch comes from (R68, R134, R180). -/
def dmaReq (g : CoreId) (ch : Chan) (c : EngCmd) : Requester :=
  { who := .chan g ch, unit := some (3 * g.val + 1 + ch.val), g := g.val, stream := 512 + 2 * g.val + ch.val, fw := !c.user,
    tag := bits c.wctx.toNat 11 0,
    pasid := bits c.wctx.toNat 31 12 }

/-! ### Descriptor fields (R134) -/

/-- A pointer plus a signed offset, as a 64-bit address. -/
def ptrAdd (p : Nat) (o : Int) : Nat := ((p : Int) + o).toNat

def dType (d : Bytes) : Nat := cmdByte d 0
def dSfmt (d : Bytes) : Nat := cmdByte d 2 % 16
def dDfmt (d : Bytes) : Nat := cmdByte d 2 / 16
def dSat (d : Bytes) : Bool := bit (cmdByte d 3) 0
def dParam (d : Bytes) : Nat := fieldLe d 4 4
def dSrc (d : Bytes) : Nat := fieldLe d 8 8
def dDst (d : Bytes) : Nat := fieldLe d 16 8

/-- The counts and strides of a STRIDED descriptor (R142). -/
def stridedN (d : Bytes) (k : Nat) : Nat := fieldLe d (24 + 2 * k) 2
def stridedS (d : Bytes) (base k : Nat) : Int := fieldS32 d (base + 4 * k)

/-- Source and destination pointer of row i of a STRIDED, i1 fastest (R142). -/
def stridedRow (d : Bytes) (i : Nat) : Nat × Nat :=
  let i1 := i % stridedN d 0
  let i2 := i / stridedN d 0 % stridedN d 1
  let i3 := i / stridedN d 0 / stridedN d 1
  let off (base : Nat) : Int := i1 * stridedS d base 0 + i2 * stridedS d base 1 + i3 * stridedS d base 2
  (ptrAdd (dSrc d) (off 32), ptrAdd (dDst d) (off 44))

/-- The fields of KVPUT and KVGET (R146). -/
structure Kv where
  put : Bool
  row : Nat
  fmt : Nat
  pos : Nat
  pt : Nat
  count : Nat
  g : Nat
  hlen : Nat
  fp8 : Bool
  ring : Bool
  stride : Nat
  ptLen : Nat

/-- The layout of R146. -/
def kvOf (d : Bytes) : Kv :=
  let put := decide (dType d = 5)
  { put := put, row := if put then dSrc d else dDst d, fmt := if put then dSfmt d else dDfmt d, pos := dParam d,
    pt := fieldLe d 24 8, count := fieldLe d 32 2, g := fieldLe d 34 2, hlen := cmdByte d 36, fp8 := bit (cmdByte d 37) 0,
    ring := bit (cmdByte d 37) 1, stride := fieldLe d 38 2, ptLen := fieldLe d 40 4 }

/-- Bytes of one row of elements. -/
def Kv.rowLen (k : Kv) : Nat := 64 * k.g * codeSize k.fmt

/-- The page-table entry that token i of KVPUT or KVGET goes by (R145, R147). -/
def Kv.entry (k : Kv) (i : Nat) : Nat := if k.ring then (k.pos + i) / 256 % k.ptLen else (k.pos + i) / 256

/-- Tiles of a descriptor (R137). -/
def tileCount (d : Bytes) : Nat :=
  match dType d with
  | 1 => (fieldLe d 24 8 + 65535) / 65536
  | 2 => stridedN d 0 * stridedN d 1 * stridedN d 2
  | 3 => fieldLe d 32 4
  | 4 => fieldLe d 32 4
  | 5 => fieldLe d 32 2
  | 6 => fieldLe d 32 2
  | _ => 0

/-! ### Translation ahead of execution (R81, R231) -/

/-- Index word i of a GATHER or SCATTER, once its page is translated. -/
def State.indexAhead (s : State) (q : Requester) (d : Bytes) (i : Nat) : Option Nat :=
  let t := s.tgt q (fieldLe d 24 8 + 4 * i)
  if t.io then none else some (s.mem.nat t.key 4)

/-- The ranges that tile i touches, as far as they are known before it runs: pointer, length, whether they are written (R137,
R141 to R147). A row of GATHER and SCATTER on the indexed side is known once its index word can be read. -/
def State.tileRanges (s : State) (q : Requester) (d : Bytes) (i : Nat) : List (Nat × Nat × Bool) :=
  match dType d with
  | 1 =>
    let n := min 65536 (fieldLe d 24 8 - 65536 * i)
    [(dSrc d + 65536 * i, n, false), (dDst d + 65536 * i, n, true)]
  | 2 => [((stridedRow d i).1, dParam d % 2 ^ 17, false), ((stridedRow d i).2, dParam d % 2 ^ 17, true)]
  | 5 | 6 =>
    let k := kvOf d
    [(k.pt + 8 * k.entry i, 8, false), (k.row + 16 * k.stride * i, k.rowLen, !k.put)]
  | 3 | 4 =>
    let scatter := decide (dType d = 4)
    let row := dParam d % 2 ^ 17
    let x := s.indexAhead q d i
    let src := (if scatter then some i else x).map (fun j => (dSrc d + j * fieldLe d 40 4, row, false))
    let dst := (if scatter then x else some i).map (fun j => (dDst d + j * fieldLe d 44 4, row, true))
    (fieldLe d 24 8 + 4 * i, 4, false) :: (src.toList ++ dst.toList)
  | _ => []

/-- The index list of a descriptor that has one (R143). -/
def indexRange (d : Bytes) : List (Nat × Nat × Bool) :=
  if dType d = 3 ∨ dType d = 4 then [(fieldLe d 24 8, 4 * min 65536 (fieldLe d 32 4), false)] else []

/-- The space-0x0 pages of some ranges that the requester may name, in order: address, and whether they are written. -/
def State.pagesAhead (s : State) (q : Requester) (rs : List (Nat × Nat × Bool)) : List (Nat × Bool) :=
  rs.flatMap (fun r =>
    if space r.1 = 0 && decide (r.2.1 ≠ 0) && s.mayName q.fw q.tag r.1 r.2.1 (if r.2.2 then .write else .read) then
      (cutAt 4096 (r.2.1 / 4096 + 2) r.1 r.2.1).map (fun p => (p.1 / 4096 * 4096, r.2.2))
    else [])

/-- One page is translated ahead (R231): from the L2 into the L1, unless the entry that would go is needed by an earlier tile, or by
a translation request. No page request is sent. -/
def State.aheadPage (s : State) (q : Requester) (needed : List Nat) (va : Nat) (wr : Bool) : State :=
  match q.unit with
  | none => s
  | some u =>
    let fn := s.reqFn q
    let l := mapGet [] s.xlt.l1 u
    if l.any (·.hits fn (s.reqPasid q) va) then s
    else
      let r := s.xlt.lookup q.unit (q.g / 128) fn (s.reqPasid q) va
      match r.1 with
      | some _ =>
        match l[l1Size u - 1]? with
        | some v => if needed.any (fun n => v.hits fn (s.reqPasid q) n) then s else { s with xlt := r.2 }
        | none => { s with xlt := r.2 }
      | none => { s with xlt := r.2 }.askAts (q.g / 128) fn (s.reqPasid q) va (!wr)

/-- Some ranges are translated ahead, in order. -/
def State.aheadRanges (s : State) (q : Requester) (rs : List (Nat × Nat × Bool)) : State :=
  ((s.pagesAhead q rs).foldl (fun (a : List Nat × State) p => (a.1 ++ [p.1], a.2.aheadPage q a.1 p.1 p.2)) ([], s)).2

/-- A command enters a DMA queue (R81, R231): each descriptor's index list and first tile are translated. -/
def State.aheadQueued (s : State) (g : CoreId) (ch : Chan) (c : EngCmd) : State :=
  (List.range (c.bytes.length / 64)).foldl (fun s i =>
    let d := c.descriptor i
    s.aheadRanges (dmaReq g ch c) (indexRange d ++ s.tileRanges (dmaReq g ch c) d 0)) s

/-- The tiles that a channel runs next, at most n: command, descriptor and tile, from the executing descriptor on. -/
def tilesAhead (n : Nat) (cmds : List EngCmd) : List (EngCmd × Bytes × Nat) :=
  (cmds.flatMap (fun c =>
    (List.range (c.bytes.length / 64 - c.desc)).flatMap (fun j =>
      let d := c.descriptor (c.desc + j)
      let t := if j = 0 then c.tile else 0
      (List.range (min n (tileCount d - t))).map (fun i => (c, d, t + i))))).take n

/-- A channel that executes translates the next tile to start and the 16 after it, on into the descriptors that follow (R231). -/
def State.ahead (s : State) (g : CoreId) (ch : Chan) : State :=
  match ((s.core g).queue (2 + ch.val)).cmds with
  | c :: l =>
    if c.phase = .started then
      (tilesAhead 17 (c :: l)).foldl (fun s x => s.aheadRanges (dmaReq g ch x.1) (s.tileRanges (dmaReq g ch x.1) x.2.1 x.2.2)) s
    else s
  | [] => s

end Sys2Proof.Machine
end

