-- ==== Sys2Proof/Machine/Engine.lean ====
section
/-! DEFINITION. Dispatch and the engine queues (R76 to R84), semaphores (R85 to R88), barriers and their timeouts (R89,
R90, R204 to R209), FENCE and FENCE.I (R70, R71). An instruction that stalls leaves pc and is issued again, or waits in
the state that SeqWait names. -/

namespace Sys2Proof.Machine

/-! ### Commands of a queue -/

/-- The command at the head of a queue, if the head is a command. -/
def Queue.head (x : Queue) : Option EngCmd :=
  match x.items with
  | .cmd c :: _ => some c
  | _ => none

/-- The queue with its head command changed. -/
def Queue.setHead (x : Queue) (c : EngCmd) : Queue :=
  match x.items with
  | .cmd _ :: l => { x with items := .cmd c :: l }
  | _ => x

/-- The head command of queue q of core g. -/
def State.head (s : State) (g q : Nat) : Option EngCmd := ((s.core g).queue q).head

/-- The state with that command changed. -/
def State.setHead (s : State) (g q : Nat) (c : EngCmd) : State :=
  s.modCore g (fun k => k.setQueue q ((k.queue q).setHead c))

/-- Markers pending in a queue (R208). -/
def Queue.markers (x : Queue) : Nat := (x.items.filter (fun i => match i with | .marker _ => true | _ => false)).length

/-- No store to core SRAM of core g is still buffered (R77, R206). -/
def Core.sramPerformed (c : Core) : Bool := c.sb.all (fun e => decide (space e.line ≠ 4))

/-- What EDISP copies (R77, R133): 32 bytes, or a chain of descriptors of 64 bytes. -/
def State.commandBytes (s : State) (g f3 off : Nat) : Nat :=
  if f3 < 2 then 32 else 64 * (bits (s.mem.byte (coreSramPa g (off + 1))).toNat 5 0 + 1)

/-- The rs1 value of a dispatch is at fault (R77, R133). -/
def State.badCommand (s : State) (g f3 : Nat) (p : Word) : Bool :=
  let a := p.toNat
  decide (2 ^ 20 ≤ a) || decide (a % (if f3 < 2 then 32 else 64) ≠ 0) ||
    decide ((if (s.core g).machineMode then 0x10_0000 else 0xF_0000) < a + s.commandBytes g f3 a)

/-- EDISP (R77 to R81, R92, R133): a chain that enters a DMA queue is translated ahead (R231). -/
def execEdisp (g : CoreId) (f7 : BitVec 7) (f3 : BitVec 3) (rs2 rs1 rd : Reg) (s : State) : Res :=
  let c := s.core g
  let a := c.reg rs1
  let w := c.reg rs2
  let q := f3.toNat
  if !s.canIssue g then .next s
  else if 4 ≤ q || f7.toNat / 2 ≠ 0 then
    .next (s.except g 2 (wordR opDispatch f7.toNat f3.toNat rs2 rs1 rd))
  else if decide (2 ^ 20 ≤ a.toNat) || decide (a.toNat % (if q < 2 then 32 else 64) ≠ 0) then .next (s.except g 24 a)
  else if !c.sramPerformed then .next s
  else
    let n := s.commandBytes g q a.toNat
    if s.badCommand g q a then .next (s.except g 24 a)
    else if s.mem.poisoned (coreSramPa g a.toNat) n then
      let tag := if c.machineMode then none else some (bits c.wctx.toNat 11 0)
      let s' := s.report (event 1 (s.unitCore g) (s.mem.firstPoison (coreSramPa g a.toNat) n) tag)
      .next (s'.except g 24 a)
    else if syncBad w then .next (s.except g 24 w)
    else if c.halted q then .next (s.modCore g (fun c => c.finish rd 0 4))
    else
      let x := c.queue q
      let t := nextTicket x.issued
      let cmd : EngCmd :=
        { ticket := t, bytes := s.mem.read (coreSramPa g a.toNat) n, sync := w, user := !c.machineMode, wctx := c.wctx,
          phase := .queued, desc := 0, tile := 0, checked := false, joined := false }
      if x.used q + cmd.entries q ≤ queueDepth q then
        let s := s.modCore g (fun c =>
          (c.setQueue q { x with items := x.items ++ [.cmd cmd], issued := t }).finish rd (t.zeroExtend 64) 4)
        .next (if q < 2 then s else s.aheadQueued g ⟨(q - 2) % 2, Nat.mod_lt _ (by decide)⟩ cmd)
      else if f7.toNat % 2 = 1 then .next (s.modCore g (fun c => c.finish rd 0 4))
      else .next s

/-- The command of queue q starts, having consumed its semaphore count (R79). -/
def Core.start (c : Core) (q : Nat) (cmd : EngCmd) : Core :=
  let c := c.setQueue q ((c.queue q).setHead { cmd with phase := .started })
  if syncWaitEn cmd.sync then
    { c.setSem (syncWaitSem cmd.sync) (c.sem (syncWaitSem cmd.sync) - syncWaitCount cmd.sync) with
      semWaits := c.semWaits.filter (fun w => w.2 ≠ q + 1) }
  else c

/-- A command that may start starts; one whose opcode or first descriptor type is reserved halts its queue (R83). A DMA channel
translates its next tiles (R231). -/
def State.startCmd (s : State) (g : CoreId) (q : Nat) (c : Core) (cmd : EngCmd) : State :=
  let s := s.setCore g (c.start q cmd)
  if reservedOp q cmd.bytes then s.halt g q 1 cmd.ticket
  else if q < 2 then s else s.ahead g ⟨(q - 2) % 2, Nat.mod_lt _ (by decide)⟩

/-- A waiting command begins its wait on its semaphore (R79, R85). -/
def Core.beginWait (c : Core) (q : Nat) (cmd : EngCmd) : Core :=
  let c := c.setQueue q ((c.queue q).setHead { cmd with phase := .waiting })
  if c.semWaits.any (fun w => w.2 = q + 1) then c
  else { c with semWaits := c.semWaits ++ [(syncWaitSem cmd.sync, q + 1)] }

/-- COMMAND_START (R79, R85): the head command starts, or begins to wait on its semaphore. -/
def execCommandStart (g : CoreId) (q : QueueId) (s : State) : Res :=
  match s.head g q.val with
  | some cmd =>
    let c := s.core g
    if !s.coreUp g || c.halted q.val || decide (cmd.phase ≠ .queued ∧ cmd.phase ≠ .waiting) then .next s
    else if !syncWaitEn cmd.sync then .next (s.startCmd g q.val c cmd)
    else
      let b := c.beginWait q.val cmd
      if b.firstWaiter (syncWaitSem cmd.sync) (q.val + 1) && decide (syncWaitCount cmd.sync ≤ b.sem (syncWaitSem cmd.sync))
      then .next (s.startCmd g q.val b cmd)
      else .next (s.setCore g b)
  | none => .next s

/-- The signal of a command (R79). -/
def State.signalOf (s : State) (g : Nat) (cmd : EngCmd) : State :=
  if syncSigEn cmd.sync then s.signal g (syncSigSem cmd.sync) (syncSigCount cmd.sync) else s

/-- OPERAND_RELEASE (R79): the command has read its inputs and signals here if SIG_ON is 1. -/
def execOperandRelease (g : CoreId) (q : QueueId) (s : State) : Res :=
  match s.head g q.val with
  | some cmd =>
    if decide (cmd.phase = .finished) && s.coreUp g && !(s.core g).halted q.val then
      let s := s.setHead g q.val { cmd with phase := .released }
      .next (if syncSigOn cmd.sync then s.signalOf g cmd else s)
    else .next s
  | none => .next s

/-- The head command leaves its queue, completed. -/
def Queue.complete (x : Queue) (cmd : EngCmd) : Queue := { x with items := x.items.drop 1, completed := cmd.ticket }

/-- COMMAND_COMPLETION (R79, R80, R205): the completed counter takes the ticket and the command signals here if SIG_ON is
0; a command whose operand release was not yet signalled signals it first. -/
def execCommandCompletion (g : CoreId) (q : QueueId) (s : State) : Res :=
  match s.head g q.val with
  | some cmd =>
    if (decide (cmd.phase = .finished) || decide (cmd.phase = .released)) && s.coreUp g && !(s.core g).halted q.val then
      let s := s.modCore g (fun c => c.setQueue q.val ((c.queue q.val).complete cmd))
      .next (if !syncSigOn cmd.sync || decide (cmd.phase = .finished) then s.signalOf g cmd else s)
    else .next s
  | none => .next s

/-! ### Engine control (R82, R84) -/

/-- The condition of EWAIT (R82). -/
def Core.ewaitDone (c : Core) (imm : BitVec 12) (target : BitVec 32) : Bool :=
  if imm.toNat = 4 then (List.range 4).all (fun q => (c.queue q).cmds.isEmpty || c.halted q)
  else ticketReached (c.queue imm.toNat).completed target || c.halted imm.toNat

/-- The result of EWAIT. -/
def Core.ewaitValue (c : Core) (imm : BitVec 12) : Word :=
  if imm.toNat = 4 then 0 else ((c.queue imm.toNat).completed).zeroExtend 64

/-- EWAIT (R82). -/
def execEwait (g : CoreId) (imm : BitVec 12) (rs1 rd : Reg) (s : State) : Res :=
  let c := s.core g
  if !s.canIssue g then .next s
  else if 5 ≤ imm.toNat then .next (s.except g 2 (wordI opControl 0 imm rs1 rd))
  else
    let t := (c.reg rs1).truncate 32
    if c.ewaitDone imm t then .next (s.modCore g (fun c => c.finish rd (c.ewaitValue imm) 4))
    else .next (s.modCore g (fun c => { c with wait := .queue imm t rd }))

/-- EWAIT_RETURN (R82). -/
def execEwaitReturn (g : CoreId) (s : State) : Res :=
  match (s.core g).wait with
  | .queue imm t rd =>
    if s.coreUp g && (s.core g).ewaitDone imm t then
      .next (s.modCore g (fun c => { c with wait := .none }.finish rd (c.ewaitValue imm) 4))
    else .next s
  | _ => .next s

/-- The status word of a queue (R82). -/
def Core.eqstat (c : Core) (q : Nat) : Word :=
  let x := c.queue q
  let waiting := match x.head with | some cmd => decide (cmd.phase = .waiting) | none => false
  BitVec.ofNat 64 (x.cmds.length ||| queueDepth q <<< 8 ||| b2n (c.halted q) <<< 16 ||| b2n waiting <<< 17
    ||| x.issued.toNat <<< 32)

/-- EQSTAT (R82). -/
def execEqstat (g : CoreId) (imm : BitVec 12) (rs1 rd : Reg) (s : State) : Res :=
  if !s.canIssue g then .next s
  else if 4 ≤ imm.toNat || rs1 ≠ 0 then .next (s.except g 2 (wordI opControl 1 imm rs1 rd))
  else .next (s.modCore g (fun c => c.finish rd (c.eqstat imm.toNat) 4))

/-- The queue cleared (R82, R209): its commands and markers are gone, and the completed counter is the last ticket. -/
def Core.clear (c : Core) (q : Nat) : Core :=
  let x := c.queue q
  { c.setQueue q { items := [], issued := x.issued, completed := x.issued } with
    wengerr := BitVec.ofNat 64 (putBits c.wengerr.toNat q q 0), semWaits := c.semWaits.filter (fun w => w.2 ≠ q + 1) }

/-- ECLR (R82, R84). -/
def execEclr (g : CoreId) (imm : BitVec 12) (rs1 rd : Reg) (s : State) : Res :=
  let q := imm.toNat
  if !s.canIssue g then .next s
  else if 4 ≤ q || rs1 ≠ 0 then .next (s.except g 2 (wordI opControl 2 imm rs1 rd))
  else if (s.core g).halted q then
    let s := s.quietChan g q
    .next (s.modCore g (fun c => (c.clear q).finish rd (BitVec.ofNat 64 (c.queue q).cmds.length) 4))
  else .next (s.modCore g (fun c => c.finish rd 0 4))

/-! ### Semaphores (R86 to R88) -/

/-- A semaphore instruction of funct3 f3 that is not refused as illegal: act on semaphore n. -/
def State.semInstr (s : State) (g f3 : Nat) (imm : BitVec 12) (rs1 rd : Reg) (bad : Bool) (act : Nat → State) : State :=
  if !s.canIssue g then s
  else if 64 ≤ imm.toNat || bad then s.except g 2 (wordI opSem f3 imm rs1 rd)
  else act imm.toNat

/-- SEMSIG (R86, R87, R206). -/
def execSemsig (g : CoreId) (imm : BitVec 12) (rs1 rd : Reg) (s : State) : Res :=
  .next (s.semInstr g 0 imm rs1 rd false (fun n =>
    let c := s.core g
    if !c.sramPerformed then s
    else (s.modCore g (fun k => k.finish rd (BitVec.ofNat 64 (c.sem n)) 4)).signal g n (bits (c.reg rs1).toNat 15 0)))

/-- SEMWAIT (R86): it returns at once, or begins to wait. -/
def execSemwait (g : CoreId) (imm : BitVec 12) (rs1 rd : Reg) (s : State) : Res :=
  .next (s.semInstr g 1 imm rs1 rd false (fun n =>
    let c := s.core g
    let k := bits (c.reg rs1).toNat 15 0
    if k = 0 then s.modCore g (fun c => c.finish rd (BitVec.ofNat 64 (c.sem n)) 4)
    else if !c.semWaits.any (fun w => w.1 = n) && decide (k ≤ c.sem n) then
      s.modCore g (fun c => (c.setSem n (c.sem n - k)).finish rd (BitVec.ofNat 64 (c.sem n - k)) 4)
    else s.modCore g (fun c => { c with wait := .sem n k rd, semWaits := c.semWaits ++ [(n, 0)] })))

/-- The sequencer's wait on semaphore n is granted (R86). -/
def Core.grantSeq (c : Core) (n k : Nat) (rd : Reg) : Core :=
  let v := c.sem n - k
  { c.setSem n v with wait := .none, semWaits := c.semWaits.filter (fun w => w.2 ≠ 0) }.finish rd (BitVec.ofNat 64 v) 4

/-- SEMWAIT_GRANT (R85, R79, R86): the first wait on semaphore n is granted if the value suffices. -/
def execSemwaitGrant (g : CoreId) (n : Fin 64) (s : State) : Res :=
  let c := s.core g
  if !s.coreUp g then .next s
  else
    match c.semWaits.find? (fun w => w.1 = n.val) with
    | none => .next s
    | some (_, 0) =>
      match c.wait with
      | .sem _ k rd => .next (if k ≤ c.sem n then s.modCore g (fun c => c.grantSeq n k rd) else s)
      | _ => .next s
    | some (_, q + 1) =>
      match (c.queue q).head with
      | some cmd => .next (if syncWaitCount cmd.sync ≤ c.sem n && !c.halted q then s.startCmd g q c cmd else s)
      | none => .next s

/-- SEMTRY (R86, R88). -/
def execSemtry (g : CoreId) (imm : BitVec 12) (rs1 rd : Reg) (s : State) : Res :=
  .next (s.semInstr g 2 imm rs1 rd false (fun n =>
    let c := s.core g
    let k := bits (c.reg rs1).toNat 15 0
    if !c.semWaits.any (fun w => w.1 = n) && decide (0 < k) && decide (k ≤ c.sem n) then
      s.modCore g (fun c => (c.setSem n (c.sem n - k)).finish rd 1 4)
    else s.modCore g (fun c => c.finish rd 0 4)))

/-- SEMRD (R86). -/
def execSemrd (g : CoreId) (imm : BitVec 12) (rs1 rd : Reg) (s : State) : Res :=
  .next (s.semInstr g 3 imm rs1 rd (decide (rs1 ≠ 0)) (fun n =>
    s.modCore g (fun c => c.finish rd (BitVec.ofNat 64 (c.sem n)) 4)))

/-- SEMSET (R86, R206). -/
def execSemset (g : CoreId) (imm : BitVec 12) (rs1 rd : Reg) (s : State) : Res :=
  .next (s.semInstr g 4 imm rs1 rd (decide (rd ≠ 0)) (fun n =>
    if !(s.core g).sramPerformed then s
    else s.modCore g (fun c => (c.setSem n (bits (c.reg rs1).toNat 15 0)).retire 4)))

/-! ### Barriers (R89, R207 to R209) -/

/-- The queues that an engine mask names (R89): matrix, vector, both DMA channels. -/
def maskQueues (m : BitVec 4) : List Nat :=
  (if bit m.toNat 1 then [0] else []) ++ (if bit m.toNat 2 then [1] else []) ++ (if bit m.toNat 3 then [2, 3] else [])

/-- A queue has reached the marker: it stands at the head, the queue is halted, or ECLR discarded the marker. -/
def Core.reached (c : Core) (q id : Nat) : Bool :=
  let x := c.queue q
  (match x.items with | .marker i :: _ => decide (i = id) | _ => false) || c.halted q ||
    !x.items.any (fun i => decide (i = .marker id))

/-- The barrier's marker completes (R207, R208): every engine of the mask has reached it, and the earlier accesses that it
orders first are performed: reads are, writes to targets that do not answer are not, buffered stores are not. -/
def Core.barrierDone (c : Core) (b : Barrier) : Bool :=
  (maskQueues b.mask).all (fun q => c.reached q b.id) &&
    (decide (b.kind = .load) ||
      ((!bit b.mask.toNat 0 || c.sb.isEmpty) && (maskQueues b.mask).all (fun q => c.deadWrites.all (fun w => w.q ≠ q))))

/-- The barrier is gone from the queues, and the sequencer goes on if it waits for it. -/
def Core.passBarrier (c : Core) (b : Barrier) : Core :=
  let c := { c with barriers := c.barriers.filter (fun x => x.id ≠ b.id),
                    queues := c.queues.map (fun p =>
                      (p.1, { p.2 with items := p.2.items.filter (fun i => decide (i ≠ .marker b.id)) })) }
  if c.wait = .barrier b.id then { c with wait := .none }.retire 4 else c

/-- A barrier is placed (R207, R208): with a full queue of markers the sequencer stalls; with bit 0 it waits unless the
marker completes at once; without bit 0 it goes on. -/
def State.placeBarrier (s : State) (g : Nat) (kind : BarKind) (mask : BitVec 4) : State :=
  let c := s.core g
  if (maskQueues mask).any (fun q => 8 ≤ (c.queue q).markers) then s
  else
    let b : Barrier := { id := c.nextBarrier, kind := kind, mask := mask }
    let c := (maskQueues mask).foldl (fun c q =>
      c.setQueue q { c.queue q with items := (c.queue q).items ++ [.marker b.id] }) c
    let c := { c with nextBarrier := c.nextBarrier + 1, barriers := c.barriers ++ [b] }
    let c := if bit mask.toNat 0 then { c with wait := .barrier b.id } else c.retire 4
    s.setCore g (if c.barrierDone b then c.passBarrier b else c)

/-- A barrier instruction of funct3 f3 (R89). -/
def State.barrierInstr (s : State) (g f3 : Nat) (kind : BarKind) (imm : BitVec 12) (rs1 rd : Reg) : State :=
  if !s.canIssue g then s
  else if imm.toNat = 0 || 16 ≤ imm.toNat || rs1 ≠ 0 || rd ≠ 0 then s.except g 2 (wordI opBarrier f3 imm rs1 rd)
  else s.placeBarrier g kind (imm.truncate 4)

/-- LBAR (R89, R207). -/
def execLbar (g : CoreId) (imm : BitVec 12) (rs1 rd : Reg) (s : State) : Res := .next (s.barrierInstr g 0 .load imm rs1 rd)

/-- SBAR (R89, R207). -/
def execSbar (g : CoreId) (imm : BitVec 12) (rs1 rd : Reg) (s : State) : Res := .next (s.barrierInstr g 1 .store imm rs1 rd)

/-- FBAR (R89, R207). -/
def execFbar (g : CoreId) (imm : BitVec 12) (rs1 rd : Reg) (s : State) : Res := .next (s.barrierInstr g 2 .full imm rs1 rd)

/-- FENCE (R71): FBAR with a mask naming the sequencer alone, whatever its sets. -/
def execFence (g : CoreId) (_fm _pred _succ : BitVec 4) (s : State) : Res :=
  if !s.canIssue g then .next s else .next (s.placeBarrier g .full 1)

/-- FENCE_I (R70): it waits for the earlier stores and invalidates the whole instruction cache. -/
def execFenceI (g : CoreId) (s : State) : Res :=
  if !s.canIssue g || !(s.core g).sb.isEmpty then .next s
  else .next (s.modCore g (fun c => { c.retire 4 with icache := [] }))

/-- BARRIER_MARKER_COMPLETE (R208): the first barrier whose marker completes lets its queues go on. -/
def execBarrierMarkerComplete (g : CoreId) (s : State) : Res :=
  match (s.core g).barriers.find? (fun b => (s.core g).barrierDone b) with
  | none => .next s
  | some b => .next (if s.coreUp g then s.modCore g (fun c => c.passBarrier b) else s)

/-- Every target of a buffered store answers (R179). -/
def State.sbAnswers (s : State) (g : Nat) (e : SbEntry) : Bool :=
  (sbLines e.line e.bytes).all (fun l => s.lineAnswers (s.sbReq g e) l.1)

/-- Every buffered store to a target that does not answer is dropped, counted and reported (R90). -/
def State.dropStores (s : State) (g : Nat) : State :=
  let dead := (s.core g).sb.filter (fun e => !s.sbAnswers g e)
  let first := ((dead.map SbEntry.ptr).headD 0).toNat
  let tag := (dead.head?).bind (fun e => if e.fw then none else some e.tag)
  let s' := s.modCore g (fun c =>
    { c with sb := c.sb.filter (fun e => s.sbAnswers g e), wbstat := dropCount c.wbstat dead.length })
  s'.report (event 14 (s.unitCore g) first tag)

/-- The device pointer of the first store that R90 drops. -/
def State.firstDead (s : State) (g : Nat) : Option Word := ((s.core g).sb.find? (fun e => !s.sbAnswers g e)).map SbEntry.ptr

/-- Stores unanswered for 2^18 cycles are dropped while no barrier waits for them (R204): cause 25 with mepc at the instruction about
to execute, which is an LBAR's where the sequencer waits at one, since an LBAR waits for no store. -/
def State.storesTimeOut (s : State) (g : Nat) : State :=
  match s.firstDead g with
  | none => s
  | some p => (s.dropStores g).exceptAt g 25 (s.core g).pc p

/-- BARRIER_TIMEOUT (R90): the stores are dropped, the barrier instruction retires, and cause 25 is raised with mepc at the
next instruction; markers in other queues complete normally (log entry 16). At an LBAR the stores time out as under R204. -/
def execBarrierTimeout (g : CoreId) (s : State) : Res :=
  match (s.core g).wait, s.firstDead g with
  | .barrier id, some p =>
    if (s.core g).barriers.any (fun b => b.id = id && b.kind = .load) then .next (s.storesTimeOut g)
    else
      let s := s.dropStores g
      let s := s.modCore g (fun c =>
        let f := fun (b : Barrier) => if b.id = id then { b with mask := b.mask &&& 0xE } else b
        Core.retire { c with wait := .none, barriers := c.barriers.map f } 4)
      .next (s.exceptAt g 25 (s.core g).pc p)
  | _, _ => .next s

/-- STORE_TIMEOUT (R204): as R90, and with no barrier waiting the exception is taken with mepc at the instruction about to
execute. -/
def execStoreTimeout (g : CoreId) (s : State) : Res :=
  match (s.core g).wait with
  | .barrier _ => execBarrierTimeout g s
  | _ => .next (s.storesTimeOut g)

end Sys2Proof.Machine
end

