-- ==== Sys2Proof/Machine/Matrix.lean ====
section
/-! DEFINITION. The matrix engine (R98 to R112): operand layouts, checks, block sums (R42 to R46), the output stage (R47)
and the four commands. A command executes when its row comes after COMMAND_START; its timing is not modelled. -/

namespace Sys2Proof.Machine

/-! ### Running a command of an engine -/

/-- The context tag a command carries into fault records. -/
def EngCmd.tag (c : EngCmd) : Option Nat := if c.user then some (bits c.wctx.toNat 11 0) else none

/-- A started matrix or vector command of opcode op runs: a failed check halts the queue and writes nothing; run answers
the error code it ends with, 0 for none (R83, R109, R123). -/
def State.engine (s : State) (g q op : Nat) (check : EngCmd → Nat) (run : EngCmd → State → Nat × State) : State :=
  match s.head g q with
  | none => s
  | some cmd =>
    if decide (cmd.phase ≠ .started) || !s.coreUp g || (s.core g).halted q || decide (cmdByte cmd.bytes 0 ≠ op) then s
    else if check cmd ≠ 0 then s.halt g q (check cmd) cmd.ticket
    else
      let r := run cmd s
      if r.1 = 0 then r.2.setHead g q { cmd with phase := .finished } else r.2.halt g q r.1 cmd.ticket

/-- A range of core SRAM lies beyond what the command may name (R98): an empty range too, where bits [23:20] of its address are set. -/
def outOf (c : EngCmd) (off len : Nat) : Bool :=
  decide (0x10_0000 ≤ off) || decide ((if c.user then 0xF_0000 else 0x10_0000) < off + len)

/-- Bytes first to last of a command are not all 0. -/
def nonzero (bs : Bytes) (first last : Nat) : Bool := decide (fieldLe bs first (last + 1 - first) ≠ 0)

/-- A byte, and n bytes as a number, of core SRAM. -/
def State.sramByte (s : State) (g off : Nat) : Nat := (s.mem.byte (coreSramPa g off)).toNat
def State.sramNat (s : State) (g off n : Nat) : Nat := s.mem.nat (coreSramPa g off) n

/-- The first poisoned word among ranges (offset, length) of core SRAM. -/
def State.sramPoison (s : State) (g : Nat) (rs : List (Nat × Nat)) : Option Nat :=
  rs.findSome? (fun r => if s.mem.poisoned (coreSramPa g r.1) r.2 then some (s.mem.firstPoison (coreSramPa g r.1) r.2) else none)

/-- Poison consumed by a command of core g at a key or accumulator entry code (R194, R499). -/
def State.poisonUsed (s : State) (g : Nat) (c : EngCmd) (detail : Nat) : State :=
  s.report (event 8 (s.unitCore g) detail c.tag)

/-- Bytes written to core SRAM by an engine. -/
def State.sramWrite (s : State) (g : Nat) (c : EngCmd) (off : Nat) (bs : Bytes) : State :=
  s.storeLine (coreSramPa g off) bs c.tag

/-! ### Operands (R99 to R102) -/

/-- The format code is reserved, and has block scales (R99, R101). -/
def fmtReserved (f : Nat) : Bool := decide (0xB ≤ f)
def fmtBlocked (f : Nat) : Bool := (decide (2 ≤ f) && decide (f ≤ 6)) || decide (f = 8)

/-- Bytes of k elements in a format (R101). -/
def rowBytes (f k : Nat) : Nat :=
  if f = 8 then k / 2 else if f = 4 ∨ f = 5 then 24 * (k / 32) else k * codeSize f

/-- Element k of a row or column whose bytes byteAt gives (R29, R33, R101). -/
def opElem (f : Nat) (slot : Bytes) (byteAt : Nat → Nat) (k : Nat) : FVal :=
  match f with
  | 8 =>
    let b := byteAt (k / 2)
    let c := if k % 2 = 0 then b % 16 else b / 16
    ofInt (sint 8 (slot.getD c 0).toNat) (-4)
  | 6 => ofInt (sint 8 (byteAt k)) (-6)
  | 7 => fpDecode .bf16 (byteAt (2 * k) + 256 * byteAt (2 * k + 1))
  | 4 =>
    let o := 24 * (k / 32) + 6 * (k % 32) / 8
    fpDecode .e2m3 (((byteAt o + 256 * byteAt (o + 1)) >>> (6 * (k % 32) % 8)) % 64)
  | 5 =>
    let o := 24 * (k / 32) + 6 * (k % 32) / 8
    fpDecode .e3m2 (((byteAt o + 256 * byteAt (o + 1)) >>> (6 * (k % 32) % 8)) % 64)
  | _ => elemVal f (byteAt k)

/-- The mode of an operand pair (R100): its limits on K/32 and N, and whether it is BF16 × BF16. -/
def mmulMode (w a : Nat) : Option (Nat × Nat × Bool) :=
  if w = 8 ∧ a ≤ 3 then some (4, 64, false)
  else if w ≤ 6 ∧ a ≤ 6 then some (2, 64, false)
  else if w = 7 ∧ a = 7 then some (1, 32, true)
  else none

/-! ### Block sums (R42 to R45) -/

/-- v truncated toward zero to a multiple of 2^q (R43). -/
def truncTo (q : Int) : FVal → FVal
  | .fin n m e => if q ≤ e then .fin n m e else .fin n (m >>> (q - e).toNat) q
  | v => v

/-- Exponent of the leading bit of the largest product (R43). -/
def maxLead (ps : List FVal) : Option Int :=
  ps.foldl (fun a p => match p with
    | .fin _ m e => if m = 0 then a else some (match a with | none => leadExp m e | some x => max x (leadExp m e))
    | _ => a) none

/-- The block value of 32 products whose scales have exponent x (none: a scale is 0xFF) (R42 to R44). -/
def blockValue (bf : Bool) (ps : List FVal) (x : Option Int) : FVal :=
  match x with
  | none => .nan
  | some x =>
    if ps.any isNan then .nan
    else if ps.any (fun p => p = .inf true) && ps.any (fun p => p = .inf false) then .nan
    else
      match ps.find? isInf with
      | some v => v
      | none =>
        let ps := if bf then (match maxLead ps with | some e => ps.map (truncTo (e - 70)) | none => ps) else ps
        match ps.foldl fadd (.fin false 0 0) with
        | .fin n m e => if m = 0 then .fin false 0 0 else .fin n m (e + x)
        | v => v

/-- One block added to an accumulator with one rounding (R45). -/
def accAdd (acc : Nat) (v : FVal) : Nat := fpRound .w40 false (fadd (fpDecode .w40 acc) v)

/-! ### Accumulator store (R103) -/

/-- The number of entry (row, column), and its entry code in a fault record (R499). -/
def accIndex (r c : Nat) : Nat := 64 * r + c
def accCode (r c : Nat) : Nat := 2 ^ 63 + r <<< 6 + c

/-- Entries written: values by index, their poison cleared. -/
def Core.accWrite (k : Core) (l : List (Nat × Nat)) : Core :=
  { k with acc := l.foldl (fun m p => mapSet 0 m p.1 p.2) k.acc,
           accPoison := k.accPoison.filter (fun i => !l.any (fun p => p.1 = i)) }

/-- The entries of a region, row by row. -/
def accRegion (r c m n : Nat) : List (Nat × Nat) :=
  (List.range m).flatMap (fun i => (List.range n).map (fun j => (r + i, c + j)))

/-! ### MMUL (R105, R106) -/

/-- The fields of an MMUL. -/
structure Mmul where
  w : Nat
  a : Nat
  init : Bool
  rowMajor : Bool
  slot : Nat
  m : Nat
  kb : Nat
  n : Nat
  wAddr : Nat
  wsAddr : Nat
  aAddr : Nat
  wStride : Nat
  aStride : Nat
  accRow : Nat
  accCol : Nat
  wsStride : Nat
  asAddr : Nat
  asStride : Nat

/-- The layout of R105. -/
def mmulOf (b : Bytes) : Mmul :=
  { w := cmdByte b 1 % 16, a := cmdByte b 1 / 16, init := bit (cmdByte b 2) 0, rowMajor := bit (cmdByte b 2) 1,
    slot := cmdByte b 3, m := fieldLe b 4 2 % 1024, kb := cmdByte b 6, n := cmdByte b 7, wAddr := fieldLe b 8 3,
    wsAddr := fieldLe b 11 3, aAddr := fieldLe b 14 3, wStride := fieldLe b 17 2, aStride := fieldLe b 19 2,
    accRow := fieldLe b 21 2 % 512, accCol := cmdByte b 23 % 64, wsStride := fieldLe b 24 2, asAddr := fieldLe b 26 3,
    asStride := fieldLe b 29 2 }

/-- Bytes of one stored column, or of one row in row-major form (R101). -/
def Mmul.wRow (f : Mmul) : Nat := if f.rowMajor then f.n * codeSize f.w else rowBytes f.w (32 * f.kb)

/-- How many columns, or rows in row-major form, the weight operand stores. -/
def Mmul.wRows (f : Mmul) : Nat := if f.rowMajor then 32 * f.kb else f.n

/-- The operand ranges of an MMUL in core SRAM, as (offset, length), one for each row or column. -/
def Mmul.ranges (f : Mmul) : List (Nat × Nat) :=
  (List.range f.wRows).map (fun n => (f.wAddr + 16 * f.wStride * n, f.wRow)) ++
  (if fmtBlocked f.w then (List.range f.n).map (fun n => (f.wsAddr + f.wsStride * n, f.kb)) else []) ++
  (List.range f.m).map (fun m => (f.aAddr + 16 * f.aStride * m, rowBytes f.a (32 * f.kb))) ++
  (if fmtBlocked f.a then (List.range f.m).map (fun m => (f.asAddr + f.asStride * m, f.kb)) else [])

/-- The addresses that an MMUL uses. -/
def Mmul.bases (f : Mmul) : List Nat :=
  [f.wAddr, f.aAddr] ++ (if fmtBlocked f.w then [f.wsAddr] else []) ++ (if fmtBlocked f.a then [f.asAddr] else [])

/-- The checks of an MMUL in table order (R109). -/
def mmulCheck (c : EngCmd) : Nat :=
  let b := c.bytes
  let f := mmulOf b
  let mode := mmulMode f.w f.a
  firstCode [
    (fmtReserved f.w || fmtReserved f.a || decide (cmdByte b 2 / 4 ≠ 0) || (decide (f.w ≠ 8) && decide (f.slot ≠ 0)) ||
      decide (fieldLe b 4 2 / 1024 ≠ 0) || decide (fieldLe b 21 2 / 512 ≠ 0) || decide (cmdByte b 23 / 64 ≠ 0) ||
      (!fmtBlocked f.w && decide (f.wsAddr ≠ 0 ∨ f.wsStride ≠ 0)) ||
      (!fmtBlocked f.a && decide (f.asAddr ≠ 0 ∨ f.asStride ≠ 0)) || nonzero b 31 31, 1),
    (f.ranges.any (fun r => outOf c r.1 r.2) || f.bases.any (fun b => outOf c b 0) || decide (f.wAddr % 16 ≠ 0) || decide (f.aAddr % 16 ≠ 0) ||
      decide (16 * f.wStride < f.wRow) || (decide (1 < f.m) && decide (16 * f.aStride < rowBytes f.a (32 * f.kb))), 2),
    (mode.isNone || (f.rowMajor && !(f.w = 0 || f.w = 1 || f.w = 7)), 0x10),
    (match mode with
      | some (kl, nl, _) => decide (f.m = 0 ∨ 512 < f.m ∨ f.kb = 0 ∨ kl < f.kb ∨ f.n = 0 ∨ nl < f.n)
      | none => false, 0x11),
    (decide (512 < f.accRow + f.m) || decide (64 < f.accCol + f.n), 0x12)]

/-- Weight element (k, n) and activation element (m, k). -/
def State.mmulW (s : State) (g : Nat) (f : Mmul) (k n : Nat) : FVal :=
  if f.rowMajor then
    opElem f.w [] (fun o => s.sramByte g (f.wAddr + 16 * f.wStride * k + n * codeSize f.w + o)) 0
  else opElem f.w ((s.core g).slot f.slot) (fun o => s.sramByte g (f.wAddr + 16 * f.wStride * n + o)) k

def State.mmulA (s : State) (g : Nat) (f : Mmul) (m k : Nat) : FVal :=
  opElem f.a [] (fun o => s.sramByte g (f.aAddr + 16 * f.aStride * m + o)) k

/-- The scale exponent of block j for row m and column n (R42). -/
def State.mmulScale (s : State) (g : Nat) (f : Mmul) (m n j : Nat) : Option Int :=
  let w := if fmtBlocked f.w then e8m0 (s.sramByte g (f.wsAddr + f.wsStride * n + j)) else some 0
  let a := if fmtBlocked f.a then e8m0 (s.sramByte g (f.asAddr + f.asStride * m + j)) else some 0
  match w, a with
  | some x, some y => some (x + y)
  | _, _ => none

/-- The new value of the entry for row m and column n (R106): blocks in ascending order. -/
def State.mmulEntry (s : State) (g : Nat) (f : Mmul) (bf : Bool) (m n : Nat) : Nat :=
  let acc := if f.init then 0 else mapGet 0 (s.core g).acc (accIndex (f.accRow + m) (f.accCol + n))
  (List.range f.kb).foldl (fun acc j =>
    let ps := (List.range 32).map (fun i => fmul (s.mmulA g f m (32 * j + i)) (s.mmulW g f (32 * j + i) n))
    accAdd acc (blockValue bf ps (s.mmulScale g f m n j))) acc

/-- MMUL on state (R106, R110). -/
def mmulRun (g : Nat) (c : EngCmd) (s : State) : Nat × State :=
  let f := mmulOf c.bytes
  let bf := decide (f.w = 7)
  let region := accRegion f.accRow f.accCol f.m f.n
  let bad := if f.init then none else region.find? (fun p => (s.core g).accPoison.contains (accIndex p.1 p.2))
  let spoil (s : State) : State := s.modCore g (·.accWrite (region.map (fun p => (accIndex p.1 p.2, fmtNan .w40))))
  match s.sramPoison g f.ranges, bad with
  | some k, _ => (4, spoil (s.poisonUsed g c k))
  | none, some p => (4, spoil (s.poisonUsed g c (accCode p.1 p.2)))
  | none, none =>
    (0, s.modCore g (·.accWrite ((List.range f.m).flatMap (fun m => (List.range f.n).map (fun n =>
      (accIndex (f.accRow + m) (f.accCol + n), s.mmulEntry g f bf m n))))))

/-- MNOP (R104). -/
def execMnop (g : CoreId) (s : State) : Res :=
  .next (s.engine g 0 0 (fun c => if nonzero c.bytes 1 31 then 1 else 0) (fun _ s => (0, s)))

/-- MMUL (R105, R106, R109, R110). -/
def execMmul (g : CoreId) (s : State) : Res := .next (s.engine g 0 1 mmulCheck (mmulRun g))

/-! ### MDRAIN (R107) -/

/-- The fields of an MDRAIN. -/
structure Mdrain where
  d : Nat
  clear : Bool
  sat : Bool
  rs : Bool
  cs : Bool
  m : Nat
  n : Nat
  dAddr : Nat
  rsAddr : Nat
  csAddr : Nat
  dStride : Nat
  accRow : Nat
  accCol : Nat

/-- The layout of R107. -/
def mdrainOf (b : Bytes) : Mdrain :=
  { d := cmdByte b 1 % 16, clear := bit (cmdByte b 2) 0, sat := bit (cmdByte b 2) 1, rs := bit (cmdByte b 2) 2,
    cs := bit (cmdByte b 2) 3, m := fieldLe b 4 2 % 1024, n := cmdByte b 7, dAddr := fieldLe b 8 3,
    rsAddr := fieldLe b 11 3, csAddr := fieldLe b 14 3, dStride := fieldLe b 17 2, accRow := fieldLe b 19 2 % 512,
    accCol := cmdByte b 21 % 64 }

/-- The checks of an MDRAIN in table order (R109). -/
def mdrainCheck (c : EngCmd) : Nat :=
  let b := c.bytes
  let f := mdrainOf b
  let ok := f.d = 0 ∨ f.d = 1 ∨ f.d = 7 ∨ f.d = 9 ∨ f.d = 0xA
  let z := codeSize f.d
  firstCode [
    (fmtReserved f.d || decide (cmdByte b 1 / 16 ≠ 0) || (f.sat && decide (f.d ≠ 0 ∧ f.d ≠ 1)) ||
      decide (cmdByte b 2 / 16 ≠ 0) || nonzero b 3 3 || decide (fieldLe b 4 2 / 1024 ≠ 0) || nonzero b 6 6 ||
      (!f.rs && decide (f.rsAddr ≠ 0)) || (!f.cs && decide (f.csAddr ≠ 0)) || decide (fieldLe b 19 2 / 512 ≠ 0) ||
      decide (cmdByte b 21 / 64 ≠ 0) || nonzero b 22 31, 1),
    (outOf c f.dAddr (16 * f.dStride * (f.m - 1) + f.n * z) || (f.rs && outOf c f.rsAddr (4 * f.m)) ||
      (f.cs && outOf c f.csAddr (4 * f.n)) || (decide (z ≠ 0) && decide (f.dAddr % z ≠ 0)) ||
      decide (f.rsAddr % 4 ≠ 0) || decide (f.csAddr % 4 ≠ 0) ||
      (decide (1 < f.m) && decide (16 * f.dStride < f.n * z)), 2),
    (!decide ok, 0x10),
    (decide (f.m = 0 ∨ 512 < f.m ∨ f.n = 0 ∨ 64 < f.n), 0x11),
    (decide (512 < f.accRow + f.m) || decide (64 < f.accCol + f.n), 0x12)]

/-- A W40 multiplication (R40): one rounding, and an exact zero is +0. -/
def w40Mul (a b : FVal) : Nat :=
  let v := fmul a b
  fpRound .w40 false (if isZero v then .fin false 0 0 else v)

/-- The output stage (R47): two W40 multiplications and one conversion. -/
def outputStage (d : Nat) (sat : Bool) (acc rs cs : Nat) : Bytes :=
  let y := w40Mul (fpDecode .w40 acc) (f32 rs)
  let y := w40Mul (fpDecode .w40 y) (f32 cs)
  elemBytes d sat (fpDecode .w40 y)

/-- MDRAIN on state, rows ascending (R107, R110). -/
def mdrainRun (g : Nat) (c : EngCmd) (s : State) : Nat × State :=
  let f := mdrainOf c.bytes
  let one := 0x3F800000
  match s.sramPoison g ((if f.rs then [(f.rsAddr, 4 * f.m)] else []) ++ (if f.cs then [(f.csAddr, 4 * f.n)] else [])) with
  | some k => (4, s.poisonUsed g c k)
  | none =>
    let rs := (List.range f.m).map (fun m => if f.rs then s.sramNat g (f.rsAddr + 4 * m) 4 else one)
    let cs := (List.range f.n).map (fun n => if f.cs then s.sramNat g (f.csAddr + 4 * n) 4 else one)
    (List.range f.m).foldl (fun (x : Nat × State) m =>
      if x.1 ≠ 0 then x
      else
        let s := x.2
        let k := s.core g
        match (List.range f.n).find? (fun n => k.accPoison.contains (accIndex (f.accRow + m) (f.accCol + n))) with
        | some n => (4, s.poisonUsed g c (accCode (f.accRow + m) (f.accCol + n)))
        | none =>
          let row := (List.range f.n).flatMap (fun n =>
            outputStage f.d f.sat (mapGet 0 k.acc (accIndex (f.accRow + m) (f.accCol + n))) (rs.getD m one) (cs.getD n one))
          let s := s.sramWrite g c (f.dAddr + 16 * f.dStride * m) row
          (0, if f.clear then s.modCore g (·.accWrite ((List.range f.n).map (fun n =>
            (accIndex (f.accRow + m) (f.accCol + n), 0)))) else s)) (0, s)

/-- MDRAIN (R107, R109, R110). -/
def execMdrain (g : CoreId) (s : State) : Res := .next (s.engine g 0 2 mdrainCheck (mdrainRun g))

/-! ### MCBLOAD (R108) -/

/-- The checks of an MCBLOAD in table order (R109). -/
def mcbloadCheck (c : EngCmd) : Nat :=
  let b := c.bytes
  let first := cmdByte b 3
  let n := cmdByte b 4
  let src := fieldLe b 8 3
  firstCode [
    (nonzero b 1 2 || nonzero b 5 7 || nonzero b 11 31, 1),
    (outOf c src (16 * n) || decide (src % 16 ≠ 0), 2),
    (decide (first = 0), 5),
    (decide (n = 0) || decide (255 < first + n - 1), 0x13)]

/-- MCBLOAD on state (R108, R110). -/
def mcbloadRun (g : Nat) (c : EngCmd) (s : State) : Nat × State :=
  let first := cmdByte c.bytes 3
  let n := cmdByte c.bytes 4
  let src := fieldLe c.bytes 8 3
  match s.sramPoison g [(src, 16 * n)] with
  | some k => (4, s.poisonUsed g c k)
  | none => (0, s.modCore g (fun k =>
      { k with cb := (List.range n).foldl (fun m i =>
          mapSet slot0 m (first + i) (s.mem.read (coreSramPa g (src + 16 * i)) 16)) k.cb }))

/-- MCBLOAD (R36, R108). -/
def execMcbload (g : CoreId) (s : State) : Res := .next (s.engine g 0 3 mcbloadCheck (mcbloadRun g))

end Sys2Proof.Machine
end

