-- ==== Sys2Proof/Machine/Sfu.lean ====
section
/-! DEFINITION. The special-function unit (spec/04 R125 to R131). Every segment coefficient is computed from its
definition: the real value correctly rounded to FP32 once (R125). -/

namespace Sys2Proof.Machine

/-- Working precision of the coefficient computation, in fraction bits. -/
def sfuP : Nat := 200

/-- Newton iteration for the integer square root, from above. -/
def isqrtFrom (n : Nat) : Nat → Nat → Nat
  | 0, x => x
  | k + 1, x => let y := (x + n / x) / 2; if y < x then isqrtFrom n k y else x

/-- The integer square root of n. -/
def isqrt (n : Nat) : Nat := if n = 0 then 0 else isqrtFrom n (Nat.log2 n + 10) (2 ^ (Nat.log2 n / 2 + 1))

/-- The FP32 bits nearest to (-1)^neg * num / den * 2^e; inexact says that num itself was cut off. -/
def ratRound (neg : Bool) (num den : Nat) (e : Int) (inexact : Bool) : Nat :=
  if num = 0 then 0 else
  let k := 64 + Nat.log2 den
  let n := num <<< k
  rne32 (.fin neg (2 * (n / den) + b2n (inexact || n % den ≠ 0)) (e - k - 1))

/-- floor(ln 2 * 2^sfuP), from the series of 1 / (k * 2^k). -/
def ln2Fix : Nat := ((List.range (sfuP + 20)).map (fun j => 2 ^ (sfuP + 20) / ((j + 1) * 2 ^ (j + 1)))).sum / 2 ^ 20

/-- floor(2^(sfuP + i/64)): six nested square roots of 2^(64 sfuP + i). -/
def exp2Fix (i : Nat) : Nat := isqrt (isqrt (isqrt (isqrt (isqrt (isqrt (2 ^ (64 * sfuP + i)))))))

/-- n! for the coefficients of R126. -/
def factN : Nat → Nat
  | 0 => 1
  | n + 1 => (n + 1) * factN n

/-- Coefficient ck of segment i of exp2: 2^(i/64) * ln2^k / k! (R126). -/
def exp2Coef (i k : Nat) : Nat :=
  if i = 0 ∧ k = 0 then rne32 (.fin false 1 0)
  else ratRound false (exp2Fix i * ln2Fix ^ k) (factN k) (-((sfuP * (k + 1) : Nat) : Int)) true

/-- k bits of log2 of y / 2^P, with 1 ≤ y / 2^P < 2, most significant first. -/
def log2Bits (P : Nat) : Nat → Nat → Nat → Nat
  | 0, _, acc => acc
  | k + 1, y, acc =>
    let y2 := (y * y) >>> P
    if y2 ≥ 2 ^ (P + 1) then log2Bits P k (y2 / 2) (2 * acc + 1) else log2Bits P k y2 (2 * acc)

/-- Coefficient ck of segment i of log2 (R127). -/
def log2Coef (i k : Nat) : Nat :=
  let n := 64 + i
  let one := 2 ^ sfuP
  match k with
  | 0 => if i = 0 then 0 else ratRound false (log2Bits 300 90 (n * 2 ^ 294) 0) 1 (-90) true
  | 1 => ratRound false (64 * one) (n * ln2Fix) 0 true
  | 2 => ratRound true (64 ^ 2 * one) (2 * n ^ 2 * ln2Fix) 0 true
  | _ => ratRound false (64 ^ 3 * one) (3 * n ^ 3 * ln2Fix) 0 true

/-- Coefficient ck of segment i of the reciprocal: (-1)^k / m0^(k+1) (R128). -/
def recipCoef (i k : Nat) : Nat := ratRound (k % 2 = 1) (64 ^ (k + 1)) ((64 + i) ^ (k + 1)) 0 false

/-- Coefficient ck of segment i of the reciprocal square root (R129), i from 0 to 191. -/
def rsqrtCoef (i k : Nat) : Nat :=
  let n := 64 + i
  let r := isqrt (2 ^ (2 * sfuP) * 64 / n)
  let inex := r * r * n ≠ 2 ^ (2 * sfuP) * 64
  let e : Int := -(sfuP : Int)
  match k with
  | 0 => ratRound false r 1 e inex
  | 1 => ratRound true (r * 64) (2 * n) e inex
  | 2 => ratRound false (3 * r * 64 ^ 2) (8 * n ^ 2) e inex
  | _ => ratRound true (5 * r * 64 ^ 3) (16 * n ^ 3) e inex

/-- The cubic of R125, each FMA rounded once to FP32. -/
def sfuCubic (c : Nat → Nat) (d : FVal) : FVal :=
  let p := f32 (rne32 (ffma (f32 (c 3)) d (f32 (c 2))))
  let p := f32 (rne32 (ffma p d (f32 (c 1))))
  f32 (rne32 (ffma p d (f32 (c 0))))

/-- v * 2^n exactly. -/
def scale2 (v : FVal) (n : Int) : FVal :=
  match v with
  | .fin s m e => .fin s m (e + n)
  | w => w

/-- floor of (-1)^neg * m * 2^e. -/
def floorInt (neg : Bool) (m : Nat) (e : Int) : Int :=
  let i : Int := if neg then -(m : Int) else m
  if e ≥ 0 then i * 2 ^ e.toNat else Int.fdiv i (2 ^ (-e).toNat)

/-- exp2 of R126 and R131, from FP32 value to FP32 bits. -/
def sfuExp2 (t : FVal) : Nat :=
  match t with
  | .nan => fmtNan .fp32
  | .inf neg => if neg then 0 else 0x7F800000
  | .fin neg m e =>
    if m = 0 then 0x3F800000
    else
      let n := floorInt neg m e
      if n ≥ 128 then 0x7F800000
      else if n < -150 then 0
      else
        let f := fsub t (ofInt n 0)
        let i := match f with | .fin _ fm fe => (floorInt false fm (fe + 6)).toNat | _ => 0
        let d := fsub f (.fin false i (-6))
        rne32 (scale2 (sfuCubic (exp2Coef i) d) n)

/-- The normalised split of m * 2^e, m above 0: (E, i, d) with value 2^E * (1 + i/64 + d), 64 segments (R127, R128). -/
def split64 (m : Nat) (e : Int) : Int × Nat × FVal :=
  let l := Nat.log2 m
  let frac := (m - 2 ^ l) <<< 6
  let i := frac >>> l
  (e + l, i, .fin false (frac - (i <<< l)) (-(l : Int) - 6))

/-- log2 of R127 and R131. -/
def sfuLog2 (t : FVal) : Nat :=
  match t with
  | .nan => fmtNan .fp32
  | .inf neg => if neg then fmtNan .fp32 else 0x7F800000
  | .fin neg m e =>
    if m = 0 then 0xFF800000
    else if neg then fmtNan .fp32
    else
      let (ex, i, d) := split64 m e
      rne32 (fadd (ofInt ex 0) (sfuCubic (log2Coef i) d))

/-- reciprocal of R128 and R131. -/
def sfuRecip (t : FVal) : Nat :=
  match t with
  | .nan => fmtNan .fp32
  | .inf neg => if neg then 0x80000000 else 0
  | .fin neg m e =>
    if m = 0 then (if neg then 0xFF800000 else 0x7F800000)
    else
      let (ex, i, d) := split64 m e
      let r := scale2 (sfuCubic (recipCoef i) d) (-ex)
      rne32 (if neg then fneg r else r)

/-- reciprocal square root of R129 and R131, 192 segments. -/
def sfuRsqrt (t : FVal) : Nat :=
  match t with
  | .nan => fmtNan .fp32
  | .inf neg => if neg then fmtNan .fp32 else 0
  | .fin neg m e =>
    if m = 0 then (if neg then 0xFF800000 else 0x7F800000)
    else if neg then fmtNan .fp32
    else
      let l := Nat.log2 m
      let ex : Int := e + l
      let odd := ex % 2 ≠ 0
      -- 64 * (M - 1) with M in [1, 4), in units of 2^-l
      let mm := if odd then 2 * m else m
      let ev := if odd then ex - 1 else ex
      let frac := (mm - 2 ^ l) <<< 6
      let i := frac >>> l
      let d : FVal := .fin false (frac - (i <<< l)) (-(l : Int) - 6)
      rne32 (scale2 (sfuCubic (rsqrtCoef i) d) (-(ev / 2)))

/-- LOG2E of R130. -/
def log2e : FVal := f32 0x3FB8AA3B

/-- sigmoid of R130 and R131. -/
def sfuSigmoid (t : FVal) : Nat :=
  match t with
  | .nan => fmtNan .fp32
  | .inf neg => if neg then 0 else 0x3F800000
  | .fin _ m _ =>
    if m = 0 then 0x3F000000
    else
      let x := f32 (sfuExp2 (f32 (rne32 (fmul (fneg t) log2e))))
      sfuRecip (f32 (rne32 (fadd (f32 0x3F800000) x)))

/-- SiLU of R130 and R131. -/
def sfuSilu (t : FVal) : Nat :=
  match t with
  | .nan => fmtNan .fp32
  | .inf neg => if neg then 0x80000000 else 0x7F800000
  | .fin neg m _ => if m = 0 then (if neg then 0x80000000 else 0) else rne32 (fmul t (f32 (sfuSigmoid t)))

/-- The special functions by FN of VSFU (R117). -/
def sfuFn (fn : Nat) (t : FVal) : Nat :=
  match fn with
  | 0 => sfuExp2 t
  | 1 => sfuLog2 t
  | 2 => sfuRecip t
  | 3 => sfuRsqrt t
  | 4 => sfuSigmoid t
  | _ => sfuSilu t

end Sys2Proof.Machine
end

