-- ==== Sys2Proof/Machine/Vector.lean ====
section
/-! DEFINITION. The vector engine (R113 to R125): layout, checks, the order of reads and writes (R118), element
operations, reductions, online softmax, rotary update and top-k. -/

namespace Sys2Proof.Machine

/-- The fields of a vector command (R114). -/
structure Vec where
  op : Nat
  s : Nat
  d : Nat
  bMode : Nat
  cMode : Nat
  sat : Bool
  fn : Nat
  a : Nat
  b : Nat
  c : Nat
  dst : Nat
  rows : Nat
  cols : Nat
  aStride : Nat
  dStride : Nat
  imm : Nat

/-- The layout of R114. -/
def vecOf (b : Bytes) : Vec :=
  { op := cmdByte b 0, s := cmdByte b 1 % 16, d := cmdByte b 1 / 16, bMode := cmdByte b 2 % 4, cMode := bits (cmdByte b 2) 3 2,
    sat := bit (cmdByte b 2) 4, fn := cmdByte b 3, a := fieldLe b 4 3, b := fieldLe b 7 3, c := fieldLe b 10 3,
    dst := fieldLe b 13 3, rows := fieldLe b 16 2 % 1024, cols := fieldLe b 18 2 % 32768, aStride := fieldLe b 20 2,
    dStride := fieldLe b 22 2, imm := fieldLe b 24 4 }

/-- Operand B of R115 is used, and operand C. -/
def Vec.usesB (f : Vec) : Bool := (decide (1 ≤ f.op) && decide (f.op ≤ 6)) || f.op = 8 || f.op = 9
def Vec.usesC (f : Vec) : Bool := decide (f.op = 4)

/-- A reduction of one FP32 for each row. -/
def Vec.reduces (f : Vec) : Bool := decide (0x10 ≤ f.op) && decide (f.op ≤ 0x12)

/-- Bytes from a base that an operand of mode m spans (R115). -/
def Vec.span (f : Vec) (m : Nat) : Nat :=
  match m with
  | 0 => 16 * f.aStride * (f.rows - 1) + f.cols * codeSize f.s
  | 1 => 4 * f.rows
  | 2 => 4 * f.cols
  | _ => 0

/-- Alignment of an operand of mode m. -/
def Vec.align (f : Vec) (m : Nat) : Nat := if m = 0 then max 1 (codeSize f.s) else 4

/-- The element of A or of a full-shape operand fits the destination's format code (R114). -/
def vecFmt (f : Nat) : Bool := f = 0 || f = 1 || f = 7 || f = 9

/-- The FN of a command is reserved (R117). -/
def Vec.badFn (f : Vec) : Bool :=
  if f.op = 8 then decide (6 ≤ f.fn) else if f.op = 0x10 then decide (2 ≤ f.fn) else if f.op = 0x14 then false
  else decide (f.fn ≠ 0)

/-- A must-be-0 or unused field is not 0 (R114, R115, R117). -/
def Vec.badField (f : Vec) (b : Bytes) : Bool :=
  let tables := f.op = 0xA ∨ f.op = 0x13
  decide (cmdByte b 2 / 32 ≠ 0) || (f.sat && decide (f.d ≠ 0 ∧ f.d ≠ 1)) || nonzero b 28 31 ||
  decide (fieldLe b 16 2 / 1024 ≠ 0) || decide (fieldLe b 18 2 / 32768 ≠ 0) ||
  (!f.usesB && decide (f.bMode ≠ 0)) || (!f.usesC && decide (f.cMode ≠ 0)) ||
  ((if f.usesB then decide (f.bMode = 3) else !decide tables) && decide (f.b ≠ 0)) ||
  ((if f.usesC then decide (f.cMode = 3) else !decide tables) && decide (f.c ≠ 0)) ||
  (!((f.usesB && f.bMode = 3) || (f.usesC && f.cMode = 3) || f.op = 0x13) && decide (f.imm ≠ 0)) ||
  (f.reduces && decide (f.dStride ≠ 0))

/-- Bytes from D_ADDR that the command writes. -/
def Vec.dSpan (f : Vec) : Nat :=
  if f.reduces then 4 * f.rows
  else if f.op = 0x14 then 16 * f.dStride * (f.rows - 1) + 64 + 2 * f.fn
  else 16 * f.dStride * (f.rows - 1) + f.cols * codeSize f.d

/-- A range, alignment or stride is bad (R98, R123). -/
def Vec.badRange (f : Vec) (c : EngCmd) : Bool :=
  let bad (off len al : Nat) : Bool := outOf c off len || decide (off % al ≠ 0)
  bad f.a (f.span 0) (f.align 0) ||
  (f.usesB && decide (f.bMode ≠ 3) && bad f.b (f.span f.bMode) (f.align f.bMode)) ||
  (f.usesC && decide (f.cMode ≠ 3) && bad f.c (f.span f.cMode) (f.align f.cMode)) ||
  (decide (f.op = 0xA) && (bad f.b (2 * f.rows * f.cols) 4 || bad f.c (2 * f.rows * f.cols) 4)) ||
  (decide (f.op = 0x13) && (bad f.b (4 * f.rows) 4 || bad f.c (8 * f.rows) 4)) ||
  bad f.dst f.dSpan (if f.op = 0x14 then 4 else max 1 (codeSize f.d)) ||
  (decide (1 < f.rows) && (decide (16 * f.aStride < f.cols * codeSize f.s) ||
    (!f.reduces && decide (f.op ≠ 0x14) && decide (16 * f.dStride < f.cols * codeSize f.d)) ||
    (decide (f.op = 0x14) && decide (f.dStride < 6))))

/-- The checks of a vector command in table order (R123). -/
def vecCheck (c : EngCmd) : Nat :=
  let f := vecOf c.bytes
  firstCode [
    (fmtReserved f.s || fmtReserved f.d || f.badFn || f.badField c.bytes, 1),
    (f.badRange c, 2),
    (!vecFmt f.s || !vecFmt f.d || (decide (0x10 ≤ f.op) && decide (f.op ≠ 0x13) && decide (f.d ≠ 9)) ||
      (decide (f.op = 0x13 ∨ f.op = 0x14) && decide (f.s ≠ 7 ∧ f.s ≠ 9)), 0x20),
    (decide (f.rows = 0 ∨ 512 < f.rows ∨ f.cols = 0 ∨ 16384 < f.cols) ||
      (decide (f.op = 0x14) && decide (f.fn = 0 ∨ 16 < f.fn ∨ f.cols < f.fn ∨ 512 < f.cols)) ||
      (decide (f.op = 0xA) && decide (f.cols % 2 = 1)), 0x21)]

/-! ### Reading and writing in order (R118) -/

/-- Elements that one chunk holds (R113): 64, 128 or 256 by the wider of the two formats. -/
def Vec.lanes (f : Vec) : Nat := 256 / max 1 (max (codeSize f.s) (codeSize f.d))

/-- Offset of element (r, j) of an operand of mode m at base. -/
def Vec.at (f : Vec) (m base r j : Nat) : Nat :=
  match m with
  | 0 => base + 16 * f.aStride * r + j * codeSize f.s
  | 1 => base + 4 * r
  | 2 => base + 4 * j
  | _ => 0

/-- The value of operand element (r, j) of mode m at base (R115). -/
def State.vecVal (s : State) (g : Nat) (f : Vec) (m base r j : Nat) : FVal :=
  match m with
  | 0 => elemVal f.s (s.sramNat g (f.at 0 base r j) (codeSize f.s))
  | 3 => f32 f.imm
  | m => f32 (s.sramNat g (f.at m base r j) 4)

/-- The ranges that columns [j0, j1) of row r read of an operand. -/
def Vec.reads (f : Vec) (m base r j0 j1 : Nat) : List (Nat × Nat) :=
  match m with
  | 0 => [(f.at 0 base r j0, (j1 - j0) * codeSize f.s)]
  | 1 => [(f.at 1 base r j0, 4)]
  | 2 => [(f.at 2 base r j0, 4 * (j1 - j0))]
  | _ => []

/-- The chunks (row, first column, end column) of a command, in order. -/
def Vec.chunks (f : Vec) : List (Nat × Nat × Nat) :=
  (List.range f.rows).flatMap (fun r =>
    (List.range ((f.cols + f.lanes - 1) / f.lanes)).map (fun i => (r, i * f.lanes, min f.cols ((i + 1) * f.lanes))))

/-- Parts of a command in order: each reads its ranges, then writes; poison in one ends the command before its writes
(R118). -/
def vecParts {α : Type} (g : Nat) (c : EngCmd) (parts : List α) (reads : α → List (Nat × Nat)) (act : α → State → State)
    (s : State) : Nat × State :=
  parts.foldl (fun (x : Nat × State) p =>
    if x.1 ≠ 0 then x
    else match x.2.sramPoison g (reads p) with
      | some k => (4, x.2.poisonUsed g c k)
      | none => (0, act p x.2)) (0, s)

/-- An element operation (R116, R117): d = fn a b c rounded once to DFMT. -/
def vecElem (fn : FVal → FVal → FVal → FVal) (g : Nat) (c : EngCmd) (s : State) : Nat × State :=
  let f := vecOf c.bytes
  vecParts g c f.chunks
    (fun (r, j0, j1) => f.reads 0 f.a r j0 j1 ++ (if f.usesB then f.reads f.bMode f.b r j0 j1 else []) ++
      (if f.usesC then f.reads f.cMode f.c r j0 j1 else []))
    (fun (r, j0, j1) s =>
      let out := (List.range (j1 - j0)).flatMap (fun i =>
        elemBytes f.d f.sat (fn (s.vecVal g f 0 f.a r (j0 + i)) (s.vecVal g f f.bMode f.b r (j0 + i))
          (s.vecVal g f f.cMode f.c r (j0 + i))))
      s.sramWrite g c (f.dst + 16 * f.dStride * r + j0 * codeSize f.d) out) s

/-- VROPE on state (R122). -/
def vropeRun (g : Nat) (c : EngCmd) (s : State) : Nat × State :=
  let f := vecOf c.bytes
  let tab (base r j : Nat) : Nat := base + 4 * (r * (f.cols / 2) + j / 2)
  vecParts g c f.chunks
    (fun (r, j0, j1) => f.reads 0 f.a r j0 j1 ++ [(tab f.b r j0, 2 * (j1 - j0)), (tab f.c r j0, 2 * (j1 - j0))])
    (fun (r, j0, j1) s =>
      let out := (List.range ((j1 - j0) / 2)).flatMap (fun i =>
        let j := j0 + 2 * i
        let x0 := s.vecVal g f 0 f.a r j
        let x1 := s.vecVal g f 0 f.a r (j + 1)
        let co := f32 (s.sramNat g (tab f.b r j) 4)
        let si := f32 (s.sramNat g (tab f.c r j) 4)
        elemBytes f.d f.sat (fsub (fmul x0 co) (fmul x1 si)) ++ elemBytes f.d f.sat (fadd (fmul x0 si) (fmul x1 co)))
      s.sramWrite g c (f.dst + 16 * f.dStride * r + j0 * codeSize f.d) out) s

/-! ### Reductions (R119) -/

/-- Sixty-four lanes, each taking its elements in ascending j. -/
def laneFold (step : FVal → FVal → FVal) (start : FVal) (xs : List FVal) : List FVal :=
  (List.range 64).map (fun l =>
    (List.range ((xs.length + 63 - l) / 64)).foldl (fun acc i => step acc (xs.getD (64 * i + l) start)) start)

/-- Lanes combined pairwise, n times. -/
def pairUp (f : FVal → FVal → FVal) : Nat → List FVal → List FVal
  | 0, l => l
  | n + 1, l => pairUp f n ((List.range (l.length / 2)).map (fun i => f (l.getD (2 * i) .nan) (l.getD (2 * i + 1) .nan)))

/-- The sum of R119: one FP32 rounding per step and per addition. -/
def treeSum (sq : Bool) (xs : List FVal) : Nat :=
  let r (v : FVal) : FVal := f32 (rne32 v)
  let l := laneFold (fun acc x => r (if sq then ffma x x acc else fadd acc x)) (.fin false 0 0) xs
  rne32 ((pairUp (fun a b => r (fadd a b)) 6 l).headD .nan)

/-- The maximum of R119: any NaN gives the canonical NaN. -/
def treeMax (xs : List FVal) : Nat :=
  if xs.any isNan then fmtNan .fp32
  else rne32 ((pairUp vmaxF 6 (laneFold vmaxF (.inf true) xs)).headD .nan)

/-- The values of row r of A. -/
def State.vecRow (s : State) (g : Nat) (f : Vec) (r : Nat) : List FVal :=
  (List.range f.cols).map (fun j => s.vecVal g f 0 f.a r j)

/-- A reduction of each row to one FP32 (R117, R119). -/
def vecReduce (fn : Vec → List FVal → Nat) (g : Nat) (c : EngCmd) (s : State) : Nat × State :=
  let f := vecOf c.bytes
  vecParts g c (List.range f.rows) (fun r => f.reads 0 f.a r 0 f.cols)
    (fun r s => s.sramWrite g c (f.dst + 4 * r) (natLe (fn f (s.vecRow g f r)) 4)) s

/-- VSMAX on state (R120). -/
def vsmaxRun (g : Nat) (c : EngCmd) (s : State) : Nat × State :=
  let f := vecOf c.bytes
  vecParts g c (List.range f.rows) (fun r => (f.c + 8 * r, 8) :: f.reads 0 f.a r 0 f.cols)
    (fun r s =>
      let mOld := f32 (s.sramNat g (f.c + 8 * r) 4)
      let lOld := f32 (s.sramNat g (f.c + 8 * r + 4) 4)
      let sc := (s.vecRow g f r).map (fun a => f32 (rne32 (fmul a (f32 f.imm))))
      let mNew := f32 (if isNan mOld || sc.any isNan then fmtNan .fp32 else rne32 (sc.foldl vmaxF mOld))
      let masked := decide (mNew = .inf true)
      let alpha := if masked then 0x3F800000 else sfuExp2 (f32 (rne32 (fsub mOld mNew)))
      let p := sc.map (fun x =>
        if masked then elemBytes f.d f.sat (.fin false 0 0)
        else elemBytes f.d f.sat (f32 (sfuExp2 (f32 (rne32 (fsub x mNew))))))
      let lNew := rne32 (ffma (f32 alpha) lOld (f32 (treeSum false (p.map (fun b => elemVal f.d (leNat b))))))
      let s := s.sramWrite g c (f.dst + 16 * f.dStride * r) p.flatten
      let s := s.sramWrite g c (f.b + 4 * r) (natLe alpha 4)
      s.sramWrite g c (f.c + 8 * r) (natLe (rne32 mNew) 4 ++ natLe lNew 4)) s

/-- The total order of R121: NaN below −infinity, −0 below +0. -/
def totalLess (a b : FVal) : Bool := if isNan a then !isNan b else if isNan b then false else flt a b

/-- The k highest columns of a row, in descending rank, ties by lower column (R121). -/
def topk (k : Nat) (xs : List FVal) : List (FVal × Nat) :=
  (sortBy (fun x y => totalLess y.1 x.1) xs.zipIdx).take k

/-- VTOPK on state (R121). -/
def vtopkRun (g : Nat) (c : EngCmd) (s : State) : Nat × State :=
  let f := vecOf c.bytes
  vecParts g c (List.range f.rows) (fun r => f.reads 0 f.a r 0 f.cols)
    (fun r s =>
      let t := topk f.fn (s.vecRow g f r)
      let base := f.dst + 16 * f.dStride * r
      let s := s.sramWrite g c base (t.flatMap (fun x => natLe (rne32 x.1) 4))
      s.sramWrite g c (base + 64) (t.flatMap (fun x => natLe x.2 2))) s

/-! ### The commands (R117) -/

/-- A vector command of opcode op. -/
def State.vector (s : State) (g op : Nat) (run : EngCmd → State → Nat × State) : State := s.engine g 1 op vecCheck run

/-- VNOP (R117). -/
def execVnop (g : CoreId) (s : State) : Res :=
  .next (s.engine g 1 0 (fun c => if nonzero c.bytes 1 31 then 1 else 0) (fun _ s => (0, s)))

/-- VADD (R117). -/
def execVadd (g : CoreId) (s : State) : Res := .next (s.vector g 1 (vecElem (fun a b _ => fadd a b) g))

/-- VSUB (R117). -/
def execVsub (g : CoreId) (s : State) : Res := .next (s.vector g 2 (vecElem (fun a b _ => fsub a b) g))

/-- VMUL (R117). -/
def execVmul (g : CoreId) (s : State) : Res := .next (s.vector g 3 (vecElem (fun a b _ => fmul a b) g))

/-- VFMA (R117). -/
def execVfma (g : CoreId) (s : State) : Res := .next (s.vector g 4 (vecElem ffma g))

/-- VMAX (R117). -/
def execVmax (g : CoreId) (s : State) : Res := .next (s.vector g 5 (vecElem (fun a b _ => vmaxF a b) g))

/-- VMIN (R117). -/
def execVmin (g : CoreId) (s : State) : Res := .next (s.vector g 6 (vecElem (fun a b _ => vminF a b) g))

/-- VCVT (R117). -/
def execVcvt (g : CoreId) (s : State) : Res := .next (s.vector g 7 (vecElem (fun a _ _ => a) g))

/-- VSFU (R117, R125). -/
def execVsfu (g : CoreId) (s : State) : Res :=
  .next (s.vector g 8 (fun c => vecElem (fun a b _ => f32 (sfuFn (vecOf c.bytes).fn (f32 (rne32 (fmul a b))))) g c))

/-- VGSILU (R117, R130). -/
def execVgsilu (g : CoreId) (s : State) : Res := .next (s.vector g 9 (vecElem (fun a b _ => fmul (f32 (sfuSilu a)) b) g))

/-- VROPE (R122). -/
def execVrope (g : CoreId) (s : State) : Res := .next (s.vector g 0xA (vropeRun g))

/-- VRMAX (R117, R119). -/
def execVrmax (g : CoreId) (s : State) : Res :=
  .next (s.vector g 0x10 (vecReduce (fun f xs => treeMax (if f.fn = 1 then xs.map fabs else xs)) g))

/-- VRSUM (R119). -/
def execVrsum (g : CoreId) (s : State) : Res := .next (s.vector g 0x11 (vecReduce (fun _ xs => treeSum false xs) g))

/-- VRSSQ (R119). -/
def execVrssq (g : CoreId) (s : State) : Res := .next (s.vector g 0x12 (vecReduce (fun _ xs => treeSum true xs) g))

/-- VSMAX (R120). -/
def execVsmax (g : CoreId) (s : State) : Res := .next (s.vector g 0x13 (vsmaxRun g))

/-- VTOPK (R121). -/
def execVtopk (g : CoreId) (s : State) : Res := .next (s.vector g 0x14 (vtopkRun g))

end Sys2Proof.Machine
end

