-- ==== Sys2Proof/Machine/Frames.lean ====
section
/-! DEFINITION. The KV layout of an image (R25, R144, R260, R261) and the sending side of the Coelostat journal (R459 to
R461). -/

namespace Sys2Proof.Machine

/-! ### The shape of an image (R23, R25, R144) -/

/-- A little-endian field of an image header (R23). -/
def Image.h (i : Image) (off len : Nat) : Nat := fieldLe i.header off len

def Image.layers (i : Image) : Nat := i.h 0x010 4
def Image.vocab (i : Image) : Nat := i.h 0x018 4
def Image.maxContext (i : Image) : Nat := i.h 0x01C 4

/-- Window of layer j; 0 is full context. -/
def Image.window (i : Image) (j : Nat) : Nat := i.info.windows.getD j 0

/-- Layers with full context, and sliding-window layers, in order. -/
def Image.fullLayers (i : Image) : List Nat := (List.range i.layers).filter (fun j => i.window j = 0)
def Image.slidingLayers (i : Image) : List Nat := (List.range i.layers).filter (fun j => i.window j ≠ 0)

/-- KV dimensions that a header stores per token and layer, and the heads whose scales are stored (R25, R144). -/
def kvDims (h : Bytes) : Nat × Nat :=
  if fieldLe h 0x024 1 = 0 then (fieldLe h 0x02A 2 + fieldLe h 0x02C 2, 1)
  else (2 * fieldLe h 0x02E 2 * fieldLe h 0x028 2, 2 * fieldLe h 0x02E 2)

/-- Bytes of a KV page of a header's layers (R144). -/
def pageBytesOf (h : Bytes) : Nat :=
  let d := kvDims h
  if fieldLe h 0x025 1 = 1 then 8448 * (d.1 / 64) else 256 * (d.1 + 4 * d.2)

def Image.pageBytes (i : Image) : Nat := pageBytesOf i.header

/-- Bytes of a page set (R260), and of the rings of one sequence (R261). -/
def Image.setBytes (i : Image) : Nat := i.fullLayers.length * i.pageBytes
def Image.ringPages (i : Image) (j : Nat) : Nat := i.window j / 256 + 1
def Image.ringBytes (i : Image) : Nat := (i.slidingLayers.map (fun j => i.ringPages j * i.pageBytes)).sum

/-- Page sets that n positions need. -/
def Image.setsFor (i : Image) (n : Nat) : Nat := if i.fullLayers.isEmpty then 0 else (n + 255) / 256

/-- PT_LEN of layer j (R260, R261), the place of its page table among a sequence's tables, and the bytes of them all. -/
def Image.ptLen (i : Image) (j : Nat) : Nat := if i.window j = 0 then (i.maxContext + 255) / 256 else i.ringPages j
def Image.tableOff (i : Image) (j : Nat) : Nat := 8 * ((List.range j).map i.ptLen).sum
def Image.tableBytes (i : Image) : Nat := (i.tableOff i.layers + 63) / 64 * 64

/-- The pages that the page tables of a sequence name (R145): place of the entry among the tables, and page. -/
def Image.entries (i : Image) (k : KvPlaces) : List (Nat × Nat) :=
  i.fullLayers.zipIdx.flatMap (fun j => k.pages.zipIdx.map (fun p => (i.tableOff j.1 + 8 * p.2, p.1 + j.2 * i.pageBytes))) ++
    k.ring.toList.flatMap (fun r => i.slidingLayers.flatMap (fun j =>
      let before := ((i.slidingLayers.takeWhile (· ≠ j)).map (fun l => i.ringPages l * i.pageBytes)).sum
      (List.range (i.ringPages j)).map (fun b => (i.tableOff j + 8 * b, r + before + b * i.pageBytes))))

/-- The sequence whose page set or rings hold a physical address. -/
def State.slotOfPage (s : State) (pa : Nat) : Option Nat :=
  match s.srv.main with
  | none => none
  | some i => (s.srv.seqs.find? (fun x =>
      x.2.pages.any (fun p => decide (p ≤ pa) && decide (pa < p + i.setBytes)) ||
        (x.2.ring.map (fun p => decide (p ≤ pa) && decide (pa < p + i.ringBytes))).getD false)).map (·.1)

/-- Where an address lies in a sequence's pages: (in its rings, page set, offset). -/
def State.pageAt (s : State) (slot pa : Nat) : Option (Bool × Nat × Nat) :=
  match s.srv.main, mapFind s.srv.seqs slot with
  | some i, some x =>
    match x.pages.findIdx? (fun p => decide (p ≤ pa) && decide (pa < p + i.setBytes)) with
    | some k => some (false, k, pa - x.pages.getD k 0)
    | none => x.ring.map (fun p => (true, 0, pa - p))
  | _, _ => none

/-! ### Sending the journal (R459, R460) -/

/-- Bytes of a frame with a payload of n bytes: header, payload, tag, padded to 64 B (R459). -/
def frameBytes (n : Nat) : Nat := (32 + n + 16 + 63) / 64 * 64

/-- LENGTH of the frame numbered fseq. R459 gives what a payload holds and not its layout, so the length is an open value
within the bound of R459 (log entry 4). -/
def payloadLen (fseq : Nat) : Nat := Config.unstated 459 fseq % 65441

/-- Journal bytes sent and not acknowledged. -/
def Mir.lag (m : Mir) : Nat := (m.unacked.map (·.bytes)).sum

/-- The offset rule of R460 on a running byte count and a window. -/
def placeFrame (count win : Nat) : Nat := if win - count % win < 65536 then (count / win + 1) * win else count

/-- Queued frames are sent while the window has room; the primary keeps them until they are acknowledged (R460). n bounds their
number. -/
def State.pushFrames : Nat → State → State
  | 0, s => s
  | n + 1, s =>
    let m := s.mir
    match m.queued with
    | [] => s
    | (typ, tag, p) :: rest =>
      let win := max 1 m.peerWin * 2 ^ 30
      let len := frameBytes (payloadLen m.nextSend)
      if !m.portUp || decide (win < m.lag + len) then s
      else
        let c := placeFrame m.sent win
        let fr : JFrame := { fseq := m.nextSend, offset := c % win, bytes := len, typ := typ, tag := tag, payload := p }
        let m := { m with queued := rest, unacked := if m.role then [] else m.unacked ++ [fr], nextSend := m.nextSend + 1, sent := c + len }
        ({ s with mir := m, out := s.out ++ [OutMsg.frame typ tag fr.fseq fr.offset p] }).pushFrames n

/-- A frame is given to the journal, behind any that wait. -/
def State.sendFrame (s : State) (typ : BitVec 8) (tag : Nat) (p : JPayload) : State :=
  let m := { s.mir with queued := s.mir.queued ++ [(typ, tag, p)] }
  ({ s with mir := m }).pushFrames m.queued.length

/-- The number that the last frame given to the journal has, or will have. -/
def Mir.lastFseq (m : Mir) : Nat := m.nextSend + m.queued.length - 1

/-- The peer's tag of a bound context (R458). -/
def State.peerTag (s : State) (tag : Nat) : Option Nat := mapFind s.mir.binds tag

/-- This device is the primary of a pairing whose journal runs (R462). -/
def State.journals (s : State) : Bool := !s.mir.role && (decide (s.mir.st = .resync) || decide (s.mir.st = .mirroring))

/-- A change of a bound context is journalled by the primary (R458, R459). -/
def State.journal (s : State) (tag : Nat) (typ : BitVec 8) (p : JPayload) : State :=
  match s.peerTag tag with
  | some t => if s.journals then s.sendFrame typ t p else s
  | none => s

/-- Output of a bound context that waits for frame fseq may be released now (R461, R462). -/
def Mir.releases (m : Mir) (fseq : Nat) : Bool :=
  let lagging := decide (max 1 m.lagMib * 2 ^ 20 < m.lag)
  match m.st with
  | .resync => !lagging
  | .mirroring => if m.async then !lagging else decide (fseq ≤ m.acked)
  | .broken => !m.syncFail
  | _ => true

/-- The KV page lines that KVPUT wrote for a bound context go into the journal (R459). -/
def State.journalKv (s : State) (tag : Nat) (pa len : Nat) : State :=
  match s.slotOfPage pa with
  | none => s
  | some slot => (linesOf (lineOf pa) (pa + len - lineOf pa)).foldl (fun s p =>
      match s.pageAt slot p.1 with
      | some (ring, page, off) => s.journal tag 6 (.kv (BitVec.ofNat 15 slot) ring page off (s.mem.read p.1 64))
      | none => s) s

end Sys2Proof.Machine
end

