-- ==== Sys2Proof/Machine/Dma.lean ====
section
/-! DEFINITION. The DMA engine (R133 to R147): descriptors, their checks, tiles, moves, gather and scatter, KV pages, and
targets that do not answer (R179, R221). A row runs every tile that may start; TILE_START goes on with the next. -/

namespace Sys2Proof.Machine

/-- What one tile comes to: its writes are made, it waits, or it ends the descriptor with a code (R138, R139). -/
inductive Tile where
  | done | wait | err (code : Nat)
deriving DecidableEq, Repr

/-- A range may be named by an engine command: by R222 and R226, and not device-strict (R214). -/
def State.nameOk (s : State) (q : Requester) (ptr len : Nat) (k : Kind) : Bool :=
  decide (ptr < 2 ^ 64) && s.mayName q.fw q.tag ptr len k &&
    (cutAt (2 ^ 21) (len / 2 ^ 21 + 2) ptr len).all (fun p => !s.strict q.g q.fw q.tag p.1)

/-! ### The Finder's service of weight reads (R165) -/

/-- A used entry of the section table: TYPE, TARGET, OFFSET, LENGTH (R24). -/
structure Section where
  typ : Nat
  target : Nat
  off : Nat
  len : Nat
deriving DecidableEq, Repr

/-- Entry i of the table. -/
def sectionAt (h : Bytes) (i : Nat) : Section :=
  let o := 0x100 + 32 * i
  { typ := fieldLe h o 4, target := fieldLe h (o + 4) 4, off := fieldLe h (o + 8) 8, len := fieldLe h (o + 16) 8 }

/-- The used entries. -/
def sections (h : Bytes) : List Section := (List.range (fieldLe h 0x03C 4)).map (sectionAt h)

/-- A section of weights, whose TARGET names a stack (R24): types 4 to 7 (DEDUCED, log entry 101). -/
def Section.weights (x : Section) : Bool := decide (4 ≤ x.typ) && decide (x.typ ≤ 7)

/-- The image offset of a physical address in an image, if it lies in it. -/
def Image.offsetOf (im : Image) (pa : Nat) : Option Nat :=
  (im.granules.findIdx? (fun x => decide (x = pa / 2 ^ 21 * 2 ^ 21))).map (fun i => i * 2 ^ 21 + pa % 2 ^ 21)

/-- A physical address lies in a weight section of an image (R165). -/
def Image.weightAt (im : Image) (pa : Nat) : Bool :=
  match im.offsetOf pa with
  | none => false
  | some o => (sections im.header).any (fun x => x.weights && decide (x.off ≤ o) && decide (o < x.off + x.len))

/-- The layer and expert of the main image whose weights hold a physical address, and its distance from their start. -/
def State.expertAt (s : State) (pa : Nat) : Option (Nat × Nat × Nat) :=
  s.srv.main.bind (fun im => (im.offsetOf pa).bind (fun o => im.info.weights.findSome? (fun w =>
    if w.2.1 ≤ o ∧ o < w.2.1 + w.2.2 then some (w.1 / 512, w.1 % 512, o - w.2.1) else none)))

/-- One 4 KiB chunk of an image weight section, read by a DMA channel of die d, is counted as hit, late or miss (R165). A block of
the filling half is not servable yet, and counts as late, complete or not (DESIGN CHOICE, log entry 112). -/
def State.finderChunk (s : State) (d pa : Nat) : State :=
  if !(s.srv.main.toList ++ s.srv.draft.toList).any (·.weightAt pa) then s
  else
    let f := mapGet Finder.reset s.finders d
    let prefixLen := (s.srv.main.map (·.info.prefixBytes)).getD 0
    let inc (n : Nat) : Nat := satAdd (2 ^ 64 - 1) n 1
    let find (layer : Nat) (l : List Staged) : Option Staged :=
      (s.expertAt pa).bind (fun x => if x.1 = layer ∧ x.2.2 < prefixLen then l.find? (fun y => y.expert = x.2.1) else none)
    let f' :=
      match find f.servingLayer f.serving, find f.layer f.filling with
      | some x, _ =>
        if x.complete then
          { f with hits := inc f.hits, stagedRead := if x.read then f.stagedRead else inc f.stagedRead,
                   serving := f.serving.map (fun y => if y.expert = x.expert then { y with read := true } else y) }
        else { f with lateChunks := inc f.lateChunks }
      | none, some _ => { f with lateChunks := inc f.lateChunks }
      | none, none => { f with misses := inc f.misses }
    { s with finders := mapPut s.finders d f' }

/-- The Finder works for core g (R162): a main image is loaded and no raw program holds the core. -/
def State.finderOn (s : State) (g : Nat) : Bool := s.srv.main.isSome && !s.heldByProgram g

/-- Every chunk of a read range that falls in an image weight section is counted (R165). -/
def State.finderRead (s : State) (q : Requester) (ptr len : Nat) : State :=
  if !s.finderOn q.g then s
  else (cutAt 4096 (len / 4096 + 2) ptr len).foldl (fun s p =>
    s.finderChunk (q.g / 32) (s.tgt q p.1).key) s

/-! ### Reading and writing of a tile -/

/-- A range is made ready and read. -/
def State.fetch (s : State) (q : Requester) (ptr len : Nat) : Tile × Bytes × State :=
  match s.prep q ptr len .read with
  | (.failed, s) => (.err 3, [], s)
  | (.wait, s) => (.wait, [], s)
  | (.ready, s) =>
    match s.readRange q (s.unitCore q.g) ptr len with
    | (some bs, s) => (.done, bs, s)
    | (none, s) => (.err 4, [], s)

/-- Several ranges are made ready and read. -/
def State.fetchAll (s : State) (q : Requester) (rs : List (Nat × Nat)) : Tile × List Bytes × State :=
  rs.foldl (fun a r =>
    match a.1 with
    | .err e => (.err e, a.2)
    | t =>
      match a.2.2.fetch q r.1 r.2 with
      | (.done, bs, s) => (t, a.2.1 ++ [bs], s)
      | (t', bs, s) => (t', a.2.1 ++ [bs], s)) (.done, [], s)

/-- Several ranges are made ready for writing. -/
def State.prepWrites (s : State) (q : Requester) (ws : List (Nat × Nat)) : Tile × State :=
  ws.foldl (fun a w =>
    match a.1, a.2.prep q w.1 w.2 .write with
    | .err e, r => (.err e, r.2)
    | _, (.failed, s) => (.err 3, s)
    | _, (.wait, s) => (.wait, s)
    | t, (.ready, s) => (t, s)) (.done, s)

/-- The ranges of a tile are all ready, its sources are read, and what out makes of them is written: nothing is written
before every page the tile touches is translated (R232), and a failing tile writes no byte (R139). -/
def State.moveTile (s : State) (q : Requester) (reads : List (Nat × Nat)) (writes : List (Nat × Nat))
    (out : List Bytes → List Bytes) : Tile × State :=
  match s.prepWrites q writes with
  | (.err e, s) => (.err e, s)
  | (t, s) =>
    match s.fetchAll q reads with
    | (.err e, _, s) => (.err e, s.dropIo q.who)
    | (.wait, _, s) => (.wait, s)
    | (.done, bs, s) =>
      if t = .done then
        let s := reads.foldl (fun s r => s.finderRead q r.1 r.2) s
        let s := (writes.zip (out bs)).foldl (fun s w => s.writeRange q (s.unitCore q.g) w.1.1 w.2) s
        (.done, s.dropIo q.who)
      else (.wait, s)

/-- One row of len bytes moves. -/
def State.moveRow (s : State) (q : Requester) (src dst len : Nat) : Tile × State :=
  s.moveTile q [(src, len)] [(dst, len)] id

/-- The header of descriptor i breaks R134: CHAIN of a later descriptor, reserved bits, formats or SAT that the type does
not use, pointers that it does not use, bytes of the body that it does not use. -/
def badHeader (d : Bytes) (i : Nat) (sf df : List Nat) (sat : Bool) (src dst : Bool) (unused : List (Nat × Nat)) : Bool :=
  (decide (i ≠ 0) && decide (cmdByte d 1 % 64 ≠ 0)) || bit (cmdByte d 1) 7 || decide (cmdByte d 3 / 2 ≠ 0) ||
  !sf.contains (dSfmt d) || !df.contains (dDfmt d) || (dSat d && !(sat && decide (dDfmt d ≤ 1))) ||
  (!src && decide (dSrc d ≠ 0)) || (!dst && decide (dDst d ≠ 0)) || unused.any (fun u => nonzero d u.1 u.2)

/-- Bytes that the rows of an operand span: n rows of len bytes at a pitch. -/
def rowSpan (n pitch len : Nat) : Nat := (n - 1) * pitch + len

/-! ### Checks (R138) -/

/-- COPY (R141). -/
def State.copyCheck (s : State) (q : Requester) (d : Bytes) (i : Nat) : Nat :=
  let n := fieldLe d 24 8
  let a := dSrc d
  let b := dDst d
  firstCode [
    (badHeader d i [0] [0] false true true [(4, 7), (32, 63)], 1),
    (!s.nameOk q a n .read || !s.nameOk q b n .write ||
      (decide (space a = space b) && decide (a < b + n) && decide (b < a + n)), 2),
    (decide (n = 0 ∨ 2 ^ 36 < n), 0x31)]

/-- Lowest and highest offset of the rows of one side. -/
def stridedLo (d : Bytes) (base : Nat) : Int :=
  ((List.range 3).map (fun k => min 0 (((stridedN d k : Int) - 1) * stridedS d base k))).sum
def stridedHi (d : Bytes) (base : Nat) : Int :=
  ((List.range 3).map (fun k => max 0 (((stridedN d k : Int) - 1) * stridedS d base k))).sum

/-- One side of a STRIDED descriptor may be named. -/
def State.stridedOk (s : State) (q : Requester) (d : Bytes) (p base row : Nat) (k : Kind) : Bool :=
  let lo := (p : Int) + stridedLo d base
  let hi := (p : Int) + stridedHi d base + row
  decide ((p / 2 ^ 60 : Nat) * (2 ^ 60 : Int) ≤ lo) && decide (hi ≤ ((p / 2 ^ 60 : Nat) + 1) * (2 ^ 60 : Int)) &&
    s.nameOk q lo.toNat (hi - lo).toNat k

/-- STRIDED (R142). -/
def State.stridedCheck (s : State) (q : Requester) (d : Bytes) (i : Nat) : Nat :=
  let row := dParam d % 2 ^ 17
  firstCode [
    (badHeader d i [0] [0] false true true [(30, 31), (56, 63)] || decide (dParam d / 2 ^ 17 ≠ 0), 1),
    (!s.stridedOk q d (dSrc d) 32 row .read || !s.stridedOk q d (dDst d) 44 row .write, 2),
    (decide (row = 0 ∨ 65536 < row) || (List.range 3).any (fun k => stridedN d k = 0), 0x31)]

/-- GATHER and SCATTER (R143): the dense side, the index list, and the indexed side over every index below LIMIT; with COUNT above 1
no pitch is shorter than a row (R138). -/
def State.indexedCheck (s : State) (q : Requester) (d : Bytes) (i : Nat) (scatter : Bool) : Nat :=
  let row := dParam d % 2 ^ 17
  let idx := fieldLe d 24 8
  let n := fieldLe d 32 4
  let lim := fieldLe d 36 4
  let sn := if scatter then n else lim
  let dn := if scatter then lim else n
  firstCode [
    (badHeader d i [0] [0] false true true [(48, 63)] || decide (dParam d / 2 ^ 17 ≠ 0), 1),
    (!s.nameOk q idx (4 * n) .read || decide (idx % 4 ≠ 0) || (decide (1 < n) && decide (fieldLe d 40 4 < row ∨ fieldLe d 44 4 < row)) ||
      (decide (sn ≠ 0) && !s.nameOk q (dSrc d) (rowSpan sn (fieldLe d 40 4) row) .read) ||
      (decide (dn ≠ 0) && !s.nameOk q (dDst d) (rowSpan dn (fieldLe d 44 4) row) .write), 2),
    (decide (row = 0 ∨ 65536 < row ∨ n = 0 ∨ 65536 < n), 0x31)]

/-- KVPUT and KVGET (R146). -/
def State.kvCheck (s : State) (q : Requester) (d : Bytes) (i : Nat) : Nat :=
  let k := kvOf d
  let ok := if k.put then badHeader d i [7, 9] [0] false true false [(44, 63)]
    else badHeader d i [0] [0, 7, 9] true false true [(44, 63)]
  firstCode [
    (ok || decide (cmdByte d 37 / 4 ≠ 0) || (!k.fp8 && decide (k.hlen ≠ 0)), 1),
    (!s.nameOk q k.pt (8 * k.ptLen) .read || decide (k.pt % 8 ≠ 0) ||
      !s.nameOk q k.row (rowSpan k.count (16 * k.stride) k.rowLen) (if k.put then .read else .write) ||
      (decide (1 < k.count) && decide (16 * k.stride < k.rowLen)), 2),
    (decide (k.count = 0 ∨ 512 < k.count ∨ k.g = 0 ∨ 512 < k.g ∨ k.ptLen = 0) ||
      decide ((if k.ring then 4097 else 4096) < k.ptLen) ||
      (k.fp8 && decide (k.hlen = 0 ∨ 32 < k.hlen ∨ k.g % k.hlen ≠ 0)), 0x31)]

/-! ### Tiles (R137) -/

/-- Tile i of a COPY: 64 KiB of destination, ascending. -/
def State.copyTile (s : State) (q : Requester) (d : Bytes) (i : Nat) : Tile × State :=
  s.moveRow q (dSrc d + 65536 * i) (dDst d + 65536 * i) (min 65536 (fieldLe d 24 8 - 65536 * i))

/-- Tile i of a STRIDED: the row with i1 fastest (R142). -/
def State.stridedTile (s : State) (q : Requester) (d : Bytes) (i : Nat) : Tile × State :=
  s.moveRow q (stridedRow d i).1 (stridedRow d i).2 (dParam d % 2 ^ 17)

/-- Tile i of a GATHER or SCATTER: one indexed row (R143). -/
def State.indexedTile (s : State) (q : Requester) (d : Bytes) (scatter : Bool) (i : Nat) : Tile × State :=
  match s.fetch q (fieldLe d 24 8 + 4 * i) 4 with
  | (.done, bs, s) =>
    let x := leNat bs
    if fieldLe d 36 4 ≤ x then (.err 0x32, s.dropIo q.who)
    else s.moveRow q (dSrc d + (if scatter then i else x) * fieldLe d 40 4)
      (dDst d + (if scatter then x else i) * fieldLe d 44 4) (dParam d % 2 ^ 17)
  | (t, _, s) => (t, s)

/-! ### KV compression (R50 to R53) -/

/-- The largest magnitude, for finite values. -/
def amaxOf (xs : List FVal) : FVal := xs.foldl (fun a x => if flt a (fabs x) then fabs x else a) (.fin false 0 0)

/-- A K4 group: its scale and its codes (R51). -/
def k4Put (xs : List FVal) : Nat × List Int :=
  if xs.any (fun x => isNan x || isInf x) then (0x7F, xs.map (fun _ => 0))
  else
    let a := amaxOf xs
    if isZero a then (0, xs.map (fun _ => 0))
    else
      let sc := e4m3RoundUp (fdiv a (.fin false 7 0))
      (sc, xs.map (fun x => rneInt (-7) 7 (fdiv x (fpDecode .e4m3 sc))))

/-- Codes packed two to a byte, the lower index in bits [3:0] (R33). -/
def packCodes (qs : List Int) : Bytes :=
  (List.range (qs.length / 2)).map (fun i =>
    BitVec.ofInt 8 ((qs.getD (2 * i) 0) % 16 + 16 * ((qs.getD (2 * i + 1) 0) % 16)))

/-- A head of FP8 KV: its FP32 scale and its element bytes (R53). -/
def f8Put (xs : List FVal) : Nat × Bytes :=
  if xs.any (fun x => isNan x || isInf x) then (fmtNan .fp32, xs.map (fun _ => 0))
  else
    let a := amaxOf xs
    if isZero a then (0, xs.map (fun _ => 0))
    else
      let sc := fp32RoundUp (fdiv a (.fin false 448 0))
      (sc, xs.map (fun x => BitVec.ofNat 8 (fpRound .e4m3 true (fdiv x (f32 sc)))))

/-- A list cut into pieces of n, m of them. -/
def pieces {α : Type} (n m : Nat) (l : List α) : List (List α) := (List.range m).map (fun i => (l.drop (n * i)).take n)

/-- Payload and scale bytes of a token from its row (R51, R53). -/
def Kv.compress (k : Kv) (row : Bytes) : Bytes × Bytes :=
  let z := codeSize k.fmt
  let xs := (List.range (64 * k.g)).map (fun j => elemVal k.fmt (fieldLe row (z * j) z))
  if k.fp8 then
    let l := (pieces (64 * k.hlen) (k.g / k.hlen) xs).map f8Put
    (l.flatMap (·.2), l.flatMap (fun p => natLe p.1 4))
  else
    let l := (pieces 64 k.g xs).map k4Put
    (l.flatMap (fun p => packCodes p.2), l.map (fun p => BitVec.ofNat 8 p.1))

/-- Code q of K4 element j; 0b1000 decodes as −7 (R50). -/
def k4Code (pay : Bytes) (j : Nat) : Int :=
  let b := cmdByte pay (j / 2)
  max (-7) (sint 4 (if j % 2 = 0 then b % 16 else b / 16))

/-- The row of a token from its payload and scales (R52, R53, R147): saturating to E4M3. -/
def Kv.expand (k : Kv) (pay sca : Bytes) : Bytes :=
  (List.range (64 * k.g)).flatMap (fun j =>
    let v := if k.fp8 then fmul (fpDecode .e4m3 (cmdByte pay j)) (f32 (fieldLe sca (4 * (j / (64 * k.hlen))) 4))
      else fmul (ofInt (k4Code pay j) 0) (fpDecode .e4m3 (cmdByte sca (j / 64)))
    elemBytes k.fmt true v)

/-- Bytes of a page (R144). -/
def Kv.page (k : Kv) : Nat := if k.fp8 then 256 * (64 * k.g + 4 * (k.g / k.hlen)) else 8448 * k.g

/-- A page table entry names a page that the descriptor may use (R145). Bits [5:1], which must be 0, make an entry invalid too where
they are not: the spec states no result for them (DESIGN CHOICE, log entry 104). -/
def State.kvEntryOk (s : State) (q : Requester) (k : Kv) (e : Nat) : Bool :=
  let base := e / 64 * 64
  let o := spaceOff base
  bit e 0 && decide (bits e 5 1 = 0) &&
    ((decide (space base = 2) && decide (o + k.page ≤ (s.rights q.fw q.tag).arenaBytes) &&
        (!k.put || decide ((s.rights q.fw q.tag).arenaRoBytes ≤ o))) ||
      (decide (space base = 3) && decide (o + k.page ≤ 0x300_0000)))

/-- Tile i of KVPUT or KVGET: one token (R145 to R147). -/
def State.kvTile (s : State) (q : Requester) (d : Bytes) (i : Nat) : Tile × State :=
  let k := kvOf d
  let p := k.pos + i
  let e := k.entry i
  if k.ptLen ≤ e then (.err 0x32, s)
  else
    match s.fetch q (k.pt + 8 * e) 8 with
    | (.done, bs, s) =>
      let ent := leNat bs
      if s.strictRange q.g q.fw q.tag (ent / 64 * 64) k.page then (.err 2, s.dropIo q.who)
      else if !s.kvEntryOk q k ent then (.err 0x32, s.dropIo q.who)
      else
        let base := ent / 64 * 64
        let slot := p % 256
        let pay := if k.fp8 then (base + 64 * k.g * slot, 64 * k.g) else (base + 32 * k.g * slot, 32 * k.g)
        let sca := if k.fp8 then (base + 256 * 64 * k.g + 4 * (k.g / k.hlen) * slot, 4 * (k.g / k.hlen))
          else (base + 256 * 32 * k.g + k.g * slot, k.g)
        let row := (k.row + 16 * k.stride * i, k.rowLen)
        if k.put then
          match s.moveTile q [row] [pay, sca] (fun l => let c := k.compress (l.getD 0 []); [c.1, c.2]) with
          | (.done, s) =>
            let at_ (x : Nat) : Nat := s.physOf q.g q.fw q.tag x
            (.done, (s.journalKv q.tag (at_ pay.1) pay.2).journalKv q.tag (at_ sca.1) sca.2)
          | r => r
        else s.moveTile q [pay, sca] [row] (fun l => [k.expand (l.getD 0 []) (l.getD 1 [])])
    | (t, _, s) => (t, s)

/-! ### Running a descriptor -/

/-- Tile i of a descriptor that moves data. -/
def State.tile (s : State) (q : Requester) (d : Bytes) (i : Nat) : Tile × State :=
  match dType d with
  | 1 => s.copyTile q d i
  | 2 => s.stridedTile q d i
  | 3 => s.indexedTile q d false i
  | 4 => s.indexedTile q d true i
  | 5 => s.kvTile q d i
  | 6 => s.kvTile q d i
  | _ => (.done, s)

/-- The check of a descriptor of types 0 to 6 (R138). -/
def State.dmaCheck (s : State) (q : Requester) (d : Bytes) (i : Nat) : Nat :=
  match dType d with
  | 0 => if badHeader d i [0] [0] false false false [(4, 63)] then 1 else 0
  | 1 => s.copyCheck q d i
  | 2 => s.stridedCheck q d i
  | 3 => s.indexedCheck q d i false
  | 4 => s.indexedCheck q d i true
  | 5 => s.kvCheck q d i
  | 6 => s.kvCheck q d i
  | _ => 1

/-- Tiles from the i-th on, in order, until one waits or fails: n at most. -/
def runTiles (f : State → Nat → Tile × State) : Nat → Nat → State → Nat × Tile × State
  | 0, i, s => (i, .done, s)
  | n + 1, i, s =>
    match f s i with
    | (.done, s) => runTiles f n (i + 1) s
    | (t, s) => (i, t, s)

/-- The head command of channel ch has finished its current descriptor: the next becomes current, or the chain has done
all; a next descriptor of a reserved type halts the channel (R135, R138). -/
def State.descDone (s : State) (g ch : Nat) (c : EngCmd) : State :=
  if c.desc + 1 < c.bytes.length / 64 then
    let s := s.setHead g (2 + ch) { c with desc := c.desc + 1, tile := 0, checked := false, joined := false }
    if reservedOp 2 (c.descriptor (c.desc + 1)) then s.halt g (2 + ch) 1 c.ticket else s
  else s.setHead g (2 + ch) { c with phase := .finished, joined := false }

/-- The head command of a channel, if it runs and its current descriptor is of a type that ok accepts. -/
def State.running (s : State) (g ch : Nat) (ok : Nat → Bool) : Option EngCmd :=
  match s.head g (2 + ch) with
  | none => none
  | some c =>
    if decide (c.phase = .started) && s.coreUp g && !(s.core g).halted (2 + ch) && ok (dType (c.descriptor c.desc)) then some c
    else none

/-- The tiles of the current descriptor run from where they stand (R137, R139), and those to come are translated ahead (R231). A
descriptor of an ending program that comes to wait on a page request ends there (R96). -/
def State.runDesc (s : State) (g : CoreId) (ch : Chan) (c : EngCmd) : State :=
  let d := c.descriptor c.desc
  let q := dmaReq g ch c
  match runTiles (fun s i => s.tile q d i) (tileCount d - c.tile) c.tile s with
  | (i, .wait, s) =>
    let s := s.setHead g (2 + ch) { c with tile := i, checked := true }
    if s.endingOn g && s.chanHeld g (2 + ch) then s.stopChan g (2 + ch) else s.ahead g ch
  | (_, .err e, s) => s.halt g (2 + ch) e c.ticket
  | (_, .done, s) => (s.descDone g ch c).ahead g ch

/-- A descriptor of type t of the data-moving types is next: it is checked and every tile that may start runs. -/
def State.dma (s : State) (g : CoreId) (ch : Chan) (t : Nat) : State :=
  match s.running g ch (· = t) with
  | none => s
  | some c =>
    if c.checked then s.runDesc g ch c
    else
      let e := s.dmaCheck (dmaReq g ch c) (c.descriptor c.desc) c.desc
      if e ≠ 0 then s.halt g (2 + ch) e c.ticket else s.runDesc g ch c

/-- DNOP (R135). -/
def execDnop (g : CoreId) (ch : Chan) (s : State) : Res := .next (s.dma g ch 0)

/-- COPY (R141). -/
def execCopy (g : CoreId) (ch : Chan) (s : State) : Res := .next (s.dma g ch 1)

/-- STRIDED (R142). -/
def execStrided (g : CoreId) (ch : Chan) (s : State) : Res := .next (s.dma g ch 2)

/-- GATHER (R143). -/
def execGather (g : CoreId) (ch : Chan) (s : State) : Res := .next (s.dma g ch 3)

/-- SCATTER (R143). -/
def execScatter (g : CoreId) (ch : Chan) (s : State) : Res := .next (s.dma g ch 4)

/-- KVPUT (R147). -/
def execKvput (g : CoreId) (ch : Chan) (s : State) : Res := .next (s.dma g ch 5)

/-- KVGET (R147). -/
def execKvget (g : CoreId) (ch : Chan) (s : State) : Res := .next (s.dma g ch 6)

/-! ### Targets that do not answer (R179, R221) -/

/-- The writes of a queue to dead targets with one for each line: the first (R221). -/
def deadLines (ws : List DeadWrite) : List DeadWrite :=
  ws.foldl (fun l w => if l.any (fun x => x.line = w.line) then l else l ++ [w]) []

/-- The writes of queue q to dead targets are abandoned (R179, R221): a target timeout is recorded for each 64 B line, and with a
barrier's marker naming the engine wbstat counts the lines and a barrier timeout records the first (R434). -/
def State.abandonWrites (s : State) (g q : Nat) : State :=
  let dead := deadLines ((s.core g).deadWrites.filter (fun w => w.q = q))
  let named := (s.core g).barriers.any (fun b => (maskQueues b.mask).contains q)
  let s := s.modCore g (fun c => { c with deadWrites := c.deadWrites.filter (fun w => w.q ≠ q) })
  let s := dead.foldl (fun s w => s.report (event 15 (s.unitCore g) w.line (w.tag.map (·.1)))) s
  match dead with
  | w :: _ =>
    if named then
      (s.modCore g (fun c => { c with wbstat := dropCount c.wbstat dead.length })).report
        (event 14 (s.unitCore g) w.ptr.toNat (w.tag.map (·.1)))
    else s
  | [] => s

end Sys2Proof.Machine
end

