-- ==== Sys2Proof/Machine/Collective.lean ====
section
/-! DEFINITION. Collectives (R148 to R159): issue and matching, joining, EXCHANGE, COMBINE and REDUCE tile by tile, and the watchdog
(R152). The last member to join sets the collective going; each member's tiles then go on whenever a row of a member, or TILE_START,
comes. Log entry 111 names what the spec leaves open here. -/

namespace Sys2Proof.Machine

/-! ### Groups (R148) -/

/-- A group entry. -/
structure Group where
  members : Nat
  self : Nat
  valid : Bool
  broken : Bool
  tag : Nat
  map : Nat
  xbuf : Nat
  xbytes : Nat
  rbytes : Nat
  rbuf : Nat
  emap : Nat

/-- The address of group entry i of core g: the model keeps the sixteen entries from offset 0xF_0000 (log entry 17). -/
def groupAt (g i : Nat) : Nat := coreSramPa g (0xF_0000 + 64 * i)

/-- Group entry i of core g. -/
def State.group (s : State) (g i : Nat) : Group :=
  let b := s.mem.read (groupAt g i) 64
  { members := fieldLe b 0 2, self := fieldLe b 2 2, valid := bit (cmdByte b 4) 0, broken := bit (cmdByte b 4) 1,
    tag := fieldLe b 6 2 % 4096, map := fieldLe b 8 8, xbuf := fieldLe b 16 8, xbytes := fieldLe b 24 4,
    rbytes := fieldLe b 28 4, rbuf := fieldLe b 32 8, emap := fieldLe b 40 8 }

/-- The global core numbers of a member map. -/
def State.memberMap (s : State) (map n : Nat) : List Nat := (List.range n).map (fun i => s.mem.nat (map + 2 * i) 2 % 512)

/-- The member indices that core g serves by a member map, ascending (R453). -/
def State.membersOf (s : State) (e : Group) (g : Nat) : List Nat :=
  (List.range e.members).filter (fun i => (s.memberMap e.map e.members)[i]? == some g)

/-! ### Physical accesses of a member (R179, R184, R186, R194) -/

/-- Bytes read at a physical address with a requester's rights: none where a line is refused, dead or poisoned. -/
def State.readKey (s : State) (q : Requester) (key n : Nat) : Option Bytes × State :=
  (linesOf key n).foldl (fun a p =>
    match a.1 with
    | none => a
    | some bs =>
      let s := a.2
      if !s.allowed p.1 q.fw false q.tag false then (none, s.refusal (s.unitCore q.g) p.1 q.fw q.ctx)
      else if !s.answers p.1 then (none, s.report (event 15 (s.unitCore q.g) (p.1 / 8 * 8) q.ctx))
      else if s.mem.poisoned p.1 p.2 then (none, s.report (event 8 (s.unitCore q.g) (s.mem.firstPoison p.1 p.2) q.ctx))
      else (some (bs ++ s.mem.read p.1 p.2), s)) (some [], s)

/-- Bytes written at a physical address with a member's rights: refused and dead targets are not written. -/
def State.writeKey (s : State) (q : Requester) (key : Nat) (bs : Bytes) : State :=
  (linesOf key bs.length).foldl (fun s p =>
    if !s.allowed p.1 q.fw false q.tag true then s.refusal (s.unitCore q.g) p.1 q.fw q.ctx
    else if !s.answers p.1 then
      match q.who with
      | .chan g c =>
        let w : DeadWrite := { q := 2 + c.val, line := lineOf p.1, ptr := BitVec.ofNat 64 p.1,
                               tag := if q.fw then none else some (q.tag, s.reqPasid q) }
        s.modCore g (fun x => { x with deadWrites := x.deadWrites ++ [w] })
      | _ => s
    else s.storeLine p.1 (sliceBytes bs (p.1 - key) p.2) q.ctx) s

/-! ### PARAM (R149) -/

def collId (d : Bytes) : Nat := bits (dParam d) 15 0
def collGroup (d : Bytes) : Nat := bits (dParam d) 19 16
def collSem (d : Bytes) : Nat := bits (dParam d) 29 24
def collSemEn (d : Bytes) : Bool := bit (dParam d) 30

/-- PARAM has a must-be-0 bit set. -/
def collBadParam (d : Bytes) : Bool := decide (bits (dParam d) 23 20 ≠ 0) || bit (dParam d) 31

/-- The checks of a collective in table order (R138, R149): its own field checks come as codes 1, 2 and 0x31. A command of machine mode
carries no context tag, and CTX_TAG does not bind it (DESIGN CHOICE, log entry 111). -/
def State.collCheck (s : State) (g : Nat) (c : EngCmd) (d : Bytes) (b1 b2 b31 : Bool) : Nat :=
  let e := s.group g (collGroup d)
  firstCode [(b1 || collBadParam d, 1), (b2, 2), (!e.valid, 0x30), (b31, 0x31), (e.broken, 0x35),
    (c.user && decide (e.tag ≠ bits c.wctx.toNat 11 0), 0x36)]

/-! ### Issue and members at work (R149, R150, R453) -/

/-- The number by which the collectives issued by a member of a group are counted: member map and member. -/
def collKey (map member : Nat) : Nat := 512 * map + member

/-- The order on the group and the member that the next collective of core g on group entry i is for (R150). A core that serves several
members issues one descriptor for each, in member order (R453): the next is for the first of those that have issued fewest.
Answers also the place of that member among them. -/
def State.nextIssue (s : State) (g i : Nat) : Nat × Nat × Nat :=
  let e := s.group g i
  let n (m : Nat) : Nat := mapGet 0 s.issues (collKey e.map m)
  let ms := s.membersOf e g
  match sortBy (fun a b => decide (n a.1 < n b.1)) ms.zipIdx with
  | x :: _ :: _ => (n x.1, x.1, x.2)
  | _ => (n e.self, e.self, 0)

/-- The core issues a collective on group entry i. -/
def State.countIssue (s : State) (g i : Nat) : State :=
  let k := s.nextIssue g i
  { s with issues := mapPut s.issues (collKey (s.group g i).map k.2.1) (k.1 + 1) }

/-- A member with its command, its descriptor, its group entry and its requester. -/
structure Part where
  j : Joined
  c : EngCmd
  d : Bytes
  e : Group
  q : Requester

/-- The channel of a number. -/
def chanOf (n : Nat) : Chan := ⟨n % 2, Nat.mod_lt _ (by decide)⟩

/-- The core of a number. -/
def coreOf (n : Nat) : CoreId := ⟨n % 512, Nat.mod_lt _ (by decide)⟩

/-- a and b are parts of one collective. -/
def Joined.with (a b : Joined) : Bool := decide (a.map = b.map) && decide (a.order = b.order)

/-- a and b are the same part. -/
def Joined.same (a b : Joined) : Bool := a.with b && decide (a.member = b.member) && decide (a.g = b.g)

/-- The parts of the collective that j belongs to, ended ones too, in member order. -/
def State.allJoined (s : State) (j : Joined) : List Joined :=
  sortBy (fun a b => decide (a.member < b.member)) (s.joins.filter j.with)

/-- The open parts of the collective that j belongs to, in member order. -/
def State.parts (s : State) (j : Joined) : List Part :=
  ((s.allJoined j).filter Joined.isOpen).filterMap (fun x =>
    (s.head x.g (2 + x.chan)).map (fun c =>
      { j := x, c := c, d := x.bytes, e := s.group x.g (collGroup x.bytes), q := dmaReq (coreOf x.g) (chanOf x.chan) c }))

/-- A part is changed. -/
def State.modJoin (s : State) (j : Joined) (f : Joined → Joined) : State :=
  { s with joins := s.joins.map (fun x => if j.same x then f x else x) }

/-- The part as it stands now. -/
def State.joinNow (s : State) (j : Joined) : Joined := (s.joins.find? j.same).getD j

/-- Another part of the same channel is open. -/
def State.openOn (s : State) (g ch : Nat) : Bool := s.joins.any (fun x => x.isOpen && x.onQueue g (2 + ch))

/-- A member's descriptor ends with an error, or completes, and signals its own semaphore if sig asks for it: R154 times the signal of
EXCHANGE alone, and COMBINE and REDUCE signal when the member's descriptor completes (DESIGN CHOICE, log entry 111). The chain
goes on when no descriptor of it is open. -/
def State.partEnd (s : State) (p : Part) (code : Nat) (sig : Bool) : State :=
  let s := (s.modJoin p.j (fun x => { x with phase := if code = 0 then .done else .failed })).dropIo p.q.who
  if code ≠ 0 then s.halt p.j.g (2 + p.j.chan) code p.c.ticket
  else
    let s := match s.head p.j.g (2 + p.j.chan) with
      | some c => if c.joined && !s.openOn p.j.g p.j.chan then s.descDone p.j.g p.j.chan c else s
      | none => s
    if sig && collSemEn p.d then s.signal p.j.g (collSem p.d) 1 else s

/-- Every member ends with a group-wide error (R151). -/
def State.allEnd (s : State) (ps : List Part) (code : Nat) : State := ps.foldl (fun s p => s.partEnd p code false) s

/-- A collective whose parts have all ended is forgotten. -/
def State.closeColl (s : State) (j : Joined) : State :=
  if (s.allJoined j).any Joined.isOpen then s else { s with joins := s.joins.filter (fun x => !j.with x) }

/-- The tiles of one member run from where they stand until one waits or fails (R137, R139). -/
def State.runMember (s : State) (p : Part) (count : Nat) (tile : State → Nat → Tile × State) : Tile × State :=
  match runTiles tile (count - p.j.tile) p.j.tile s with
  | (i, .wait, s) => (.wait, s.modJoin p.j (fun x => { x with tile := i }))
  | (_, .err e, s) => (.err e, s.partEnd p e false)
  | (_, .done, s) => (.done, s.modJoin p.j (fun x => { x with tile := count }))

/-! ### EXCHANGE (R153 to R155) -/

/-- Fields of an EXCHANGE. -/
def xRoute (d : Bytes) : Nat := fieldLe d 24 8
def xAux (d : Bytes) : Nat := fieldLe d 32 8
def xTokens (d : Bytes) : Nat := fieldLe d 40 2
def xK (d : Bytes) : Nat := cmdByte d 42
def xLayer (d : Bytes) : Nat := cmdByte d 43
def xUnits (d : Bytes) : Nat := fieldLe d 44 2
def xSrcStride (d : Bytes) : Nat := fieldLe d 46 2
def xRouteStride (d : Bytes) : Nat := fieldLe d 48 2

/-- The field checks of an EXCHANGE (R153). -/
def State.exchangeCheck (s : State) (q : Requester) (c : EngCmd) (d : Bytes) (i : Nat) : Nat :=
  let n := xTokens d
  let row := 16 * xUnits d
  s.collCheck q.g c d (badHeader d i [0] [0] false true true [(50, 63)])
    ((decide (n ≠ 0) && (!s.nameOk q (dSrc d) (rowSpan n (16 * xSrcStride d) row) .read ||
        !s.nameOk q (xRoute d) (rowSpan n (16 * xRouteStride d) (64 + 2 * xK d)) .read ||
        (decide (xAux d ≠ 0) && !s.nameOk q (xAux d) (4 * n) .read))) ||
      (decide (dDst d ≠ 0) && !s.nameOk q (dDst d) 64 .write) ||
      decide (xRouteStride d < 6) || (decide (1 < n) && decide (16 * xSrcStride d < row)))
    (decide (4096 < n ∨ xK d = 0 ∨ 16 < xK d ∨ 127 < xLayer d ∨ xUnits d = 0 ∨ 2048 < xUnits d))

/-- The home (die, slot) that a token's row for an expert goes to (R155). -/
def homeOf (entry self token : Nat) : Nat × Nat :=
  let i := (self + token) % (bits entry 37 36 + 1)
  let h := bits entry (9 * i + 8) (9 * i)
  (h / 32, h % 32)

/-- The route row of a token: gate weight and expert of each rank. -/
def routeOf (k : Nat) (bs : Bytes) : List (Nat × Nat) :=
  (List.range k).map (fun r => (fieldLe bs (4 * r) 4, fieldLe bs (64 + 2 * r) 2))

/-- The expert map entries of a route row (R155), read as firmware's (log entry 17); the first that is not valid ends them with 0x30,
one that cannot be read with 0x04. -/
def State.entriesOf (s : State) (q : Requester) (e : Group) (layer : Nat) (l : List (Nat × Nat)) :
    Tile × List (Nat × Nat × Nat) × State :=
  l.foldl (fun a x =>
    match a.1 with
    | .done =>
      if 512 ≤ x.2 then (.err 0x30, a.2)
      else
        match a.2.2.readKey { q with fw := true } (e.emap + 8 * (512 * layer + x.2)) 8 with
        | (none, s) => (.err 4, a.2.1, s)
        | (some bs, s) => (if bit (leNat bs) 38 then .done else .err 0x30, a.2.1 ++ [(x.1, x.2, leNat bs)], s)
    | _ => a) (.done, [], s)

/-- The routes of a member's tokens with their expert map entries. An entry that is not valid comes before every wait (R138). -/
def State.routes (s : State) (q : Requester) (d : Bytes) : Tile × List (List (Nat × Nat × Nat)) × State :=
  let e := s.group q.g (collGroup d)
  (List.range (xTokens d)).foldl (fun a t =>
    match a.1, a.2.2.fetch q (xRoute d + 16 * xRouteStride d * t) (64 + 2 * xK d) with
    | .err c, _ => (.err c, a.2)
    | x, (.done, bs, s) =>
      match s.entriesOf q e (xLayer d) (routeOf (xK d) bs) with
      | (.done, l, s) => (x, a.2.1 ++ [l], s)
      | (y, _, s) => (y, a.2.1, s)
    | _, (y, _, s) => (y, a.2.1, s)) (.done, [], s)

/-- A row on its way: destination die and slot, and its tag. -/
structure XDest where
  die : Nat
  slot : Nat
  row : XRow

/-- The rows that a member sends, from its routes (R154, R155). -/
def Joined.dests (j : Joined) : List XDest :=
  j.routes.zipIdx.flatMap (fun (l, t) => l.zipIdx.map (fun ((w, x, ent), r) =>
    let h := homeOf ent j.member t
    { die := h.1, slot := h.2, row := { src := j.member, tok := t, rank := r, expert := x, gate := BitVec.ofNat 32 w } }))

/-- The order of rows in an exchange buffer (R154): slot, member, token, rank. -/
def XDest.key (x : XDest) : Nat := (((x.slot * 512 + x.row.src) * 65536 + x.row.tok) * 16) + x.row.rank

/-- The rows of die d in order. -/
def dieRows (d : Nat) (l : List XDest) : List XDest :=
  sortBy (fun a b => decide (a.key < b.key)) (l.filter (fun x => x.die = d))

/-- The 512-byte header of a die's buffer (R154). -/
def xHeader (rows : List XDest) : Bytes :=
  (List.range 32).flatMap (fun sl =>
    let n := (rows.filter (fun x => x.slot = sl)).length
    match rows.findIdx? (fun x => x.slot = sl) with
    | none => List.replicate 16 0
    | some i => natLe n 4 ++ natLe i 4 ++ natLe ((rows[i]?.map (·.row.expert)).getD 0) 2 ++ List.replicate 6 0)

/-- The tag of a row (R154), and a row from its tag. -/
def xTag (r : XRow) (aux : Nat) : Bytes :=
  natLe r.src 2 ++ natLe r.tok 2 ++ natLe r.rank 1 ++ [0] ++ natLe r.expert 2 ++ natLe r.gate.toNat 4 ++ natLe aux 4
def xRowOf (b : Bytes) : XRow :=
  { src := fieldLe b 0 2, tok := fieldLe b 2 2, rank := cmdByte b 4, expert := fieldLe b 6 2, gate := BitVec.ofNat 32 (fieldLe b 8 4) }

/-- The address of row r of the exchange buffer of die d, for rows of some units (R154). -/
def xRowAt (e : Group) (d r units : Nat) : Nat := ssramPa d (e.xbuf + 512 + r * (16 + 16 * units))

/-- The group entry by which die d's buffer is placed: that of a member on the die, else the first member's. -/
def dieEntry (ps : List Part) (d : Nat) : Option Group :=
  ((ps.find? (fun p => decide (p.j.g / 32 = d))).or ps.head?).map (·.e)

/-- A die's whole buffer is visible (R154): every member on the die with SEM_EN is signalled. -/
def State.dieVisible (s : State) (j : Joined) (d : Nat) : State :=
  ((s.allJoined j).filter (fun x => decide (x.g / 32 = d) && collSemEn x.bytes)).foldl (fun s x => s.signal x.g (collSem x.bytes) 1) s

/-- The latest EXCHANGE of a group is changed. -/
def State.modExchange (s : State) (map : Nat) (f : ExchangeRec → ExchangeRec) : State :=
  { s with exchanges := s.exchanges.map (fun x => if x.map = map then f x else x) }

/-- A row has reached the buffer of its die. -/
def State.rowArrived (s : State) (j : Joined) (d : Nat) : State :=
  let left := ((s.exchanges.find? (fun x => x.map = j.map && x.order = j.order)).map (fun x => mapGet 0 x.left d)).getD 0
  let s := s.modExchange j.map (fun x => if x.order = j.order then { x with left := mapSet 0 x.left d (left - 1) } else x)
  if left = 1 then s.dieVisible j d else s

/-- Tile t of a member of an EXCHANGE (R137, R139, R154): token t's row and AUX word are read once and written to each destination;
after the tokens come the counts at DST, in a tile of their own (DESIGN CHOICE, log entry 111). -/
def State.exchangeTile (s : State) (p : Part) (t : Nat) : Tile × State :=
  if t < xTokens p.d then
    let row := (dSrc p.d + 16 * xSrcStride p.d * t, 16 * xUnits p.d)
    match s.fetchAll p.q (row :: (if xAux p.d = 0 then [] else [(xAux p.d + 4 * t, 4)])) with
    | (.done, bs, s) =>
      let s := (s.finderRead p.q row.1 row.2).dropIo p.q.who
      (.done, (p.j.sends.filter (fun x => x.row.tok = t)).foldl (fun s x =>
        (s.writeKey p.q (xRowAt p.e x.die x.pos (xUnits p.d)) (xTag x.row (leNat (bs.getD 1 [])) ++ bs.getD 0 [])).rowArrived p.j x.die) s)
    | (y, _, s) => (y, s)
  else if dDst p.d = 0 then (.done, s)
  else
    match s.prepWrites p.q [(dDst p.d, 64)] with
    | (.done, s) => (.done, s.writeRange p.q (s.unitCore p.q.g) (dDst p.d) ((List.range 16).flatMap (fun d =>
        natLe (p.j.sends.filter (fun y => y.die = d)).length 4)))
    | r => r

/-- A member's EXCHANGE goes on. -/
def State.runExchange (s : State) (p : Part) : State :=
  match s.runMember p (xTokens p.d + 1) (fun s t => s.exchangeTile p t) with
  | (.done, s) => s.partEnd p 0 false
  | (_, s) => s

/-- What the members of an EXCHANGE must agree in (R150, R153). -/
def exchangeCommon (d : Bytes) : List Nat := [dType d, collId d, xK d, xLayer d, xUnits d]

/-- Every member of an EXCHANGE has joined (R154): from the counts, every row has its position; a buffer that would overflow ends all
with 0x33; else the headers are written and the rows may go. -/
def State.startExchange (s : State) (ps : List Part) : State :=
  match ps.head? with
  | none => s
  | some p =>
    let all := ps.flatMap (fun p => p.j.dests)
    let dies := (List.range 16).filter (fun d => ps.any (fun p => p.j.g / 32 = d) || all.any (fun x => x.die = d))
    let units := xUnits p.d
    let count (d : Nat) : Nat := (all.filter (fun x => x.die = d)).length
    if dies.any (fun d => decide (((dieEntry ps d).map (·.xbytes)).getD 0 < 512 + count d * (16 + 16 * units))) then s.allEnd ps 0x33
    else
      let place (x : XDest) : XSend :=
        { die := x.die, pos := ((dieRows x.die all).findIdx? (fun y => decide (y.row = x.row))).getD 0, row := x.row }
      let s := dies.foldl (fun s d =>
        s.writeKey p.q (ssramPa d (((dieEntry ps d).map (·.xbuf)).getD 0)) (xHeader (dieRows d all))) s
      let s := ps.foldl (fun s p => s.modJoin p.j (fun x => { x with phase := .running, sends := x.dests.map place })) s
      let rows := dies.map (fun d => (d, count d))
      let s := s.modExchange p.j.map (fun x => if x.order = p.j.order then { x with rows := rows, left := rows } else x)
      dies.foldl (fun s d => if count d = 0 then s.dieVisible p.j d else s) s

/-! ### COMBINE (R156, R157) -/

/-- Fields of a COMBINE. -/
def cInit (d : Bytes) : Nat := fieldLe d 24 8
def cFirst (d : Bytes) : Nat := fieldLe d 32 4
def cCount (d : Bytes) : Nat := fieldLe d 36 4
def cTokens (d : Bytes) : Nat := fieldLe d 40 2
def cK (d : Bytes) : Nat := cmdByte d 42
def cElems (d : Bytes) : Nat := fieldLe d 44 2
def cSrcStride (d : Bytes) : Nat := fieldLe d 46 2
def cDstStride (d : Bytes) : Nat := fieldLe d 48 2
def cInitStride (d : Bytes) : Nat := fieldLe d 50 2
def cSrcRow (d : Bytes) : Nat := cElems d * codeSize (dSfmt d)
def cDstRow (d : Bytes) : Nat := cElems d * codeSize (dDfmt d)

/-- The field checks of a COMBINE (R156). -/
def State.combineCheck (s : State) (q : Requester) (c : EngCmd) (d : Bytes) (i : Nat) : Nat :=
  let n := cTokens d
  let short (m stride row : Nat) : Bool := decide (1 < m) && decide (16 * stride < row)
  s.collCheck q.g c d (badHeader d i [7, 9] [0, 1, 7, 9] true true true [(43, 43), (52, 63)])
    ((decide (cCount d ≠ 0) && !s.nameOk q (dSrc d) (rowSpan (cCount d) (16 * cSrcStride d) (cSrcRow d)) .read) ||
      (decide (n ≠ 0) && !s.nameOk q (dDst d) (rowSpan n (16 * cDstStride d) (cDstRow d)) .write) ||
      (decide (n ≠ 0) && decide (cInit d ≠ 0) && !s.nameOk q (cInit d) (rowSpan n (16 * cInitStride d) (cSrcRow d)) .read) ||
      short (cCount d) (cSrcStride d) (cSrcRow d) || short n (cDstStride d) (cDstRow d) ||
      (decide (cInit d ≠ 0) && short n (cInitStride d) (cSrcRow d)))
    (decide (cElems d = 0 ∨ 16384 < cElems d ∨ cK d = 0 ∨ 16 < cK d))

def combineCommon (d : Bytes) : List Nat := [dType d, collId d, cK d, cElems d]

/-- The rows that the members of die d return are 0 to n - 1, each once (R156). -/
def coversOnce (ps : List Part) (d n : Nat) : Bool :=
  let rows := (ps.filter (fun p => p.j.g / 32 = d)).flatMap (fun p => (List.range (cCount p.d)).map (cFirst p.d + ·))
  decide (rows.length = n) && (List.range n).all (fun i => rows.contains i)

/-- Bytes of a slot of a return buffer: the row's tag and the row (log entry 18). -/
def slotBytes (d : Bytes) : Nat := 16 + cSrcRow d

/-- The ranks of one token in the order they are added (R157): ascending in deterministic mode, else the arrival order that
the command names, if it is an order of them. -/
def rankOrder (det : Bool) (k : Nat) (order : List Nat) : List Nat :=
  if !det && decide (order.length = k) && (List.range k).all (fun r => order.contains r) then order else List.range k

/-- The weighted sum of one token (R157). -/
def combineRow (d : Bytes) (init : Option Bytes) (rows : List (Nat × Bytes)) : Bytes :=
  let z := codeSize (dSfmt d)
  (List.range (cElems d)).flatMap (fun j =>
    let el (b : Bytes) : FVal := elemVal (dSfmt d) (fieldLe b (z * j) z)
    let start := match init with | some b => rne32 (el b) | none => 0
    let acc := rows.foldl (fun acc r => rne32 (ffma (f32 r.1) (el r.2) (f32 acc))) start
    elemBytes (dDfmt d) (dSat d) (f32 acc))

/-- The return buffer slot of a token's rank (R156): of the several members that one core serves (R453), each has its own RBUF_BYTES
from RBUF on (DESIGN CHOICE, log entry 111). -/
def returnSlot (p : Part) (tok rank : Nat) : Nat :=
  ssramPa (p.j.g / 32) (p.e.rbuf + p.j.sub * p.e.rbytes + (tok * cK p.d + rank) * slotBytes p.d)

/-- Row i that a member returns (R156, R157): it is read with the tag in front of the exchange-buffer row that it answers, and staged in
the return buffer of the member that the tag names. A tag that names no token and rank of a member leads nowhere (DESIGN CHOICE,
log entry 111). -/
def State.returnTile (s : State) (p : Part) (x : ExchangeRec) (i : Nat) : Tile × State :=
  let row := (dSrc p.d + 16 * cSrcStride p.d * i, cSrcRow p.d)
  match s.fetch p.q row.1 row.2 with
  | (.done, bs, s) =>
    let s := (s.finderRead p.q row.1 row.2).dropIo p.q.who
    match s.readKey p.q (xRowAt p.e (p.j.g / 32) (cFirst p.d + i) x.units) 16 with
    | (none, s) => (.err 4, s)
    | (some tag, s) =>
      let r := xRowOf tag
      match (s.parts p.j).find? (fun y => decide (y.j.member = r.src) && decide (r.tok < cTokens y.d) && decide (r.rank < cK y.d)) with
      | none => (.done, s)
      | some y =>
        (.done, (s.writeKey p.q (returnSlot y r.tok r.rank) (tag ++ bs)).modJoin y.j (fun z => { z with got := if z.got.contains (r.tok, r.rank) then z.got else z.got ++ [(r.tok, r.rank)] }))
  | (y, _, s) => (y, s)

/-- Contributions of a token read from the return buffer, in the order given: weight and row. -/
def State.contributions (s : State) (p : Part) (tok : Nat) (ranks : List Nat) : Option (List (Nat × Bytes)) × State :=
  ranks.foldl (fun a r =>
    match a.1 with
    | none => a
    | some l =>
      match a.2.readKey p.q (returnSlot p tok r) (slotBytes p.d) with
      | (none, s) => (none, s)
      | (some b, s) => (some (l ++ [(fieldLe b 8 4, sliceBytes b 16 (cSrcRow p.d))]), s)) (some [], s)

/-- Token t of a member is written, all its contributions being there (R157). -/
def State.combineTile (s : State) (p : Part) (base : Nat) (order : List Nat) (t : Nat) : Tile × State :=
  let k := cK p.d
  let dst := (dDst p.d + 16 * cDstStride p.d * t, cDstRow p.d)
  match s.prepWrites p.q [dst] with
  | (.done, s) =>
    match s.fetchAll p.q (if cInit p.d = 0 then [] else [(cInit p.d + 16 * cInitStride p.d * t, cSrcRow p.d)]) with
    | (.done, init, s) =>
      let s := s.dropIo p.q.who
      match s.contributions p t (rankOrder s.boot.deterministic k ((order.drop ((base + t) * k)).take k)) with
      | (none, s) => (.err 4, s)
      | (some rows, s) => (.done, s.writeRange p.q (s.unitCore p.q.g) dst.1 (combineRow p.d init.head? rows))
    | (y, _, s) => (y, s)
  | r => r

/-- The tokens of a member whose contributions are all there are written, in ascending order; one that fails ends its descriptor. -/
def State.combineOut (s : State) (p : Part) (base : Nat) (order : List Nat) : State :=
  ((List.range (cTokens p.d)).foldl (fun (a : Bool × State) t =>
    let j := a.2.joinNow p.j
    if a.1 || j.outs.contains t || !(List.range (cK p.d)).all (fun r => j.got.contains (t, r)) then a
    else
      match a.2.combineTile p base order t with
      | (.done, s) => (false, s.modJoin p.j (fun x => { x with outs := x.outs ++ [t] }))
      | (.wait, s) => (false, s)
      | (.err e, s) => (true, s.partEnd p e false)) (false, s)).2

/-- A COMBINE's members go on: each returns its rows, then writes the tokens that have all their contributions; a member whose rows are
returned and whose tokens are written completes. -/
def State.runCombine (s : State) (j : Joined) (order : List Nat) : State :=
  match s.exchanges.find? (fun x => x.map = j.map) with
  | none => s
  | some x =>
    let s := (s.parts j).foldl (fun s p => (s.runMember p (cCount p.d) (fun s i => s.returnTile p x i)).2) s
    ((s.parts j).foldl (fun (a : Nat × State) p =>
      let s := a.2.combineOut p a.1 order
      let j := s.joinNow p.j
      (a.1 + cTokens p.d,
        if j.isOpen && decide (j.tile = cCount p.d) && decide (j.outs.length = cTokens p.d) then s.partEnd p 0 true else s)) (0, s)).2

/-- Every member of a COMBINE has joined (R156): it answers the latest EXCHANGE issued on the group. -/
def State.startCombine (s : State) (ps : List Part) : State :=
  let x := (s.exchanges.find? (fun x => ps.any (fun p => p.j.map = x.map))).getD
    { map := 0, order := 0, k := 0, units := 0, tokens := [], rows := [], left := [] }
  let dies := (List.range 16).filter (fun d => ps.any (fun p => p.j.g / 32 = d) || (mapFind x.rows d).isSome)
  if ps.any (fun p => decide (p.e.rbytes < cTokens p.d * cK p.d * slotBytes p.d)) then s.allEnd ps 0x33
  else if ps.any (fun p => decide (cK p.d ≠ x.k) || decide (mapFind x.tokens p.j.member ≠ some (cTokens p.d))) ||
      dies.any (fun d => !coversOnce ps d (mapGet 0 x.rows d)) then s.allEnd ps 0x34
  else ps.foldl (fun s p => s.modJoin p.j (fun y => { y with phase := .running })) s

/-! ### REDUCE (R158, R159) -/

/-- Fields of a REDUCE. -/
def rCount (d : Bytes) : Nat := fieldLe d 24 4
def rMax (d : Bytes) : Bool := bit (cmdByte d 28) 0
def rRoot (d : Bytes) : Nat := fieldLe d 30 2

/-- The member receives the result. -/
def rReceives (d : Bytes) (self : Nat) : Bool := rRoot d = 0xFFFF || rRoot d = self

/-- The field checks of a REDUCE (R158). -/
def State.reduceCheck (s : State) (q : Requester) (c : EngCmd) (d : Bytes) (i : Nat) : Nat :=
  let e := s.group q.g (collGroup d)
  let mine := rReceives d (s.nextIssue q.g (collGroup d)).2.1
  let n := rCount d
  s.collCheck q.g c d
    (badHeader d i [7, 9] [0, 1, 7, 9] true true true [(29, 29), (32, 63)] || decide (cmdByte d 28 / 2 ≠ 0) || (!mine && decide (dDst d ≠ 0)))
    (!s.nameOk q (dSrc d) (n * codeSize (dSfmt d)) .read || (mine && !s.nameOk q (dDst d) (n * codeSize (dDfmt d)) .write))
    (decide (n = 0 ∨ 2 ^ 22 < n) || (decide (rRoot d ≠ 0xFFFF) && decide (e.members ≤ rRoot d)))

def reduceCommon (d : Bytes) : List Nat := [dType d, collId d, rCount d, b2n (rMax d), rRoot d, dSfmt d]

/-- One element of the result (R159), members in the order given. -/
def reduceElem (mx : Bool) (xs : List FVal) : Nat :=
  match xs with
  | [] => 0
  | x :: l => l.foldl (fun acc v => if mx then rne32 (vmaxF (f32 acc) v) else rne32 (fadd (f32 acc) v)) (rne32 x)

/-- The order of members for a chunk (R159): ascending in deterministic mode, else as the command names it. -/
def memberOrder (det : Bool) (n : Nat) (order : List Nat) : List Nat := rankOrder det n order

/-- Elements of one tile of a REDUCE (R137): 4 KiB of a contribution. -/
def reducePer (d : Bytes) : Nat := 4096 / max 1 (codeSize (dSfmt d))

/-- Tiles of a REDUCE. -/
def reduceTiles (d : Bytes) : Nat := (rCount d + reducePer d - 1) / reducePer d

/-- First element and number of elements of tile i. -/
def reduceSpan (d : Bytes) (i : Nat) : Nat × Nat := (i * reducePer d, min (reducePer d) (rCount d - i * reducePer d))

/-- The source range of tile i, and its destination on a member that receives. -/
def reduceSrc (p : Part) (i : Nat) : Nat × Nat :=
  (dSrc p.d + (reduceSpan p.d i).1 * codeSize (dSfmt p.d), (reduceSpan p.d i).2 * codeSize (dSfmt p.d))
def reduceDst (p : Part) (i : Nat) : List (Nat × Nat) :=
  if rReceives p.d p.j.member then [(dDst p.d + (reduceSpan p.d i).1 * codeSize (dDfmt p.d), (reduceSpan p.d i).2 * codeSize (dDfmt p.d))] else []

/-- The result of one tile (R159) from its contributions, members in the order given. -/
def reduceResult (d : Bytes) (n : Nat) (srcs : List Bytes) (o : List Nat) : List Nat :=
  let z := codeSize (dSfmt d)
  (List.range n).map (fun i => reduceElem (rMax d) (o.map (fun m => elemVal (dSfmt d) (fieldLe (srcs.getD m []) (z * i) z))))

/-- Tile i of a REDUCE over all its members (R137, R139, R159): it starts once every page it touches is translated; a member whose page
fails or whose contribution is poisoned ends there, and the tile is written where all contributions are there. True if the next
may follow. -/
def State.reduceTile (s : State) (ps : List Part) (i : Nat) (order : List Nat) : Bool × State :=
  let r := ps.foldl (fun (a : List (Tile × Tile × Bytes) × State) p =>
    let w := a.2.prepWrites p.q (reduceDst p i)
    let f := w.2.fetch p.q (reduceSrc p i).1 (reduceSrc p i).2
    (a.1 ++ [(w.1, f.1, f.2.1)], f.2.2)) ([], s)
  let s := r.2
  if r.1.any (fun x => decide (x.1 = .wait) || decide (x.2.1 = .wait)) then (false, s)
  else
    let s := ps.foldl (fun s p => (s.finderRead p.q (reduceSrc p i).1 (reduceSrc p i).2).dropIo p.q.who) s
    let whole := r.1.all (fun x => decide (x.2.1 = .done))
    let d := (ps.head?.map (·.d)).getD []
    let o := memberOrder s.boot.deterministic ps.length ((order.drop (i * ps.length)).take ps.length)
    let res := if whole then reduceResult d (reduceSpan d i).2 (r.1.map (·.2.2)) o else []
    ((r.1.all (fun x => decide (x.1 = .done) && decide (x.2.1 = .done))),
      (ps.zip r.1).foldl (fun s x =>
        match x.2.1, x.2.2.1 with
        | .err e, _ => s.partEnd x.1 e false
        | _, .err e => s.partEnd x.1 e false
        | _, _ =>
          if !whole then s
          else
            let s := (reduceDst x.1 i).foldl (fun s w => s.writeRange x.1.q (s.unitCore x.1.q.g) w.1
              (res.flatMap (fun v => elemBytes (dDfmt x.1.d) (dSat x.1.d) (f32 v)))) s
            if i + 1 = reduceTiles x.1.d then s.partEnd x.1 0 true else s.modJoin x.1.j (fun y => { y with tile := i + 1 })) s)

/-- A REDUCE goes on, n tiles at most, while all its members take part. A member that has ended with an error leaves the others waiting
for its contribution until the watchdog (DESIGN CHOICE, log entry 111). -/
def State.runReduce : Nat → State → Joined → List Nat → State
  | 0, s, _, _ => s
  | n + 1, s, j, order =>
    let ps := s.parts j
    match ps.head? with
    | none => s
    | some p =>
      if (s.allJoined j).any (fun x => !x.isOpen) || decide (ps.length < p.e.members) then s
      else
        match s.reduceTile ps p.j.tile order with
        | (true, s) => State.runReduce n s j order
        | (false, s) => s

/-! ### Joining and carrying out (R149 to R151) -/

/-- What a descriptor of each collective type has in common with its partners. -/
def commonOf (d : Bytes) : List Nat :=
  match dType d with
  | 7 => exchangeCommon d
  | 8 => combineCommon d
  | _ => reduceCommon d

/-- The members that have joined go on. -/
def State.goOn (s : State) (j : Joined) (order : List Nat) : State :=
  match dType j.bytes with
  | 7 => (s.parts j).foldl (fun s p => s.runExchange p) s
  | 8 => s.runCombine j order
  | _ => State.runReduce (reduceTiles j.bytes) s j order

/-- Every member has joined: mismatched descriptors end all with 0x34, matched ones begin. -/
def State.begins (s : State) (ps : List Part) (p : Part) : State :=
  if ps.any (fun x => decide (commonOf x.d ≠ commonOf p.d)) then s.allEnd ps 0x34
  else
    match dType p.d with
    | 7 => s.startExchange ps
    | 8 => s.startCombine ps
    | _ => ps.foldl (fun s p => s.modJoin p.j (fun y => { y with phase := .running })) s

/-- The collective that j belongs to goes on as far as it can; with the last member it begins. -/
def State.fire (s : State) (j : Joined) (order : List Nat) : State :=
  let j := s.joinNow j
  if j.phase = .running then (s.goOn j order).closeColl j
  else if j.phase = .waiting then
    let ps := s.parts j
    match ps.head? with
    | none => s
    | some p =>
      if ps.length < p.e.members then s
      else
        let s := s.begins ps p
        (if (s.joinNow j).phase = .running then s.goOn j order else s).closeColl j
  else s

/-- The collectives that a channel takes part in go on. -/
def State.fireAll (s : State) (g ch : Nat) (order : List Nat) : State :=
  (s.joins.filter (fun j => j.isOpen && j.onQueue g (2 + ch))).foldl (fun s j => s.fire j order) s

/-- An EXCHANGE is issued by a member (R156): it is the group's latest. -/
def State.noteExchange (s : State) (e : Group) (k : Nat × Nat × Nat) (d : Bytes) : State :=
  if dType d ≠ 7 then s
  else
    let fresh : ExchangeRec := { map := e.map, order := k.1, k := xK d, units := xUnits d, tokens := [], rows := [], left := [] }
    let old := (s.exchanges.find? (fun x => x.map = e.map)).getD fresh
    if k.1 < old.order then s
    else
      let r := if old.order = k.1 then old else fresh
      { s with exchanges := s.exchanges.filter (fun x => x.map ≠ e.map) ++ [{ r with tokens := mapPut r.tokens k.2.1 (xTokens d) }] }

/-- A collective descriptor is issued on its group (R150), whether it joins or ends at its check. -/
def State.issue (s : State) (g : Nat) (d : Bytes) : State :=
  (s.noteExchange (s.group g (collGroup d)) (s.nextIssue g (collGroup d)) d).countIssue g (collGroup d)

/-- The member joins its group (R149, R150). A descriptor of the chain that follows with ORDER 0 and is a collective too may then start
(R136): a core that serves several members has all their descriptors joined at once (R453). -/
def State.join (s : State) (g ch : Nat) (c : EngCmd) (d : Bytes) (routes : List (List (Nat × Nat × Nat))) : State × Joined :=
  let e := s.group g (collGroup d)
  let k := s.nextIssue g (collGroup d)
  let j : Joined := { g := g, chan := ch, map := e.map, order := k.1, member := k.2.1, sub := k.2.2, bytes := d, phase := .waiting,
                      tile := 0, routes := routes, sends := [], got := [], outs := [] }
  let next := c.descriptor (c.desc + 1)
  let on := decide (c.desc + 1 < c.bytes.length / 64) && !bit (cmdByte next 1) 6 && decide (7 ≤ dType next ∧ dType next ≤ 9)
  let s := s.issue g d
  (({ s with joins := s.joins ++ [j] }).setHead g (2 + ch)
    (if on then { c with desc := c.desc + 1, tile := 0, checked := false, joined := false } else { c with checked := true, joined := true }), j)

/-- A collective descriptor is next: with code e of its own checks, and more, which reads its routes. An expert map entry that is not
valid comes before the codes that follow 0x30 in the table (R138). -/
def State.joinNext (s : State) (g : CoreId) (ch : Chan) (c : EngCmd) (e : Nat)
    (more : State → Tile × List (List (Nat × Nat × Nat)) × State) (order : List Nat) : State :=
  let d := c.descriptor c.desc
  let bad (s : State) (e : Nat) : State := (s.issue g d).halt g (2 + ch) e c.ticket
  if e = 0 then
    match more s with
    | (.wait, _, s) => s
    | (.err e, _, s) => bad (s.dropIo (.chan g ch)) e
    | (.done, l, s) =>
      let r := (s.dropIo (.chan g ch)).join g ch c d l
      r.1.fire r.2 order
  else if 0x30 < e then
    match more s with
    | (.err 0x30, _, s) => bad (s.dropIo (.chan g ch)) 0x30
    | _ => bad s e
  else bad s e

/-- A descriptor of a collective type is next, or waits joined: it is checked and joins, and the collective is carried out
if all have joined. more says what else must hold before it joins. -/
def State.collective (s : State) (g : CoreId) (ch : Chan) (t : Nat) (check : Requester → EngCmd → Bytes → Nat → Nat)
    (more : State → Requester → Bytes → Tile × List (List (Nat × Nat × Nat)) × State) (order : List Nat) : State :=
  match s.running g ch (· = t) with
  | none => s
  | some c =>
    if c.joined then s.fireAll g ch order
    else
      let q := dmaReq g ch c
      s.joinNext g ch c (check q c (c.descriptor c.desc) c.desc) (fun s => more s q (c.descriptor c.desc)) order

/-- EXCHANGE (R153, R154): the experts that a member routes to must be in the expert map (R155). -/
def execExchange (g : CoreId) (ch : Chan) (s : State) : Res :=
  .next (s.collective g ch 7 s.exchangeCheck (fun s q d => s.routes q d) [])

/-- COMBINE (R156, R157); order names the arrival order of the contributions, token by token over the members. -/
def execCombine (g : CoreId) (ch : Chan) (order : List Nat) (s : State) : Res :=
  .next (s.collective g ch 8 s.combineCheck (fun s _ _ => (.done, [], s)) order)

/-- REDUCE (R158, R159); order names the arrival order of the members, chunk by chunk. -/
def execReduce (g : CoreId) (ch : Chan) (order : List Nat) (s : State) : Res :=
  .next (s.collective g ch 9 s.reduceCheck (fun s _ _ => (.done, [], s)) order)

/-! ### TILE_START (R232) and targets that do not answer (R179) -/

/-- TILE_START (R232): the next tile of a checked descriptor starts once its pages are translated, and those after it; so do the tiles
of collectives that the channel takes part in. -/
def execTileStart (g : CoreId) (ch : Chan) (s : State) : Res :=
  match s.running g ch (fun t => decide (t ≤ 9)) with
  | none => .next s
  | some c =>
    if s.openOn g ch then .next (s.fireAll g ch [])
    else .next (if c.checked && decide (dType (c.descriptor c.desc) ≤ 6) then s.runDesc g ch c else s)

/-- What the tile that a member of a collective comes to next gives, with its reads of targets that do not answer abandoned. -/
def State.memberTile (s : State) (p : Part) : Tile × State :=
  let p := { p with q := { p.q with abandon := true } }
  match dType p.d with
  | 7 => s.exchangeTile p p.j.tile
  | 8 =>
    if p.j.tile < cCount p.d then
      match s.exchanges.find? (fun x => x.map = p.j.map) with
      | some x => s.returnTile p x p.j.tile
      | none => (.done, s)
    else
      match (List.range (cTokens p.d)).find? (fun t =>
          !p.j.outs.contains t && (List.range (cK p.d)).all (fun r => p.j.got.contains (t, r))) with
      | some t => s.combineTile p 0 [] t
      | none => (.done, s)
  | _ => let f := s.fetch p.q (reduceSrc p p.j.tile).1 (reduceSrc p p.j.tile).2; (f.1, f.2.2)

/-- The read that a DMA channel waits for at a target that does not answer is treated as poisoned, error 0x04 (R179). -/
def State.deadRead (s : State) (g : CoreId) (ch : Chan) (c : EngCmd) : State :=
  let d := c.descriptor c.desc
  let q := { dmaReq g ch c with abandon := true }
  match s.joins.find? (fun j => decide (j.phase = .running) && j.onQueue g (2 + ch.val)) with
  | some j =>
    match (s.parts j).find? (fun p => j.same p.j) with
    | some p =>
      match s.memberTile p with
      | (.err 4, s') => (s'.partEnd p 4 false).closeColl j
      | _ => s
    | none => s
  | none =>
    if c.checked && decide (dType d ≤ 6) then
      match s.tile q d c.tile with
      | (.err 4, s') => s'.halt g (2 + ch) 4 c.ticket
      | _ => s
    else if dType d = 7 && !c.joined then
      match s.routes q d with
      | (.err 4, _, s') => (s'.issue g d).halt g (2 + ch) 4 c.ticket
      | _ => s
    else s

/-- TARGET_TIMEOUT (R179, R221): writes of the queue to targets that do not answer are abandoned and count as performed; a
read that waits for one is treated as poisoned, error 0x04. -/
def execTargetTimeout (g : CoreId) (q : QueueId) (s : State) : Res :=
  if (s.core g).deadWrites.any (fun w => w.q = q.val) then .next (s.abandonWrites g q.val)
  else if q.val < 2 then .next s
  else
    let ch : Chan := ⟨(q.val - 2) % 2, Nat.mod_lt _ (by decide)⟩
    match s.running g ch (fun t => decide (t ≤ 9)) with
    | none => .next s
    | some c => .next (s.deadRead g ch c)

/-! ### The watchdog (R152) -/

/-- BROKEN is set in every entry of core g whose member map is map. -/
def State.breakGroup (s : State) (map g : Nat) : State :=
  (List.range 16).foldl (fun s i =>
    let e := s.group g i
    if e.valid && decide (e.map = map) then
      { s with mem := s.mem.write (groupAt g i + 4) [s.mem.byte (groupAt g i + 4) ||| 2] } else s) s

/-- A member waits for others: they have not joined, or, of a COMBINE or REDUCE at work, one has ended with an error or is gone. That
the watchdog bounds this second wait too is a DESIGN CHOICE (log entry 111). -/
def State.waitsForMembers (s : State) (j : Joined) : Bool :=
  let n := (s.group j.g (collGroup j.bytes)).members
  match j.phase with
  | .waiting => decide ((s.parts j).length < n)
  | .running => decide (dType j.bytes ≠ 7) &&
      (decide ((s.allJoined j).length < n) || (s.allJoined j).any (fun x => decide (x.phase = .failed)))
  | _ => false

/-- COLLECTIVE_TIMEOUT (R152): the joined members end with error 0x35, the group entry of every member is BROKEN, and a
collective-timeout fault is recorded. -/
def execCollectiveTimeout (g : CoreId) (ch : Chan) (s : State) : Res :=
  match s.joins.find? (fun j => j.onQueue g (2 + ch.val) && s.waitsForMembers j) with
  | none => .next s
  | some j =>
    let e := s.group g (collGroup j.bytes)
    let cores := s.memberMap e.map e.members
    let s := (s.allEnd (s.parts j) 0x35).closeColl j
    let s := cores.foldl (fun s x => s.breakGroup e.map x) s
    .next (s.report (event 16 (unitDie (g.val / 32))
      (collId j.bytes + collGroup j.bytes <<< 16 + g.val <<< 20)))

end Sys2Proof.Machine
end

