-- ==== Sys2Proof/Machine/Finder.lean ====
section
/-! DEFINITION. PREFETCH descriptors (R160, R161) and the Finder (R162 to R166). -/

namespace Sys2Proof.Machine

/-- LEVEL and LAYER of a PREFETCH descriptor (R160). -/
def pLevel (d : Bytes) : Nat := bits (dParam d) 7 0
def pLayer (d : Bytes) : Nat := bits (dParam d) 15 8

/-- The check of a PREFETCH of levels 0 and 1 (R160, R161), of level 2 and of level 3. -/
def rangeCheck (d : Bytes) (i : Nat) : Nat :=
  let n := fieldLe d 24 8
  firstCode [(badHeader d i [0] [0] false true false [(32, 63)] || decide (bits (dParam d) 31 16 ≠ 0), 1),
    (decide (n = 0 ∨ 2 ^ 36 < n), 0x31)]

def State.predictCheck (s : State) (q : Requester) (d : Bytes) (i : Nat) : Nat :=
  let n := fieldLe d 24 8
  firstCode [(badHeader d i [0] [0] false true false [(32, 63)] || decide (bits (dParam d) 31 16 ≠ 0), 1),
    (!s.nameOk q (dSrc d) (4 * min n 512) .read, 2), (decide (n = 0 ∨ 512 < n), 0x31)]

def beginCheck (d : Bytes) (i : Nat) : Nat :=
  if badHeader d i [0] [0] false false false [(24, 63)] || decide (bits (dParam d) 31 16 ≠ 0) then 1 else 0

/-- One page of a LEVEL 1 range is translated into the channel's caches, or asked for without a page request; a page that cannot be
is skipped (R160, R161). The completion fills the channel's L1. -/
def State.prefetchPage (s : State) (q : Requester) (ptr len : Nat) : Tile × State :=
  let fn := s.reqFn q
  let pasid := s.reqPasid q
  let hub := q.g / 128
  let va := spaceOff ptr
  if !s.mayName q.fw q.tag ptr len .read then (.done, s)
  else if space ptr ≠ 0 then (.done, s.touchL1 q ptr)
  else
    match s.xlt.lookup q.unit hub fn pasid va with
    | (some _, x) => (.done, { s with xlt := x })
    | (none, x) =>
      let s := ({ s with xlt := x }).askAts hub fn pasid va false
      if !(s.fn fn).atsEnable then (.done, s)
      else if s.xlt.ats.any (fun a => a.hub = hub && a.fn = fn && a.pasid = pasid && a.va = va / 4096 * 4096 && !a.stale) then
        (.done, match q.unit with
          | some u => s.wantL1 hub fn pasid va u
          | none => s)
      else (.wait, s)

/-- One page of a LEVEL 0 range (R160, R361): the host memory of a readable page is asked for by the device cache of HB0, line by line,
as far as requests may be sent. The hub shared caches hold of the other pages nothing that differs from memory. A request needs the
page's address, so the tile waits for its translation (DEDUCED, log entry 112). -/
def State.bringPage (s : State) (q : Requester) (ptr len : Nat) : Tile × State :=
  if space ptr ≠ 0 || !s.mayName q.fw q.tag ptr len .read then (.done, s)
  else
    match s.resolve q.who q.unit (q.g / 128) (s.reqFn q) (s.reqPasid q) (spaceOff ptr) false false with
    | (.wait, s) => (.wait, s)
    | (.ok hpa, s) =>
      let rd := match s.xlt.peek q.unit (q.g / 128) (s.reqFn q) (s.reqPasid q) (spaceOff ptr) with
        | some e => e.rd
        | none => false
      if !rd then (.done, s)
      else (.done, (linesOf hpa len).foldl (fun s p =>
        if isHostKey (s.hostTgt p.1).key then (s.dcReady (lineOf p.1) false false).2 else s) s)
    | (_, s) => (.done, s)

/-- Levels 0 and 1 (R160, R161): the range's pages in order, as far as requests may be sent. -/
def State.prefetchRange (s : State) (g : CoreId) (ch : Chan) (level : Nat) : State :=
  match s.running g ch (· = 10) with
  | none => s
  | some c =>
    let d := c.descriptor c.desc
    if pLevel d ≠ level then s
    else if !c.checked && decide (rangeCheck d c.desc ≠ 0) then s.halt g (2 + ch) (rangeCheck d c.desc) c.ticket
    else
      let q := dmaReq g ch c
      let pages := cutAt 4096 (fieldLe d 24 8 / 4096 + 2) (dSrc d) (fieldLe d 24 8)
      match runTiles (fun s i => match pages[i]? with
          | some p => if level = 0 then s.bringPage q p.1 p.2 else s.prefetchPage q p.1 p.2
          | none => (.done, s)) (pages.length - c.tile) c.tile s with
      | (i, .wait, s) => s.setHead g (2 + ch) { c with tile := i, checked := true }
      | (_, _, s) => s.descDone g ch c

/-- PREFETCH_LEVEL_0 (R160, R161). -/
def execPrefetchLevel0 (g : CoreId) (ch : Chan) (s : State) : Res := .next (s.prefetchRange g ch 0)

/-- PREFETCH_LEVEL_1 (R160, R161). -/
def execPrefetchLevel1 (g : CoreId) (ch : Chan) (s : State) : Res := .next (s.prefetchRange g ch 1)

/-! ### The Finder -/

/-- The Finder of die d. -/
def State.finder (s : State) (d : Nat) : Finder := mapGet Finder.reset s.finders d

/-- The state with a Finder replaced. -/
def State.setFinder (s : State) (d : Nat) (f : Finder) : State := { s with finders := mapPut s.finders d f }

/-- Die d is a home of an expert of a layer (R155), which has at most 512. -/
def State.homedOn (s : State) (d layer e : Nat) : Bool :=
  match (if 512 ≤ e then none else s.srv.main).bind (fun im => mapFind im.expertMap (512 * layer + e)) with
  | none => false
  | some w => bit w 38 && (List.range (bits w 37 36 + 1)).any (fun i => bits w (9 * i + 8) (9 * i + 5) = d)

/-- Experts that one half of the staging area holds (R162). -/
def State.halfBlocks (s : State) : Nat :=
  match s.srv.main with
  | none => 0
  | some im => im.info.stagingBytes / 2 / im.info.prefixBytes

/-- The Finder ranks (R163): experts homed on its die by descending summed weight, ties by lower ID, as many as fill the
filling half; their staging starts. -/
def State.finderRank (s : State) (d : Nat) (f : Finder) : Finder :=
  let l := sortBy (fun a b => decide (b.2 < a.2) || (decide (a.2 = b.2) && decide (a.1 < b.1)))
    (f.sums.filter (fun x => s.homedOn d f.layer x.1))
  { f with ranked := true,
           filling := (l.take s.halfBlocks).map (fun x => { expert := x.1, complete := false, read := false }) }

/-- Cores of die d that run the layer program: in service and in no raw program. -/
def State.layerCores (s : State) (d : Nat) : List Nat :=
  ((List.range 32).map (32 * d + ·)).filter (fun g => s.coreUp g && !s.heldByProgram g)

/-- Staged blocks are discarded: their bytes that were never read are counted (R166). PREFIX is prefixLen. -/
def Finder.drop (f : Finder) (prefixLen : Nat) (l : List Staged) : Finder :=
  { f with discarded := satAdd (2 ^ 64 - 1) f.discarded ((l.filter (fun x => x.complete && !x.read)).length * prefixLen) }

/-- PREFIX of the main image (R162). -/
def State.prefixLen (s : State) : Nat := (s.srv.main.map (·.info.prefixBytes)).getD 0

/-- The staging area of die d is discarded (R165, R451). -/
def State.dropStaging (s : State) (d : Nat) : State :=
  let f := s.finder d
  s.setFinder d { f.drop s.prefixLen (f.serving ++ f.filling) with sums := [], submitted := [], ranked := false, filling := [], serving := [] }

/-- A prediction list for a layer is submitted by core g (R163, R164). -/
def State.finderSubmit (s : State) (g layer : Nat) (l : List (Nat × Nat)) : State :=
  let d := g / 32
  let f := s.finder d
  let f := { f with predictions := satAdd (2 ^ 64 - 1) f.predictions 1 }
  if f.begun.contains layer then s.setFinder d { f with latePredictions := satAdd (2 ^ 64 - 1) f.latePredictions 1 }
  else
    let f := if f.layer = layer then f
      else { f.drop s.prefixLen f.filling with layer := layer, sums := [], submitted := [], ranked := false, filling := [] }
    if f.ranked then s.setFinder d f
    else
      let f := { f with sums := l.foldl (fun m p => mapPut m p.1 (mapGet 0 m p.1 + p.2)) f.sums,
                        submitted := setAdd f.submitted g }
      s.setFinder d (if (s.layerCores d).all (fun x => f.submitted.contains x) then s.finderRank d f else f)

/-- A layer begins on die d (R164): the halves exchange roles, once for each layer of a step. -/
def State.finderBegin (s : State) (d layer : Nat) : State :=
  let f := s.finder d
  if f.begun.contains layer then s
  else
    let hit := decide (f.layer = layer)
    s.setFinder d { f.drop s.prefixLen (f.serving ++ if hit then [] else f.filling) with
                    serving := if hit then f.filling else [], filling := [], servingLayer := layer, sums := [],
                    submitted := [], ranked := false, begun := f.begun ++ [layer] }

/-- A step begins: no layer of it has begun (R164). That the layers begin anew with every step is DEDUCED (log entry 112). -/
def State.freshLayers (s : State) : State := { s with finders := s.finders.map (fun x => (x.1, { x.2 with begun := [] })) }

/-- PREFETCH_LEVEL_2 (R163). -/
def execPrefetchLevel2 (g : CoreId) (ch : Chan) (s : State) : Res :=
  match s.running g ch (· = 10) with
  | none => .next s
  | some c =>
    let d := c.descriptor c.desc
    let q := dmaReq g ch c
    if pLevel d ≠ 2 then .next s
    else if s.predictCheck q d c.desc ≠ 0 then .next (s.halt g (2 + ch) (s.predictCheck q d c.desc) c.ticket)
    else
      match s.fetch q (dSrc d) (4 * fieldLe d 24 8) with
      | (.wait, _, s) => .next s
      | (.err e, _, s) => .next (s.halt g (2 + ch) e c.ticket)
      | (.done, bs, s) =>
        let s := s.dropIo q.who
        let l := (List.range (fieldLe d 24 8)).map (fun i => (fieldLe bs (4 * i) 2, fieldLe bs (4 * i + 2) 2))
        let s := if s.finderOn g then s.finderSubmit g (pLayer d) l else s
        .next (s.descDone g ch c)

/-- PREFETCH_LEVEL_3 (R164). -/
def execPrefetchLevel3 (g : CoreId) (ch : Chan) (s : State) : Res :=
  match s.running g ch (· = 10) with
  | none => .next s
  | some c =>
    let d := c.descriptor c.desc
    if pLevel d ≠ 3 then .next s
    else if beginCheck d c.desc ≠ 0 then .next (s.halt g (2 + ch) (beginCheck d c.desc) c.ticket)
    else .next ((if s.finderOn g then s.finderBegin (g / 32) (pLayer d) else s).descDone g ch c)

/-- FINDER_RANK_TIMEOUT (R163): 2^14 cycles after the first submission the Finder ranks without the missing ones. -/
def execFinderRankTimeout (d : DieId) (s : State) : Res :=
  let f := s.finder d
  if f.ranked || f.submitted.isEmpty || s.srv.main.isNone then .next s else .next (s.setFinder d (s.finderRank d f))

/-- FINDER_STAGING_DONE (R164): a staged block completes, in the filling half or, if the halves have exchanged roles, in
the serving half. -/
def execFinderStagingDone (d : DieId) (expert : BitVec 16) (s : State) : Res :=
  let f := s.finder d
  let e := expert.toNat
  let open' (l : List Staged) : Bool := l.any (fun x => decide (x.expert = e) && !x.complete)
  let fin (l : List Staged) : List Staged := l.map (fun x => if x.expert = e then { x with complete := true } else x)
  let n := satAdd (2 ^ 64 - 1) f.stagedCount 1
  if open' f.serving then .next (s.setFinder d { f with serving := fin f.serving, stagedCount := n })
  else if open' f.filling then .next (s.setFinder d { f with filling := fin f.filling, stagedCount := n })
  else .next s

end Sys2Proof.Machine
end

