-- ==== Sys2Proof/Machine/Ownership.lean ====
section
/-! DEFINITION. Ownership entries and their fences (R181 to R188), bandwidth regulators (R190, R191), patrol scrub (R193,
R194, R196). -/

namespace Sys2Proof.Machine

/-- A granule that exists: 2 MiB of a stack, or 64 KiB of a die's stacked SRAM. -/
def granuleExists (pa : Nat) : Bool :=
  decide (granuleOf pa = pa) &&
    (if paTarget pa < 0x10 then decide (paOffset pa < 0x300_0000)
     else (hbmStack pa).isSome && decide (paOffset pa < 2 ^ 36))

/-- The ownership table with one entry written; bits [31:23] are reserved and 0 (R182). -/
def State.setEntry (s : State) (granule : Nat) (e : BitVec 32) : State :=
  { s with own := mapSet (s.ownDefault granule) s.own granule (e &&& 0x7F_FFFF) }

/-- The contents of an HBM granule under another partition's key (R188, R195): what is stored decrypts to open values. -/
def State.rekey (s : State) (granule : Nat) (e : BitVec 32) : State :=
  if (hbmStack granule).isSome && decide (bits (s.entryOf granule).toNat 21 16 ≠ bits e.toNat 21 16) then
    { s.draw.2 with mem := s.mem.loseGranule granule s.draw.1 }
  else s

/-- OWNERSHIP_ENTRY_WRITE (R187): requests that reach the check from now on see the new entry, and a new PART is a new key (R182,
R195). -/
def execOwnershipEntryWrite (granule : BitVec 52) (entry : BitVec 32) (s : State) : Res :=
  if granuleExists granule.toNat then .next ((s.rekey granule.toNat entry).setEntry granule.toNat entry) else .next s

/-- OWNERSHIP_FENCE (R187): the fence of a table's island begins. -/
def execOwnershipFence (t : TableId) (s : State) : Res := .next { s with fences := setAdd s.fences t.val }

/-- OWNERSHIP_FENCE_DONE (R187): every request checked before the fence began has completed. In the model a request is
checked and performed in one step, so none is left. -/
def execOwnershipFenceDone (t : TableId) (s : State) : Res := .next { s with fences := setDel s.fences t.val }

/-! ### Regulators -/

/-- A window starts (R191): credit rises by RATE up to BURST, and the window before counts if a request was held in it. -/
def Regulator.window (r : Regulator) : Regulator :=
  { r with credit := min (r.credit + r.rate.toNat) r.burst.toNat, heldWindows := r.heldWindows + b2n r.held, held := false }

/-- REGULATOR_WINDOW (R191): every regulator of the hub gains its credit. -/
def execRegulatorWindow (h : HubId) (s : State) : Res :=
  .next { s with regulators := s.regulators.map (fun p => if p.1 / 64 = h.val then (p.1, p.2.window) else p) }

/-! ### Patrol scrub -/

/-- A word that patrol scrub reads: HBM and stacked SRAM, or, in the shared cache of a stack's hub, a word of HBM (R196). -/
def scrubbed (pa : Nat) (cache : Bool) : Bool :=
  (!cache && decide (paTarget pa < 0x10) && decide (paOffset pa < 0x300_0000)) ||
    ((hbmStack pa).isSome && decide (paOffset pa < 2 ^ 36))

/-- The event of a corrected or an uncorrected word that the scrubber finds (R434): in the shared cache sources 4 and 5 of hub island
H, else the source of the memory. -/
def State.scrubEvent (s : State) (k : Nat) (cache ue : Bool) : FaultEvent :=
  if cache then event (if ue then 5 else 4) (unitHub 1 (((hbmStack k).getD 0) / 3)) k
  else event (if ue then ueSource k else ceSource k) (s.unitOfKey k) k

/-- PATROL_SCRUB (R193, R194, R196): flip says how many bits of the stored codeword have flipped. One is corrected and
counted, two make the word poison, more give an open value; a word that a newer write has reached is counted and left alone, and
poison stays poison and is counted. -/
def execPatrolScrub (at_ : ScrubAt) (flip : Nat) (newer : Bool) (s : State) : Res :=
  let k := at_.word.toNat / 8 * 8
  let cache := at_.cache
  let ce := s.scrubEvent k cache false
  let ue := s.scrubEvent k cache true
  let poisoned (s : State) : State :=
    if newer then s else { s with mem := { s.mem with poison := setAdd s.mem.poison (k / 8) } }
  if !scrubbed k cache then .next s
  else if s.mem.poisoned k 8 then .next (s.report ue)
  else if flip = 0 then .next s
  else if flip = 1 then .next (s.report ce)
  else if flip = 2 then .next ((poisoned s).report ue)
  else
    let r := s.draw
    if r.1 % 2 = 0 then .next ((poisoned r.2).report ue)
    else
      let b := r.2.drawBytes 8
      .next ((if newer then b.2 else { b.2 with mem := s.mem.write k b.1 }).report ce)

end Sys2Proof.Machine
end

