-- ==== Sys2Proof/Machine/Translate.lean ====
section
/-! DEFINITION. ATS, page requests, fault records and invalidation (R228 to R242, R245). -/

namespace Sys2Proof.Machine

/-- A PASID field, or the number that stands for none (R279). -/
def pasidOf (p : Option (BitVec 20)) : Nat := match p with | some x => x.toNat | none => noPasid

/-- The hub whose L2 serves a waiter (R228). -/
def waiterHub : Waiter → Nat
  | .seq g => g.val / 128
  | .chan g _ => g.val / 128
  | .pkt .. => 0

/-- The state with a waiter's entry changed. -/
def State.setWait (s : State) (w w' : XWait) : State :=
  { s with xlt := { s.xlt with waits := s.xlt.waits.map (fun x => if x = w then w' else x) } }

/-- The waiter that stands for a packet. -/
def pktW (f r : Nat) (q : BitVec 16) : Waiter := .pkt (Fin.ofNat 64 f) (Fin.ofNat 64 r) q

/-- The pieces of a range in 4 KiB pages. -/
def pagesOf (p len : Nat) : List (Nat × Nat) := cutAt 4096 (len / 4096 + 2) p len

/-! ### The pages of a ring (R278, R279) -/

/-- Slots of the submission ring and of the completion ring (R278). -/
def Ring.sqSlots (x : Ring) : Nat := 2 ^ x.sqLog.toNat
def Ring.cqSlots (x : Ring) : Nat := 2 ^ x.cqLog.toNat

/-- The waiter that stands for the ring's own pages: the packet it reads next. -/
def Ring.who (x : Ring) (f r : Nat) : Waiter := pktW f r x.nextSeq

/-- Every page of a host-memory ring is translated with the rights its use needs: none while one is awaited (R279). -/
def State.ringPages (s : State) (f r base len : Nat) (wr : Bool) : Option Bool × State :=
  (pagesOf base len).foldl (fun a p =>
    match a.1 with
    | some false => a
    | x =>
      match a.2.resolve ((a.2.ring f r).who f r) none 0 f noPasid p.1 (!wr) wr with
      | (.failed, s) => (some false, s)
      | (.wait, s) => (none, s)
      | (_, s) => (x, s)) (some true, s)

/-- The pages of both rings of a pair that lie in host memory (R279). -/
def State.pairPages (s : State) (f r : Nat) : Option Bool × State :=
  let x := s.ring f r
  let a := if x.sqHdm then (some true, s) else s.ringPages f r x.sqBase.toNat (x.sqSlots * 64) false
  let b := if x.cqHdm then (some true, a.2) else a.2.ringPages f r x.cqBase.toNat (x.cqSlots * 32) true
  (if a.1 = some false ∨ b.1 = some false then some false else if a.1 = some true then b.1 else none, b.2)

/-- A ring reads no further, for a cause (R279, R286, R292). A draining ring stays DRAINING, and the packets announced on it are read no
more (DESIGN CHOICE, log entry 49). -/
def Ring.stop (x : Ring) (cause : BitVec 5) : Ring :=
  match x.st with
  | .draining => { x with tail := x.sqHead, reread := .none, again := false }
  | .active | .doorbellAhead => { x with st := .stopped, stopCause := cause, reread := .none, again := false }
  | _ => x

/-- The state with a ring stopped. -/
def State.stopRing (s : State) (f r : Nat) (cause : BitVec 5) : State := s.setRing f r ((s.ring f r).stop cause)

/-- The ring pages of a function are obtained again, as after an invalidation that names no PASID; a ring with a page that has no usable
translation stops (R279). -/
def State.renewRings (s : State) (f : Nat) : State :=
  (s.rings.filter (fun x => x.1 / 64 = f && decide (x.2.st ≠ .disabled))).foldl (fun s x =>
    match s.pairPages f (x.1 % 64) with
    | (some false, s) => s.stopRing f (x.1 % 64) 3
    | (_, s) => s) s

/-- Rings that have learned that a page of theirs cannot be translated stop (R279). -/
def State.stopFailed (s : State) (f : Nat) : State :=
  (s.rings.filter (fun x => x.1 / 64 = f && decide (x.2.st ≠ .disabled) &&
    s.xlt.waits.any (fun w => decide (w.who = x.2.who f (x.1 % 64)) && decide (w.phase = .failed)))).foldl
    (fun s x =>
      let s := s.stopRing f (x.1 % 64) 3
      { s with xlt := { s.xlt with waits := s.xlt.waits.filter (fun w => decide (w.who ≠ x.2.who f (x.1 % 64))) } }) s

/-! ### ATS_COMPLETION -/

/-- The entry that a completion makes (R228, R229). -/
def xEntry (fn pasid va : Nat) (size : PageSize) (hpa : Nat) (rd wr u : Bool) : XEntry :=
  { fn := fn, pasid := pasid, va := va / pageBytes size * pageBytes size, size := size,
    hpa := hpa / pageBytes size * pageBytes size, rd := rd, wr := wr, u := u }

/-- A waiter learns of a completion for its page: usable, it will find the entry; not usable, it faults, or fails where no
page request may be sent, for a function address (R279), for one that asks for no right (R244), or where the fourth Success has come
(R234, R235). Each is a translation fault (R74). A request that was sent with No Write for readers is sent again for a writer. -/
def State.arrive (s : State) (e : XEntry) (noWrite : Bool) (w : XWait) : State :=
  if w.phase ≠ .ats || (e.u || (e.usable w.rd w.wr && (e.rd || e.wr))) then s
  else if noWrite && w.wr && !e.wr && (!w.rd || e.rd) then s.askAts (waiterHub w.who) w.fn w.pasid w.va false
  else
    let s := if w.rd || w.wr then s.countFault w.who else s
    let fails := (s.fn w.fn).noPri || decide (w.pasid = noPasid) || decide (4 ≤ w.successes) || (!w.rd && !w.wr)
    s.setWait w { w with phase := if fails then .failed else .faulted }

/-- The list without entries that translate a page: a completion renews it. -/
def dropPage (fn pasid page : Nat) (l : List XEntry) : List XEntry := l.filter (fun e => !e.hits fn pasid page)

/-- The translation caches with the entry that a completion makes for the page (R228): it takes the place of what the L2s of the
hubs that asked, and the L1s that they fill, held for the page. The units of a PREFETCH take it into their L1 at once (R160). -/
def Xlt.fill (x : Xlt) (hubs units : List Nat) (e : XEntry) (page : Nat) : Xlt :=
  let mine (u : Nat) : Bool := hubs.contains (u / 384)
  let l1 := x.l1.map (fun p => if mine p.1 then (p.1, dropPage e.fn e.pasid page p.2) else p)
  { x with
    l1 := if e.rd || e.wr || e.u then units.foldl (fun m u => mapPut m u (lruPut (mapGet [] m u) e (l1Size u))) l1 else l1,
    l2 := hubs.foldl (fun m h =>
      let l := dropPage e.fn e.pasid page (mapGet [] m h)
      mapPut m h (if e.rd || e.wr || e.u then l2Put l e else l)) x.l2 }

/-- ATS_COMPLETION (R228, R238): the L2 of every hub that asked is filled; a stale completion is used for no access and the
page is requested again for those that wait. A ring whose page turns out unusable stops (R279). -/
def execAtsCompletion (f : FnId) (pasid : Option (BitVec 20)) (va : BitVec 64) (size : PageSize) (hpa : BitVec 64)
    (rd wr u : Bool) (s : State) : Res :=
  let p := pasidOf pasid
  let page := va.toNat / 4096 * 4096
  let mine (a : AtsReq) : Bool := a.fn = f.val && a.pasid = p && a.va = page
  match s.xlt.ats.find? mine with
  | none => .next s
  | some a0 =>
    let asked : List AtsReq := s.xlt.ats.filter (fun a => mine a && a.stale = a0.stale)
    let s : State := { s with xlt := { s.xlt with ats := s.xlt.ats.filter (fun a => !asked.contains a) } }
    if a0.stale then
      .next (s.xlt.waits.foldl (fun s w =>
        if w.fn = f.val && w.pasid = p && w.va = page && decide (w.phase = .ats) then
          s.askAts (waiterHub w.who) f p page (!w.wr) else s)
        (asked.foldl (fun s a => a.units.foldl (fun s u => (s.askAts a.hub f p page a.noWrite).wantL1 a.hub f p page u) s) s))
    else
      let e := xEntry f p page size hpa.toNat rd wr u
      let s : State := { s with xlt := s.xlt.fill (asked.map (·.hub)) (asked.flatMap (·.units)) e page }
      let s := s.xlt.waits.foldl (fun s w =>
        if w.fn = f.val && w.pasid = p && decide (e.va ≤ w.va) && decide (w.va < e.va + pageBytes size) then s.arrive e a0.noWrite w
        else s) s
      .next (if p = noPasid then s.stopFailed f else s)

/-! ### Page requests -/

/-- Every line of a piece of device memory is ready for firmware (R353, R361). The dome processors of HB0 ask as stream 1536. -/
def State.linesReady (s : State) (k len : Nat) (write : Bool) : Bool × State :=
  (linesOf k len).foldl (fun a p =>
    let r := if isHostKey p.1 then a.2.dcReady (lineOf (p.1 - 2 ^ 64)) write (decide (p.2 = 64))
             else if needsHome p.1 then a.2.homeReady 1536 (lineOf p.1) write else (true, a.2)
    (a.1 && r.1, r.2)) (true, s)

/-- The line of host memory leaves the device cache: an M line by DirtyEvict with its data, another by CleanEvictNoData (R361). An LR
reservation on it ends (R213). -/
def State.evictLine (s : State) (l : Nat) : State :=
  match mapFind s.coh.dc l with
  | none => s
  | some st =>
    let s := s.loseResv (hostKey l) 512
    { s with coh := { s.coh with dc := mapDel s.coh.dc l, dcUsed := mapDel s.coh.dcUsed l },
             out := s.out ++ [.d2hEvict l (if st = .m then some (s.mem.read (hostKey l) 64) else none)] }

/-- Bytes that the device writes to host physical memory outside the engines and packets, none while a line is not ready: its own HDM
is written at its home under the host check (R227), host memory through the device cache with the end-of-task flush (R245, R319). -/
def State.hostPut (s : State) (hpa : Nat) (bs : Bytes) : Option State × State :=
  let ls := (linesOf hpa bs.length).map (fun p => (s.hostTgt p.1, sliceBytes bs (p.1 - hpa) p.2))
  let open_ (s : State) (t : Tgt) : Bool := isHostKey t.key || s.allowed t.key false t.host 0 true
  let r := ls.foldl (fun (a : Bool × State) l =>
    if open_ a.2 l.1 then let r := a.2.linesReady l.1.key l.2.length true; (a.1 && r.1, r.2) else a) (true, s)
  if r.1 then
    (some (ls.foldl (fun s l =>
      if !open_ s l.1 then s.refusal unitHost l.1.key false none
      else
        let s := s.storeLine l.1.key l.2 none
        if isHostKey l.1.key then s.evictLine (lineOf (l.1.key - 2 ^ 64)) else s) r.2), r.2)
  else (none, r.2)

/-- The context that a function's PASID belongs to. -/
def State.ctxOf (s : State) (fn pasid : Nat) : Option Nat :=
  (s.ctxs.find? (fun c => c.2.valid && c.2.func = fn && c.2.pasid = pasid)).map (·.1)

/-- The bytes of fault record n (R245). -/
def faultRecord (c : Ctx) (w : XWait) (prg : Nat) (stalled : Bool) : Bytes :=
  let hit := c.advice.find? (fun a => decide (a.start.toNat < w.va + 4096) && decide (w.va < a.start.toNat + a.len.toNat))
  natLe w.va 8 ++ natLe w.pasid 4 ++ natLe (b2n w.rd + 2 * b2n w.wr) 1 ++
    natLe (b2n ((hit.map (·.preferHdm)).getD false)) 1 ++ natLe (if stalled then 512 else prg) 2 ++
    natLe ((hit.map (·.start.toNat)).getD 0) 8 ++ natLe c.recNext 4 ++
    natLe (1 - c.recNext / max 1 c.recSlots % 2) 1 ++ [0, 0, 0]

/-- The fault record of a context that asks for them is written, and then the page request may go (R245); none, and the state after
what is asked for, while its ring's page is not translated for writing or the line is not ready. A ring page that has no write right
is asked for again. -/
def State.recordFault (s : State) (w : XWait) (prg : Nat) (stalled : Bool) : Option State × State :=
  match s.ctxOf w.fn w.pasid with
  | none => (some s, s)
  | some tag =>
    let c := s.ctx tag
    if !c.faultRec || c.recRing = 0 || c.recSlots = 0 then (some s, s)
    else
      let va := c.recRing + 32 * (c.recNext % c.recSlots)
      match s.xlt.lookup none 0 w.fn w.pasid va with
      | (some e, x) =>
        if !e.u && !e.wr then (none, ({ s with xlt := x }).askAts 0 w.fn w.pasid va false)
        else
          let bs := faultRecord c w prg stalled
          let next (s : State) : State := s.setCtx tag { s.ctx tag with recNext := (c.recNext + 1) % 2 ^ 32 }
          let s := { s with xlt := x }
          if e.u then (some (next (s.send (.untranslatedWrite w.fn w.pasid va bs))), s)
          else
            match s.hostPut (e.at va) bs with
            | (some s', s) => (some (next s'), s)
            | (none, s) => (none, s)
      | (none, _) => (none, s.askAts 0 w.fn w.pasid va false)

/-- Page requests outstanding for a function. -/
def State.outstanding (s : State) (f : Nat) : Nat := (s.xlt.reqs.filter (fun r => r.fn = f)).length

/-- PAGE_REQUEST (R234, R236, R245): a request already outstanding is shared; with a free credit a request is sent; without
one the waiter stalls. Stalled waiters send oldest first. A channel whose program is ending sends none: its descriptor ends (R96). -/
def execPageRequest (w : Waiter) (va : BitVec 64) (prg : BitVec 9) (s : State) : Res :=
  match s.xlt.waits.find? (·.isFor w va.toNat) with
  | none => .next s
  | some x =>
    let f := s.fn x.fn
    if x.phase ≠ .faulted && x.phase ≠ .stalled then .next s
    else if (match w with | .chan g c => s.endingOn g && s.chanHeld g (2 + c.val) | _ => false) then
      .next (match w with | .chan g c => s.stopChan g (2 + c.val) | _ => s)
    else if f.noPri then .next (s.setWait x { x with phase := .failed })
    else if s.xlt.reqs.any (fun r => r.fn = x.fn && r.pasid = x.pasid && r.va = x.va && r.rd = x.rd && r.wr = x.wr) then
      .next (s.setWait x { x with phase := .requested })
    else if s.xlt.waits.any (fun y => decide (y.phase = .stalled) && y.fn = x.fn && decide (x.phase ≠ .stalled)) ||
        min f.priAlloc.toNat 512 ≤ s.outstanding x.fn then
      if x.phase = .stalled then .next s
      else
        match s.recordFault x 0 true with
        | (none, s) => .next s
        | (some s, _) =>
          let s := s.setWait x { x with phase := .stalled }
          .next { s with xlt := { s.xlt with overflow := BitVec.ofNat 32 (satAdd (2 ^ 32 - 1) s.xlt.overflow.toNat 1) } }
    else if x.phase = .stalled && decide ((s.xlt.waits.find? (fun y => decide (y.phase = .stalled) && y.fn = x.fn)) ≠ some x) then
      .next s
    else if !s.sends x.fn || s.xlt.reqs.any (fun r => r.fn = x.fn && r.prg = prg.toNat) then .next s
    else
      match s.recordFault x prg.toNat false with
      | (none, s) => .next s
      | (some s, _) =>
        let s := s.setWait x { x with phase := .requested }
        let r : PageReq := { fn := x.fn, pasid := x.pasid, va := x.va, rd := x.rd, wr := x.wr, prg := prg.toNat, overdue := false }
        .next ({ s with xlt := { s.xlt with reqs := s.xlt.reqs ++ [r] } }.send
          (.pageRequest x.fn x.pasid x.va x.rd x.wr prg.toNat))

/-- A successful response (R235): every waiter of the request translates the page again. -/
def State.pageSuccess (s : State) (r : PageReq) : State :=
  s.xlt.waits.foldl (fun s w =>
    if w.fn = r.fn && w.pasid = r.pasid && w.va = r.va && decide (w.phase = .requested) then
      (s.setWait w { w with phase := .ats, successes := w.successes + 1 }).askAts (waiterHub w.who) w.fn w.pasid w.va (!w.wr)
    else s) s

/-- Waiters that p picks fail. -/
def State.failWaits (s : State) (p : XWait → Bool) : State :=
  { s with xlt := { s.xlt with waits := s.xlt.waits.map (fun w => if p w then { w with phase := .failed } else w) } }

/-- PAGE_REQUEST_RESPONSE (R235, R236). A response to a quiescing function is consumed silently (R335). -/
def execPageRequestResponse (f : FnId) (prg : BitVec 9) (code : PrgCode) (s : State) : Res :=
  if (s.fn f).quiescing then
    .next { s with xlt := { s.xlt with reqs := s.xlt.reqs.filter (fun r => !(decide (r.fn = f.val) && decide (r.prg = prg.toNat))) } }
  else
  match s.xlt.reqs.find? (fun r => r.fn = f.val && r.prg = prg.toNat) with
  | none =>
    let s := s.setFn f { s.fn f with uprgi := true }
    let s := { s with xlt := { s.xlt with uprgiCount := BitVec.ofNat 32 (satAdd (2 ^ 32 - 1) s.xlt.uprgiCount.toNat 1) } }
    .next (s.xltEvent 1 f)
  | some r =>
    let s := { s with xlt := { s.xlt with reqs := s.xlt.reqs.filter (fun x => x ≠ r) } }
    match code with
    | .success => .next (s.pageSuccess r)
    | .invalidRequest => .next (s.failWaits (fun w =>
        w.fn = r.fn && w.pasid = r.pasid && w.va = r.va && decide (w.phase = .requested)))
    | .responseFailure =>
      let s := s.setFn f { s.fn f with respFailure := true }
      let s := s.failWaits (fun w => w.fn = f.val && (decide (w.phase = .requested) || decide (w.phase = .stalled)))
      .next (s.xltEvent 0 f)

/-- PAGE_REQUEST_OVERDUE (R237). -/
def execPageRequestOverdue (f : FnId) (prg : BitVec 9) (s : State) : Res :=
  match s.xlt.reqs.find? (fun r => r.fn = f.val && r.prg = prg.toNat && !r.overdue) with
  | none => .next s
  | some r =>
    let s := { s with xlt := { s.xlt with reqs := s.xlt.reqs.map (fun x => if x = r then { x with overdue := true } else x) } }
    .next ((s.xltEvent 2 f).report (event 17 unitHost r.pasid))

/-! ### Invalidation (R238, R239, R242) -/

/-- Every translation of a function's PASID, or of all its PASIDs, is removed and outstanding requests become stale; waiters
for a translation ask again when theirs comes back. -/
def State.dropXlt (s : State) (f : Nat) (pasid : Option Nat) : State :=
  let hit (fn p : Nat) : Bool := decide (fn = f) && (match pasid with | some x => decide (p = x) | none => true)
  let keep (m : List (Nat × List XEntry)) := m.map (fun x => (x.1, x.2.filter (fun e => !hit e.fn e.pasid)))
  let x := s.xlt
  { s with xlt := { x with l1 := keep x.l1, l2 := keep x.l2,
                           ats := x.ats.map (fun a => if hit a.fn a.pasid then { a with stale := true } else a) } }

/-- An Invalidation Completion is sent. -/
def State.sendInvDone (s : State) (f : Nat) (itag : BitVec 5) : State :=
  { s with xlt := { s.xlt with invCompleted := BitVec.ofNat 32 (satAdd (2 ^ 32 - 1) s.xlt.invCompleted.toNat 1) } }.send
    (.invalidationCompletion f itag)

/-- An Invalidation Completion of function f may be sent now: its quiesce does not hold it back (R334). -/
def State.invSends (s : State) (f : Nat) : Bool :=
  (s.fn f).enabled && (s.fn f).bme && !(s.fn 0).d3hot && !s.port.frozen && s.port.linkUp

/-- The accesses in flight under a translation of a function's PASID (R238): untranslated reads, and per core the writes to targets
that do not answer. -/
def State.readsOf (s : State) (f : Nat) (pasid : Option Nat) : List (Nat × Nat) :=
  (s.port.ioReads.filter (fun r => decide (r.fn = f) && r.ended.isNone && r.pasid.any (fun p => pasid.all (· = p)))).map
    (fun r => (r.tag.toNat, r.addr))

def State.deadOf (s : State) (f : Nat) (pasid : Option Nat) : List (Nat × DeadWrite) :=
  s.cores.flatMap (fun c => (c.2.deadWrites.filter (fun w =>
    space w.ptr.toNat = 0 && w.tag.any (fun t => decide ((s.ctx t.1).func = f) && pasid.all (· = t.2)))).map (fun w => (c.1, w)))

/-- The accesses that an invalidation waits for are done: what was in flight at its acceptance is performed, abandoned or refused
(R238 step 3), and during a quiesce its PASID is no longer attached (R335). -/
def State.invDone (s : State) (i : Inval) : Bool :=
  i.reads.all (fun t => !s.port.ioReads.any (fun r => r.tag.toNat = t.1 && r.addr = t.2 && r.ended.isNone)) &&
  i.dead.all (fun w => !(s.core w.1).deadWrites.contains w.2) &&
  (!(s.fn i.fn).quiescing || (match i.pasid with
    | some p => (s.ctxOf i.fn p).isNone
    | none => s.ctxs.all (fun c => !c.2.valid || decide (c.2.func ≠ i.fn))))

/-- INVALIDATION_REQUEST (R238, R239): carried out for its whole PASID; a PASID that is not attached is answered at once. At
most 32 are held for a function. One that names no PASID has the ring pages obtained again (R279). -/
def execInvalidationRequest (f : FnId) (pasid : Option (BitVec 20)) (itag : BitVec 5) (s : State) : Res :=
  let p := pasid.map (·.toNat)
  if 32 ≤ (s.xlt.invals.filter (fun i => i.fn = f.val)).length then .next s
  else
    let s := s.dropXlt f p
    let s := if p.isNone then s.renewRings f else s
    if p.any (fun x => (s.ctxOf f x).isNone) && s.invSends f then .next (s.sendInvDone f itag)
    else
      let i : Inval := { fn := f.val, pasid := p, itag := itag, reads := s.readsOf f p, dead := s.deadOf f p }
      .next { s with xlt := { s.xlt with invals := s.xlt.invals ++ [i] } }

/-- INVALIDATION_COMPLETION (R238): the oldest invalidation of the function is answered once the accesses that used a removed
translation are done. Other accesses are translated and performed in one step of the model. -/
def execInvalidationCompletion (f : FnId) (itag : BitVec 5) (s : State) : Res :=
  match s.xlt.invals.find? (fun i => i.fn = f.val) with
  | some i =>
    if i.itag = itag && s.invSends f && s.invDone i then
      .next ({ s with xlt := { s.xlt with invals := s.xlt.invals.erase i } }.sendInvDone f itag)
    else .next s
  | none => .next s

end Sys2Proof.Machine
end

