-- ==== Sys2Proof/Machine/Coherence.lean ====
section
/-! DEFINITION. The home directories (R350 to R359), host requests to HDM (R354, R366, R367), the device cache (R360 to
R363), the carve and its decoders (R364 to R369). Memory holds the coherent value of every byte, so a transfer of data
between a cache and a home changes states and not values; only what the host holds dirty is not in it. -/

namespace Sys2Proof.Machine

/-! ### Entries -/

/-- The set of a line in its home's directory (R351): 16,384 sets of 16 ways, by line number (log entry 19). -/
def dirSet (line : Nat) : Nat := (((hbmStack line).getD 0) / 3) * 16384 + line / 64 % 16384

/-- Entries in the set of a line. -/
def Coh.setOf (c : Coh) (line : Nat) : List (Nat × DirEntry) := c.dir.filter (fun e => dirSet e.1 = dirSet line)

/-- The directory with an entry put, marked as the one used last. -/
def Coh.put (c : Coh) (line : Nat) (st : DirSt) (t : Option DirTrans) : Coh :=
  { c with dir := mapPut c.dir line { st := st, trans := t, used := c.clock }, clock := c.clock + 1 }

/-- The stream of a coherent agent (R356). -/
def streamOf (a : Nat) : Nat := if a < 512 then a else 1536 + (a - 512)

/-- Every agent of a group is dead: its acknowledgement is treated as given (R358). -/
def Coh.groupDead (c : Coh) (grp : Nat) : Bool := (agentsOf grp).all (fun a => c.dead.contains a)

/-- Groups that must acknowledge an invalidation: every recorded sharer but the host and dead groups. -/
def Coh.ackers (c : Coh) (gs : List Nat) : List Nat := gs.filter (fun g => g ≠ hostGroup && !c.groupDead g)

/-! ### What the host is given -/

/-- What the host reads of a line, sent (R354, R344): poisoned while the Portcullis holds. Stored poison is consumed by the host port
(R194, R434). -/
def State.hostData (s : State) (line : Nat) : State :=
  let bad := s.mem.poisoned line 64
  let s := s.send (.cxlRead line (s.mem.read line 64) (bad || s.port.frozen))
  if bad then s.report (event 8 unitHost (s.mem.firstPoison line 64)) else s

/-- The host's request is served with the groups keep still sharing: its write is performed, its copy is recorded (R354). -/
def State.grantHost (s : State) (line : Nat) (want : HostWant) (data : Option Bytes) (keep : List Nat) : State :=
  let s := match data with
    | some d => { s with mem := s.mem.store line (sliceBytes d 0 64) }.loseResv line 512
    | none => s.hostData line
  let s := if data.isSome then s.send (.cxlDone line) else s
  match want with
  | .owned => { s with coh := s.coh.put line (.owned hostAgent) none }
  | .shared => { s with coh := s.coh.put line (.shared (setAdd keep hostGroup)) none }
  | .none => { s with coh := if keep.isEmpty then { s.coh with dir := mapDel s.coh.dir line }
                             else s.coh.put line (.shared keep) none }

/-! ### Requests at the home -/

/-- Bits for the host in a shared entry. -/
def hasHost (gs : List Nat) : Bool := gs.contains hostGroup

/-- A back-invalidate snoop may go out now (R344). -/
def State.snoops (s : State) : Bool := s.port.linkUp && !s.port.frozen

/-- The line turns transient for a request that must invalidate, recall or snoop first (R351 to R354). -/
def State.begin (s : State) (line : Nat) (e : DirEntry) (req : DirReq) (inval : Bool) : State :=
  match e.st with
  | .owned o =>
    if o = hostAgent then
      let s := { s with coh := s.coh.put line e.st (some { req := req, acks := [], fwd := false, snoop := true }) }
      s.send (.backInvalidate line inval)
    else { s with coh := s.coh.put line e.st (some { req := req, acks := [], fwd := true, snoop := false }) }
  | .shared gs =>
    let s := { s with coh := s.coh.put line e.st (some { req := req, acks := s.coh.ackers gs, fwd := false, snoop := hasHost gs }) }
    if hasHost gs then s.send (.backInvalidate line true) else s

/-- A request needs nothing from anyone first. -/
def Coh.atOnce (c : Coh) (e : DirEntry) (inval : Bool) : Bool :=
  match e.st with
  | .owned _ => false
  | .shared gs => !inval || ((c.ackers gs).isEmpty && !hasHost gs)

/-- The least recently used stable entry of a full set (R357). -/
def Coh.victim (c : Coh) (line : Nat) : Option (Nat × DirEntry) :=
  ((c.setOf line).filter (fun e => e.2.trans.isNone)).foldl (fun v e =>
    match v with
    | none => some e
    | some w => if e.2.used < w.2.used then some e else some w) none

/-- The entry is freed for another line: an LR reservation on it ends (R357). -/
def State.freeEntry (s : State) (line : Nat) : State :=
  { s with coh := s.coh.recall line }.loseResv line 512

/-- An entry is to be evicted (R357): counted, and freed at once where nobody must be asked. -/
def State.evict (s : State) (v : Nat × DirEntry) (req : DirReq) : State :=
  let s := { s with coh := { s.coh with evictions := BitVec.ofNat 32 (satAdd (2 ^ 32 - 1) s.coh.evictions.toNat 1) } }
  if s.coh.atOnce v.2 true then s.freeEntry v.1 else s.begin v.1 v.2 req true

/-- A host CXL.mem request to the coherent window is served or waits; it is never NACKed (R354, R355). True: it waits. -/
def State.hostReq (s : State) (line : Nat) (want : HostWant) (data : Option Bytes) : Bool × State :=
  let inval := decide (want = .owned) || data.isSome
  match s.coh.entry line with
  | some e =>
    match e.trans with
    | some t =>
      if t.snoop && data.isSome then
        let s := ({ s with mem := s.mem.store line (sliceBytes (data.getD []) 0 64) } : State).loseResv line 512
        (false, s.send (.cxlDone line))
      else (true, s)
    | none =>
      match e.st with
      | .owned o =>
        if o = hostAgent then (false, s.grantHost line want data [])
        else if want = .none && data.isNone then (false, s.hostData line)
        else (false, s.begin line e (.host want data) inval)
      | .shared gs =>
        let others := gs.filter (· ≠ hostGroup)
        if !inval then
          (false, if want = .none then s.hostData line else s.grantHost line want data gs)
        else if (s.coh.ackers others).isEmpty then (false, s.grantHost line want data [])
        else
          let t : DirTrans := { req := .host want data, acks := s.coh.ackers others, fwd := false, snoop := false }
          (false, { s with coh := s.coh.put line e.st (some t) })
  | none =>
    if want = .none then (false, s.grantHost line want data [])
    else if (s.coh.setOf line).length < 16 then (false, s.grantHost line want data [])
    else
      match s.coh.victim line with
      | none => (true, s)
      | some v =>
        if v.2.hostHolds false && !s.snoops then (true, s)
        else
          let s := s.evict v (.evict none false line)
          if (s.coh.setOf line).length < 16 then (false, s.grantHost line want data []) else (true, s)

/-- Host requests that wait for a line are served in arrival order until one waits again (R355). -/
def State.serveHost : Nat → State → Nat → State
  | 0, s, _ => s
  | n + 1, s, line =>
    match s.coh.hostWaits.find? (fun w => w.1 = line) with
    | none => s
    | some w =>
      let s' := { s with coh := { s.coh with hostWaits := s.coh.hostWaits.erase w } }
      match s'.hostReq line w.2.1 w.2.2 with
      | (true, _) => s
      | (false, s) => s.serveHost n line

/-- The line is stable again: the host requests that wait for it are served, and those that wait for a free way of its set (R357). -/
def State.settled (s : State) (line : Nat) : State :=
  (line :: (s.coh.hostWaits.filter (fun w => w.1 ≠ line && decide (dirSet w.1 = dirSet line))).map (·.1)).foldl
    (fun s l => s.serveHost s.coh.hostWaits.length l) s

/-- An M line leaves its cache for the write-back buffer and reaches the home, which takes it unless a forward has made it stale (R352). -/
def State.putM (s : State) (n l : Nat) : State :=
  let c := s.coh.drop n l
  let c := { c with wbuf := c.wbuf ++ [(n, l)] }
  match c.entry l with
  | some e =>
    if e.trans.isNone && decide (e.st = .owned n) then ({ s with coh := { c with dir := mapDel c.dir l } }).settled l
    else { s with coh := c }
  | none => { s with coh := c }

/-- Sets of an agent's data cache of 4 ways (R61, R350): 64, or 128 of a dome processor. -/
def cacheSets (a : Nat) : Nat := if a < 512 then 64 else 128

/-- The line that gives way in an agent's data cache to a line it does not hold, where the set by line number is full, with whether it
is M. The spec names neither the index nor the replacement: which of the four goes is an open value (log entry 110). -/
def Coh.cacheVictim (c : Coh) (a line : Nat) : Option (Nat × Bool) :=
  let set := (c.lines a).filter (fun p => decide (p.1 / 64 % cacheSets a = line / 64 % cacheSets a))
  if set.any (fun p => p.1 = line) || decide (set.length < 4) then none
  else set[Config.unstated 352 (set.foldl (fun n p => n * 2 ^ 53 + p.1) (2 ^ 53 + line)) % 4]?

/-- A line enters an agent's data cache, in M or S (R61, R352): the line that gives way goes by PutM, or without a message. -/
def State.cacheFill (s : State) (a line : Nat) (m : Bool) : State :=
  let s := match s.coh.cacheVictim a line with
    | some (v, true) => s.putM a v
    | some (v, false) => { s with coh := s.coh.drop a v }
    | none => s
  { s with coh := s.coh.hold a line m }

/-! ### Granting a request -/

/-- The line is granted to an agent, in M if excl (R352): shared with the groups that keep it, or owned. -/
def State.grantAgent (s : State) (a line : Nat) (excl : Bool) (keep : List Nat) : State :=
  let s := { s with coh := s.coh.put line (if excl then .owned a else .shared (setAdd keep (groupOf a))) none }
  let s := s.cacheFill a line excl
  let c := s.coh.served (streamOf a) line
  { s with coh := { c with reqs := c.reqs.filter (fun r => !(r.1 = a && r.2.1 = line)) } }

/-- An agent's request arrives at the home (R352, R355 to R357): granted, begun, or refused. -/
def State.agentReq (s : State) (a line : Nat) (excl : Bool) : State :=
  let st := streamOf a
  let pend (s : State) : State :=
    if s.coh.reqs.any (fun r => r.1 = a && r.2.1 = line) then s
    else { s with coh := { s.coh with reqs := s.coh.reqs ++ [(a, line, excl)] } }
  if !s.coh.turn st line then pend (s.refuseReq st line)
  else
    match s.coh.entry line with
    | some e =>
      if e.trans.isSome then pend (s.refuseReq st line)
      else if s.coh.atOnce e excl then s.grantAgent a line excl (match e.st with | .shared gs => gs | _ => [])
      else if (e.hostHolds (!excl)) && !s.snoops then pend s
      else (pend s).begin line e (.agent a excl) excl
    | none =>
      if (s.coh.setOf line).length < 16 then s.grantAgent a line excl []
      else
        match s.coh.victim line with
        | none => pend (s.refuseReq st line)
        | some v =>
          if v.2.hostHolds false && !s.snoops then pend s
          else
            let s := (pend s).evict v (.evict (some a) excl line)
            if (s.coh.setOf line).length < 16 then s.grantAgent a line excl [] else s

/-- The request that a transient entry carries is completed: everyone it needed has answered (R352 to R357). keep lists the
groups that still share the line. -/
def State.completeReq (s : State) (line : Nat) (e : DirEntry) (req : DirReq) (keep : List Nat) : State :=
  match req with
  | .agent a excl => (s.grantAgent a line excl (if excl then [] else keep)).settled line
  | .host want data => (s.grantHost line want data (if want = .owned || data.isSome then [] else keep)).settled line
  | .engine inval =>
    let gs := if inval then keep else setAdd keep hostGroup
    ({ s with coh := if gs.isEmpty then { s.coh with dir := mapDel s.coh.dir line }
                     else s.coh.put line (match e.st with | .owned _ => .shared gs | x => if inval then .shared gs else x) none }).settled line
  | .evict who excl new =>
    let s := (s.freeEntry line).settled line
    match who with
    | some a => s.agentReq a new excl
    | none => s.settled new

/-- The groups that share a line and are not the host. -/
def DirEntry.groups (e : DirEntry) : List Nat := match e.st with | .shared gs => gs.filter (· ≠ hostGroup) | _ => []

/-- The transient part of an entry changed; with nothing left to wait for, the request completes. keep as above. -/
def State.progress (s : State) (line : Nat) (e : DirEntry) (t : DirTrans) (keep : List Nat) : State :=
  if t.acks.isEmpty && !t.fwd && !t.snoop then s.completeReq line { e with trans := none } t.req keep
  else { s with coh := s.coh.put line e.st (some t) }

/-- A request of an agent that exists and is alive for a line of HBM. -/
def State.agentOk (s : State) (a line : Nat) : Bool :=
  decide (a < 544) && decide (line % 64 = 0) && needsHome line && !s.coh.dead.contains a

/-- A sequencer's request must have been issued; a dome processor's arrives by itself (R350). -/
def State.issued (s : State) (a line : Nat) (excl : Bool) : Bool :=
  decide (512 ≤ a) || s.coh.reqs.any (fun r => r.1 = a && r.2.1 = line && r.2.2 = excl)

/-- GETS (R352). -/
def execGets (a : AgentId) (line : BitVec 52) (s : State) : Res :=
  if s.agentOk a.toNat line.toNat && s.issued a.toNat line.toNat false then .next (s.agentReq a.toNat line.toNat false)
  else .next s

/-- GETM (R352). -/
def execGetm (a : AgentId) (line : BitVec 52) (s : State) : Res :=
  if s.agentOk a.toNat line.toNat && s.issued a.toNat line.toNat true then .next (s.agentReq a.toNat line.toNat true)
  else .next s

/-- PUTM (R352): an M line is evicted from an agent's data cache. -/
def execPutm (a : AgentId) (line : BitVec 52) (s : State) : Res :=
  if s.coh.holds a.toNat line.toNat true then .next (s.putM a.toNat line.toNat) else .next s

/-- PUTM_ACK (R352): the write-back buffer is freed. -/
def execPutmAck (a : AgentId) (line : BitVec 52) (s : State) : Res :=
  let n := a.toNat
  let l := line.toNat
  .next { s with coh := { s.coh with wbuf := s.coh.wbuf.filter (fun w => !(w.1 = n && w.2 = l)) } }

/-- A line leaves an agent's cache, or stays in S: a surrendered line ends the reservation of that core (R359). -/
def State.surrender (s : State) (o line : Nat) (stay : Bool) : State :=
  let s := if stay && s.coh.holds o line false then { s with coh := s.coh.hold o line false }
    else { s with coh := s.coh.drop o line }
  if stay || 512 ≤ o then s
  else s.modCore o (fun c => if c.resv = some line then { c with resv := none } else c)

/-- The cache of an agent is powered: a sequencer's core is in service; the dome processors always are. -/
def State.agentUp (s : State) (a : Nat) : Bool := decide (512 ≤ a) || s.coreUp a

/-- FORWARD (R352, R353): the owner sends the data and drops to S for a read, to I otherwise. -/
def execForward (line : BitVec 52) (s : State) : Res :=
  let l := line.toNat
  match s.coh.entry l with
  | none => .next s
  | some e =>
    match e.trans, e.st with
    | some t, .owned o =>
      if !t.fwd || s.coh.dead.contains o || !s.agentUp o then .next s
      else
        let stay := match t.req with
          | .agent _ excl => !excl
          | .host want data => decide (want = .shared) && data.isNone
          | _ => false
        let s := s.surrender o l stay
        let keep := if stay && s.coh.holds o l false then [groupOf o] else []
        .next (s.progress l e { t with fwd := false } keep)
    | _, _ => .next s

/-- INVALIDATE (R351): every cache of the group drops the line. -/
def execInvalidate (grp : GroupId) (line : BitVec 52) (s : State) : Res :=
  let l := line.toNat
  match (s.coh.entry l).bind (·.trans) with
  | none => .next s
  | some t =>
    if t.acks.contains grp.val then
      .next (((agentsOf grp.val).filter s.agentUp).foldl (fun s a => s.surrender a l false) s)
    else .next s

/-- INVALIDATE_ACK (R352): the group's acknowledgement, sent once none of its live caches holds the line. -/
def execInvalidateAck (grp : GroupId) (line : BitVec 52) (s : State) : Res :=
  let l := line.toNat
  match s.coh.entry l with
  | none => .next s
  | some e =>
    match e.trans with
    | none => .next s
    | some t =>
      if t.acks.contains grp.val && (agentsOf grp.val).any s.agentUp && (agentsOf grp.val).all (fun a => s.coh.dead.contains a || !s.coh.holds a l false) then
        .next (s.progress l e { t with acks := setDel t.acks grp.val } [])
      else .next s

/-- NACK_RETRY (R355, R356): the request of a stream that was NACKed is repeated; an engine's or atomic's access is repeated
by its own row, so here only its reservation is made. -/
def execNackRetry (stream : StreamId) (line : BitVec 52) (s : State) : Res :=
  let l := line.toNat
  let st := stream.val
  if s.coh.nackCount st l = 0 then .next s
  else
    match s.coh.reqs.find? (fun r => decide (streamOf r.1 = st) && decide (r.2.1 = l)) with
    | some r => .next (s.agentReq r.1 l r.2.2)
    | none =>
      match s.coh.entry l with
      | some e => .next (if e.trans.isSome || !s.coh.turn st l then s.refuseReq st l else s)
      | none => .next s

/-! ### Silent parties (R358) -/

/-- An agent is reported dead: COH_DEAD, a coherence-timeout fault, and every line that it owns is poisoned. -/
def State.killAgent (s : State) (a : Nat) : State :=
  if s.coh.dead.contains a then s
  else
    let c := s.coh
    let c := { c with dead := setAdd c.dead a, deadAgent := if c.deadValid then c.deadAgent else BitVec.ofNat 11 a,
                      deadValid := true }
    let own := c.dir.filter (fun e => decide (e.2.st = .owned a) && e.2.trans.isNone)
    let s := { s with coh := { c with held := mapDel c.held a, wbuf := c.wbuf.filter (fun w => w.1 ≠ a) } }
    let s := own.foldl (fun s e =>
      { s with mem := s.mem.poisonLine e.1, coh := { s.coh with dir := mapDel s.coh.dir e.1 } }) s
    if a = hostAgent then s
    else s.report (event 12 (if a < 512 then s.unitCore a else unitHub 3 ((a - 512) / 8)) a)

/-- HOME_WAIT_TIMEOUT (R358): every party that the line still waits for is silent. -/
def execHomeWaitTimeout (line : BitVec 52) (s : State) : Res :=
  let l := line.toNat
  match s.coh.entry l with
  | none => .next s
  | some e =>
    match e.trans with
    | none => .next s
    | some t =>
      let s := { s with coh := { s.coh with timeouts := BitVec.ofNat 16 (satAdd 0xFFFF s.coh.timeouts.toNat 1) } }
      let hostM := decide (e.st = .owned hostAgent)
      let s := if t.snoop then
          let s := if hostM then { s with mem := s.mem.poisonLine l } else s
          { s with coh := { s.coh with dead := setAdd s.coh.dead hostAgent } }.report (event 13 unitHost l)
        else s
      let s := match e.st with
        | .owned o => if t.fwd then
            let s := { s with mem := s.mem.poisonLine l }
            s.killAgent o
          else s
        | _ => s
      let s := t.acks.foldl (fun s grp =>
        match (agentsOf grp).filter (fun a => s.coh.holds a l false) with
        | [] => s.killAgent ((agentsOf grp).headD 0)
        | as => as.foldl (fun s a => s.killAgent a) s) s
      .next (s.completeReq l { e with trans := none } t.req [])

/-- BISNP_RESPONSE (R354): the host's answer, with its write-back performed first. -/
def execBisnpResponse (line : BitVec 52) (dirty : Option Bytes) (s : State) : Res :=
  let l := line.toNat
  match s.coh.entry l with
  | none => .next s
  | some e =>
    match e.trans with
    | none => .next s
    | some t =>
      if !t.snoop then .next s
      else
        let s := match dirty with
          | some d =>
            let w : State := { s with mem := s.mem.store l (sliceBytes d 0 64) }
            if e.hostHolds true then w.loseResv l 512 else s
          | none => s
        let share := match t.req with
          | .agent _ excl => !excl
          | .engine inval => !inval
          | _ => false
        let keep := if share && e.hostHolds true then [hostGroup] else []
        .next (s.progress l e { t with snoop := false } keep)

/-! ### Host CXL.mem (R366, R367) -/

/-- A request that matches no committed decoder, or comes while Memory_Active is 0 (R366). -/
def State.noHdm (s : State) (hpa : Nat) (read : Bool) : State :=
  let s := if read then s.send (.cxlRead hpa (List.replicate 64 0) true) else s.send (.cxlDone hpa)
  s.report (event 27 unitHost (hpa / 8 * 8))

/-- HOST_CXL_MEM_READ (R354, R366, R367, R344): poisoned where the stack does not answer (R179, log entry 115). -/
def execHostCxlMemRead (hpa : BitVec 64) (want : HostWant) (s : State) : Res :=
  let h := hpa.toNat / 64 * 64
  if !s.port.linkUp then .next s
  else
    match if s.coh.memoryActive then s.coh.hdmOff h else none with
    | none => .next (s.noHdm h true)
    | some o =>
      let line := carvePa o
      if s.port.frozen then .next (s.send (.cxlRead h (s.mem.read line 64) true))
      else if !s.allowed line false true 0 false then
        .next ((s.send (.cxlRead h (List.replicate 64 0) true)).refusal unitHost line false none)
      else if !s.answers line then .next ((s.send (.cxlRead h (List.replicate 64 0) true)).report (event 15 unitHost line))
      else if !s.coh.coherent o then .next (s.hostData line)
      else
        match s.hostReq line want none with
        | (true, s) => .next { s with coh := { s.coh with hostWaits := s.coh.hostWaits ++ [(line, want, none)] } }
        | (false, s) => .next s

/-- HOST_CXL_MEM_WRITE (R354, R366, R367): in the bulk window a write-back replaces all 64 bytes at the home. -/
def execHostCxlMemWrite (hpa : BitVec 64) (data : Bytes) (keep : HostWant) (s : State) : Res :=
  let h := hpa.toNat / 64 * 64
  if !s.port.linkUp then .next s
  else
    match if s.coh.memoryActive then s.coh.hdmOff h else none with
    | none => .next (s.noHdm h false)
    | some o =>
      let line := carvePa o
      if s.port.frozen then .next (s.send (.cxlDone h))
      else if !s.allowed line false true 0 true then .next ((s.send (.cxlDone h)).refusal unitHost line false none)
      else if !s.answers line then .next ((s.send (.cxlDone h)).report (event 15 unitHost line))
      else if !s.coh.coherent o then .next ((s.storeLine line (sliceBytes data 0 64) none).send (.cxlDone h))
      else
        match s.hostReq line keep (some data) with
        | (true, s) => .next { s with coh := { s.coh with hostWaits := s.coh.hostWaits ++ [(line, keep, some data)] } }
        | (false, s) => .next s

/-! ### The device cache (R361, R363) -/

/-- A host snoop of a line that the device cache holds: dirty data is returned, poisoned while the Portcullis holds, when
the line is also invalidated (R344, R361). to: the state it is left in. -/
def State.snoop (s : State) (hpa : BitVec 64) (cur inval : Bool) : State :=
  let l := hpa.toNat / 64 * 64
  if !s.port.linkUp then s
  else
    match mapFind s.coh.dc l with
    | none => s.send (.snoopAnswer l none false)
    | some st =>
      let dirty := decide (st = .m)
      let bad := s.mem.poisoned (hostKey l) 64 || (dirty && s.port.frozen)
      let s := s.send (.snoopAnswer l (if dirty || cur then some (s.mem.read (hostKey l) 64) else none) bad)
      if inval || s.port.frozen then
        ({ s with coh := { s.coh with dc := mapDel s.coh.dc l, dcUsed := mapDel s.coh.dcUsed l } }).loseResv (hostKey l) 512
      else if cur then s
      else { s with coh := { s.coh with dc := mapPut s.coh.dc l .s } }

/-- SNPDATA (R361). -/
def execSnpdata (hpa : BitVec 64) (s : State) : Res := .next (s.snoop hpa false false)

/-- SNPINV (R361). -/
def execSnpinv (hpa : BitVec 64) (s : State) : Res := .next (s.snoop hpa false true)

/-- SNPCUR (R361). -/
def execSnpcur (hpa : BitVec 64) (s : State) : Res := .next (s.snoop hpa true false)

/-- The least recently used line of a full set of the device cache, where a line must give way to a new one (R360, R361): 65,536 sets of
WAYS lines, a set by line number (DESIGN CHOICE, log entry 110). -/
def Coh.dcVictim (c : Coh) (line : Nat) : Option Nat :=
  let set := c.dc.filter (fun p => decide (p.1 / 64 % 65536 = line / 64 % 65536))
  if c.dcHolds line false || decide (set.length < c.ways.toNat) then none
  else ((sortBy (fun a b => decide (mapGet 0 c.dcUsed a.1 < mapGet 0 c.dcUsed b.1)) set).head?).map (·.1)

/-- A line enters the device cache in a state; the line that gives way is evicted (R361). -/
def State.dcFill (s : State) (l : Nat) (st : DcSt) : State :=
  let s := match s.coh.dcVictim l with
    | some v => s.evictLine v
    | none => s
  { s with coh := { s.coh.dcTouch l with dc := mapPut s.coh.dc l st } }

/-- What the host sends of a line that the device cache does not hold. No reservation outlives it: the line had left the device cache
since its LR (R213). -/
def State.hostGave (s : State) (l : Nat) (data : Bytes) : State :=
  if s.coh.dcHolds l false then s
  else ({ s with mem := s.mem.store (hostKey l) (sliceBytes data 0 64) } : State).loseResv (hostKey l) 512

/-- HOST_CACHE_RESPONSE (R361): the line is filled, exclusive where the host grants it so; the answer to a RdCurr is kept for its ring
alone. -/
def execHostCacheResponse (hpa : BitVec 64) (excl : Bool) (data : Bytes) (s : State) : Res :=
  let l := hpa.toNat / 64 * 64
  match s.coh.d2h.find? (fun r => r.1 = l) with
  | none =>
    match s.coh.curr.find? (fun x => x.2.1 = l && !x.2.2) with
    | none => .next s
    | some x =>
      if !s.port.linkUp || s.port.frozen then .next s
      else
        let s := s.hostGave l data
        .next { s with coh := { s.coh with curr := s.coh.curr.map (fun y => if y = x then (x.1, l, true) else y) } }
  | some r =>
    if !s.port.linkUp || s.port.frozen || (r.2 && !excl) then .next s
    else
      let s := s.hostGave l data
      let s := s.dcFill l (if excl then .e else .s)
      .next { s with coh := { s.coh with d2h := s.coh.d2h.erase r, cacheInvalid := false } }

/-- A CXL.cache request of the device is not yet answered. -/
def Coh.asks (c : Coh) : Bool := !c.d2h.isEmpty || c.curr.any (fun x => !x.2.2)

/-- The write-back of the whole device cache begins (R363). -/
def State.startWbi (s : State) (off : Bool) : State :=
  let c := s.coh
  { s with coh := { c with wbi := true, disableAfterWbi := c.disableAfterWbi || off, cacheInvalid := false } }

/-- CACHE_ENABLE (R363): Cache_Enable in the CXL DVSEC is written. -/
def execCacheEnable (on : Bool) (s : State) : Res :=
  .next (s.cfgAccess 0 (fun s =>
    let c := s.coh
    if on then { s with coh := { c with cacheEnable := true } }
    else if c.dc.isEmpty && !c.asks then { s with coh := { c with cacheEnable := false } }
    else s.startWbi true))

/-- CACHE_WBI (R363). -/
def execCacheWbi (s : State) : Res := .next (s.cfgAccess 0 (fun s => s.startWbi false))

/-- Every line leaves the device cache (R361). -/
def State.emptyCache (s : State) : State := s.coh.dc.foldl (fun s p => s.evictLine p.1) s

/-- CACHE_WBI_DONE (R363): the cache is empty; a Cache_Enable that was cleared takes effect. -/
def execCacheWbiDone (s : State) : Res :=
  if !s.coh.wbi || s.coh.asks || s.port.frozen || !s.port.linkUp then .next s
  else
    let s := s.emptyCache
    let c := s.coh
    .next { s with coh := { c with wbi := false, cacheInvalid := true, disableAfterWbi := false,
                                   cacheEnable := c.cacheEnable && !c.disableAfterWbi } }

/-- GPF_PHASE_1 (R363): the device cache is written back. -/
def execGpfPhase1 (s : State) : Res := .next (s.startWbi false)

/-- COH_DC_CFG_WRITE (R363). -/
def execCohDcCfgWrite (v : BitVec 32) (s : State) : Res :=
  .next (s.bar0Write false (fun s =>
    let c := s.coh
    let w := bits v.toNat 3 0
    let c := if bit v.toNat 8 then { c with waysIgnored := false } else c
    if w = 0 ∨ 9 ≤ w ∨ w = c.ways.toNat then { s with coh := c }
    else if c.cacheEnable then { s with coh := { c with waysIgnored := true } }
    else { s with coh := { c with ways := BitVec.ofNat 4 w } }))

/-! ### The carve (R364 to R366, R369) -/

/-- A carve of n GiB takes only HBM granules that nobody owns or that are in the present carve (R369). -/
def State.carveFree (s : State) (n : Nat) : Bool :=
  let c := { s.coh with cohGib := BitVec.ofNat 9 n, bulkGib := 0 }
  s.own.all (fun e => (c.carveOff e.1).isNone || (s.coh.carveOff e.1).isSome || decide (modeOf e.2 false = 0 ∧ ¬ bit e.2.toNat 22))

/-- COH_HDM_CFG_WRITE (R369). -/
def execCohHdmCfgWrite (v : BitVec 32) (s : State) : Res :=
  .next (s.bar0Write false (fun s =>
    let co := BitVec.ofNat 9 (bits v.toNat 8 0)
    let bu := BitVec.ofNat 9 (bits v.toNat 24 16)
    let c := s.coh
    let c := if bit v.toNat 31 then { c with hdmIgnored := false } else c
    if co = c.cohGib ∧ bu = c.bulkGib then { s with coh := c }
    else
      let n := co.toNat + bu.toNat
      let ok := !c.hdmBusy && !c.dec0.committed && !c.dec1.committed && s.srv.main.isNone && s.srv.draft.isNone &&
        s.srv.loading.isNone && s.ctxs.all (fun x => !x.2.valid) &&
        s.rings.all (fun r => decide (r.2.st = .disabled) || (!r.2.sqHdm && !r.2.cqHdm)) && decide (1 ≤ n) && decide (n ≤ 256) && s.carveFree n
      if ok then { s with coh := { c with hdmBusy := true, newCoh := co, newBulk := bu } }
      else { s with coh := { c with hdmIgnored := true } }))

/-- Memory with a carve zeroed: in stack n, the top granules that it takes. -/
def Memory.zeroCarve (m : Memory) (c : Coh) : Memory :=
  let inside (k : Nat) : Bool := (c.carveOff k).isSome
  { cells := m.cells.filter (fun x => !inside x.1), poison := m.poison.filter (fun w => !inside (8 * w)),
    scratch := m.scratch, lost := m.lost.filter (fun x => !inside (x.1 * 2 ^ 21)) }

/-- The carve becomes that of c' (R365, R369): the old one is returned, both hold zeros, and their entries are firmware's
default, but RETIRED stays. -/
def State.remakeCarve (s : State) (c' : Coh) : State :=
  let c := s.coh
  let entry (e : Nat × BitVec 32) : Option (Nat × BitVec 32) :=
    let inNew := (c'.carveOff e.1).isSome
    if (c.carveOff e.1).isNone && !inNew then some e
    else if bit e.2.toNat 22 then some (e.1, if inNew then 0x40_5000 else 0x40_0000)
    else none
  { s with coh := c', mem := (s.mem.zeroCarve c).zeroCarve c', own := s.own.filterMap entry }

/-- CARVE_CHANGE_DONE (R369): the new carve is in place and BUSY clears. -/
def execCarveChangeDone (s : State) : Res :=
  let c := s.coh
  if !c.hdmBusy then .next s
  else .next (s.remakeCarve { c with cohGib := c.newCoh, bulkGib := c.newBulk, hdmBusy := false })

/-- DECODER_COMMIT (R366): refused with Commit Error, or committed. -/
def execDecoderCommit (n : Fin 2) (base size : BitVec 64) (bi : Bool) (s : State) : Res :=
  .next (s.bar0Write false (fun s =>
    let c := s.coh
    let win := (if n = 0 then c.cohGib.toNat else c.bulkGib.toNat) * 2 ^ 30
    let bad := c.hdmBusy || decide (win = 0) || decide (size.toNat ≠ win) ||
      (if n = 0 then !bi
       else decide (c.cohGib ≠ 0) && !(c.dec0.committed && decide (base.toNat = c.dec0.base + c.cohGib.toNat * 2 ^ 30)))
    let d : Decoder := { committed := !bad, base := base.toNat, size := size.toNat, bi := bi, commitError := bad }
    { s with coh := if n = 0 then { c with dec0 := d } else { c with dec1 := d } }))

end Sys2Proof.Machine
end

