-- ==== Sys2Proof/Machine/Crypto.lean ====
section
/-! DEFINITION. The cryptographic standards that the spec names: CRC-32C (R284), SHA-384, HMAC, HKDF (R272, R379, R381),
AES-128, AES-256, CTR and GCM (R271, R379, R390), P-384 (R370, R379, R389). The spec gives CRC-32C; the others are taken
from their public standards (PRESUMED, log entry 5). -/

namespace Sys2Proof.Machine

/-! ### CRC-32C -/

/-- One bit of the reflected CRC-32C register, polynomial 0x1EDC_6F41 reflected (R284). -/
def crcBit (c : Nat) : Nat := if c % 2 = 1 then (c / 2) ^^^ 0x82F63B78 else c / 2

/-- One byte into the register. -/
def crcByte (c : Nat) (b : Byte) : Nat :=
  crcBit (crcBit (crcBit (crcBit (crcBit (crcBit (crcBit (crcBit (c ^^^ b.toNat))))))))

/-- CRC-32C of R284: initial value and final XOR 0xFFFF_FFFF. -/
def crc32c (bs : Bytes) : Nat := (bs.foldl crcByte 0xFFFFFFFF) ^^^ 0xFFFFFFFF

/-! ### SHA-384 -/

/-- The first 80 primes, from which FIPS 180-4 derives its constants. -/
def primes80 : List Nat := ((List.range 410).filter (fun n => n ≥ 2 && (List.range 20).all (fun d => d < 2 || n == d || n % d ≠ 0)))

/-- Newton iteration for the integer cube root, from above. -/
def icbrtFrom (n : Nat) : Nat → Nat → Nat
  | 0, x => x
  | k + 1, x => let y := (2 * x + n / (x * x)) / 3; if y < x then icbrtFrom n k y else x

/-- The 80 round constants: the first 64 fraction bits of the cube roots of the primes. -/
def sha512K : List Nat := primes80.map (fun p => icbrtFrom (p * 2 ^ 192) 400 (2 ^ 67) % 2 ^ 64)

/-- The initial value of SHA-384: the first 64 fraction bits of the square roots of the 9th to 16th primes. -/
def sha384Iv : List Nat := ((primes80.drop 8).take 8).map (fun p => isqrt (p * 2 ^ 128) % 2 ^ 64)

/-- Rotation of a 64-bit word to the right. -/
def ror64 (x n : Nat) : Nat := (x >>> n) ||| ((x <<< (64 - n)) % 2 ^ 64)

/-- The message schedule, newest word first: 16 words given. -/
def shaSchedule : Nat → List Nat → List Nat
  | 0, ws => ws
  | k + 1, ws =>
    let w2 := ws.getD 1 0
    let w7 := ws.getD 6 0
    let w15 := ws.getD 14 0
    let w16 := ws.getD 15 0
    let s0 := ror64 w15 1 ^^^ ror64 w15 8 ^^^ (w15 >>> 7)
    let s1 := ror64 w2 19 ^^^ ror64 w2 61 ^^^ (w2 >>> 6)
    shaSchedule k (((w16 + s0 + w7 + s1) % 2 ^ 64) :: ws)

/-- One round on the eight working words. -/
def shaRound (st : List Nat) (kw : Nat) : List Nat :=
  match st with
  | [a, b, c, d, e, f, g, h] =>
    let s1 := ror64 e 14 ^^^ ror64 e 18 ^^^ ror64 e 41
    let ch := (e &&& f) ^^^ ((2 ^ 64 - 1 - e) &&& g)
    let t1 := h + s1 + ch + kw
    let s0 := ror64 a 28 ^^^ ror64 a 34 ^^^ ror64 a 39
    let mj := (a &&& b) ^^^ (a &&& c) ^^^ (b &&& c)
    [(t1 + s0 + mj) % 2 ^ 64, a, b, c, (d + t1) % 2 ^ 64, e, f, g]
  | _ => st

/-- One 128-byte block. -/
def shaBlock (h : List Nat) (blk : Bytes) : List Nat :=
  let ws := (List.range 16).map (fun i => beNat (sliceBytes blk (8 * i) 8))
  let w := (shaSchedule 64 ws.reverse).reverse
  let kw := List.zipWith (· + ·) sha512K w
  List.zipWith (fun x y => (x + y) % 2 ^ 64) h (kw.foldl shaRound h)

/-- SHA-384 (48 bytes). -/
def sha384 (m : Bytes) : Bytes :=
  let len := m.length
  let pad := (128 - (len + 17) % 128) % 128
  let full := m ++ [0x80] ++ List.replicate pad 0 ++ natBe (8 * len) 16
  let h := (List.range (full.length / 128)).foldl (fun h i => shaBlock h ((full.drop (128 * i)).take 128)) sha384Iv
  ((h.map (fun x => natBe x 8)).flatten).take 48

/-- HMAC-SHA-384. -/
def hmac384 (key m : Bytes) : Bytes :=
  let k := if key.length > 128 then sha384 key else key
  let k := k ++ List.replicate (128 - k.length) 0
  sha384 (k.map (· ^^^ 0x5C) ++ sha384 (k.map (· ^^^ 0x36) ++ m))

/-- The expand part of HKDF. -/
def hkdfExpand (prk info : Bytes) : Nat → Nat → Bytes → Bytes
  | 0, _, _ => []
  | k + 1, i, prev =>
    let t := hmac384 prk (prev ++ info ++ [BitVec.ofNat 8 i])
    t ++ hkdfExpand prk info k (i + 1) t

/-- HKDF-SHA-384 (R379, R381, R457). -/
def hkdf384 (salt ikm info : Bytes) (len : Nat) : Bytes :=
  (hkdfExpand (hmac384 salt ikm) info ((len + 47) / 48) 1 []).take len

/-! ### AES -/

/-- Multiplication by x in GF(2^8). -/
def gfX (a : Nat) : Nat := if a ≥ 128 then ((2 * a) ^^^ 0x11B) else 2 * a

/-- Multiplication in GF(2^8). -/
def gfMul : Nat → Nat → Nat → Nat
  | 0, _, _ => 0
  | k + 1, a, b => (if b % 2 = 1 then a else 0) ^^^ gfMul k (gfX a) (b / 2)

/-- a^254, the inverse in GF(2^8). -/
def gfInv (a : Nat) : Nat :=
  let m := gfMul 8
  let a2 := m a a
  let a4 := m a2 a2
  let a8 := m a4 a4
  let a16 := m a8 a8
  let a32 := m a16 a16
  let a64 := m a32 a32
  let a128 := m a64 a64
  m a128 (m a64 (m a32 (m a16 (m a8 (m a4 a2)))))

/-- Rotation of a byte to the left. -/
def rol8 (x n : Nat) : Nat := ((x <<< n) ||| (x >>> (8 - n))) % 256

/-- The AES substitution of a byte. -/
def aesSub (a : Nat) : Nat :=
  let i := gfInv a
  i ^^^ rol8 i 1 ^^^ rol8 i 2 ^^^ rol8 i 3 ^^^ rol8 i 4 ^^^ 0x63

/-- The substitution table. -/
def aesSbox : List Nat := (List.range 256).map aesSub

/-- Table lookup of the substitution. -/
def sbox (a : Nat) : Nat := aesSbox.getD a 0

/-- The key schedule as 4-byte words, newest first. -/
def aesExpand (nk : Nat) : Nat → Nat → Nat → List (List Nat) → List (List Nat)
  | 0, _, _, ws => ws
  | k + 1, i, rc, ws =>
    let prev := ws.headD []
    let old := ws.getD (nk - 1) []
    let t :=
      if i % nk = 0 then
        match (prev.drop 1 ++ prev.take 1).map sbox with
        | a :: r => (a ^^^ rc) :: r
        | [] => []
      else if nk > 6 ∧ i % nk = 4 then prev.map sbox
      else prev
    aesExpand nk k (i + 1) (if i % nk = 0 then gfX rc else rc) (List.zipWith (· ^^^ ·) old t :: ws)

/-- The round keys of 16 bytes each. -/
def aesKeys (key : Bytes) : List (List Nat) :=
  let nk := key.length / 4
  let kn := key.map BitVec.toNat
  let w0 := (List.range nk).map (fun i => (kn.drop (4 * i)).take 4)
  let ws := (aesExpand nk (4 * (nk + 7) - nk) nk 1 w0.reverse).reverse
  (List.range (nk + 7)).map (fun r => ((ws.drop (4 * r)).take 4).flatten)

/-- Substitution and row shift of a column-major state. -/
def aesSubShift (s : List Nat) : List Nat :=
  (List.range 16).map (fun i => sbox (s.getD ((i + 4 * (i % 4)) % 16) 0))

/-- Column mixing. -/
def aesMix (s : List Nat) : List Nat :=
  (List.range 16).map (fun i =>
    let c := 4 * (i / 4)
    let a (j : Nat) := s.getD (c + (i + j) % 4) 0
    gfX (a 0) ^^^ (gfX (a 1) ^^^ a 1) ^^^ a 2 ^^^ a 3)

/-- AES encryption of one 16-byte block under a 16- or 32-byte key. -/
def aesBlock (key blk : Bytes) : Bytes :=
  let ks := aesKeys key
  let n := ks.length
  let x (a b : List Nat) := List.zipWith (· ^^^ ·) a b
  let s0 := x (blk.map BitVec.toNat) (ks.headD [])
  let s := ((ks.drop 1).take (n - 2)).foldl (fun s k => x (aesMix (aesSubShift s)) k) s0
  (x (aesSubShift s) (ks.getD (n - 1) [])).map (BitVec.ofNat 8)

/-- The key stream for a list of counter blocks, applied to data. -/
def ctrXor (key : Bytes) (blockAt : Nat → Bytes) (data : Bytes) : Bytes :=
  ((List.range ((data.length + 15) / 16)).map (fun i =>
    List.zipWith (· ^^^ ·) ((data.drop (16 * i)).take 16) (aesBlock key (blockAt i)))).flatten

/-- Multiplication in GF(2^128) of GCM, bit by bit. -/
def ghMul : Nat → Nat → Nat → Nat → Nat
  | 0, _, _, z => z
  | k + 1, x, v, z =>
    let z := if (x >>> k) % 2 = 1 then z ^^^ v else z
    let v := if v % 2 = 1 then (v / 2) ^^^ (0xE1 <<< 120) else v / 2
    ghMul k x v z

/-- GHASH over whole padded blocks. -/
def ghash (h : Nat) (bs : Bytes) : Nat :=
  (List.range (bs.length / 16)).foldl (fun y i => ghMul 128 (y ^^^ beNat ((bs.drop (16 * i)).take 16)) h 0) 0

/-- Zero padding to a multiple of n bytes. -/
def padTo (n : Nat) (bs : Bytes) : Bytes := bs ++ List.replicate ((n - bs.length % n) % n) 0

/-- The 16-byte GCM tag over aad and ciphertext under a 12-byte nonce. -/
def gcmTag (key iv aad ct : Bytes) : Bytes :=
  let h := beNat (aesBlock key (List.replicate 16 0))
  let s := ghash h (padTo 16 aad ++ padTo 16 ct ++ natBe (8 * aad.length) 8 ++ natBe (8 * ct.length) 8)
  List.zipWith (· ^^^ ·) (natBe s 16) (aesBlock key (iv ++ natBe 1 4))

/-- GCM's counter mode: encryption and decryption are the same. -/
def gcmCrypt (key iv data : Bytes) : Bytes := ctrXor key (fun i => iv ++ natBe (i + 2) 4) data

/-- GCM encryption: ciphertext then tag. -/
def gcmSeal (key iv aad pt : Bytes) : Bytes := let ct := gcmCrypt key iv pt; ct ++ gcmTag key iv aad ct

/-- GCM decryption: none if the tag fails. -/
def gcmOpen (key iv aad ct tag : Bytes) : Option Bytes :=
  if gcmTag key iv aad ct = tag then some (gcmCrypt key iv ct) else none

/-! ### P-384 -/

/-- The field prime of P-384. -/
def p384P : Nat := 2 ^ 384 - 2 ^ 128 - 2 ^ 96 + 2 ^ 32 - 1
/-- The coefficient b of P-384. -/
def p384B : Nat := 0xB3312FA7E23EE7E4988E056BE3F82D19181D9C6EFE8141120314088F5013875AC656398D8A2ED19D2A85C8EDD3EC2AEF
/-- The order of P-384. -/
def p384N : Nat := 0xFFFFFFFFFFFFFFFFFFFFFFFFFFFFFFFFFFFFFFFFFFFFFFFFC7634D81F4372DDF581A0DB248B0A77AECEC196ACCC52973
/-- The generator of P-384. -/
def p384G : Nat × Nat :=
  (0xAA87CA22BE8B05378EB1C71EF320AD746E1D3B628BA79B9859F741E082542A385502F25DBF55296C3A545E3872760AB7,
   0x3617DE4A96262C6F5D9E98BF9292DC29F8F41DBD289A147CE9DA3113B5F0B8C00A60B1CE1D7E819D7A431D7C90EA0E5F)

/-- Modular power with k exponent bits. -/
def powMod (n : Nat) : Nat → Nat → Nat → Nat → Nat
  | 0, _, _, acc => acc
  | k + 1, b, e, acc => powMod n k (b * b % n) (e / 2) (if e % 2 = 1 then acc * b % n else acc)

/-- Modular inverse for a prime modulus. -/
def invMod (n a : Nat) : Nat := powMod n 400 (a % n) (n - 2) 1

/-- The third point from slope l. -/
def ecThird (l : Nat) (a b : Nat × Nat) : Nat × Nat :=
  let x := (l * l + 2 * p384P - a.1 - b.1) % p384P
  (x, (l * (a.1 + p384P - x) + p384P - a.2) % p384P)

/-- Addition of points; none is the point at infinity. -/
def ecAdd (a b : Option (Nat × Nat)) : Option (Nat × Nat) :=
  match a, b with
  | none, q => q
  | q, none => q
  | some p, some q =>
    if p.1 = q.1 then
      if (p.2 + q.2) % p384P = 0 then none
      else some (ecThird ((3 * p.1 * p.1 + p384P - 3) * invMod p384P (2 * p.2) % p384P) p q)
    else some (ecThird ((q.2 + p384P - p.2) * invMod p384P (q.1 + p384P - p.1) % p384P) p q)

/-- Scalar multiplication over k bits. -/
def ecMul : Nat → Nat → Option (Nat × Nat) → Option (Nat × Nat)
  | 0, _, _ => none
  | k + 1, s, p => ecAdd (if s % 2 = 1 then p else none) (ecMul k (s / 2) (ecAdd p p))

/-- The point of an uncompressed SEC1 encoding of 97 bytes, if it lies on the curve. -/
def ecPoint (bs : Bytes) : Option (Nat × Nat) :=
  let x := beNat (sliceBytes bs 1 48)
  let y := beNat (sliceBytes bs 49 48)
  if bs.length = 97 ∧ bs.headD 0 = 4 ∧ x < p384P ∧ y < p384P ∧
      y * y % p384P = (x * x * x + (p384P - 3) * x + p384B) % p384P then some (x, y) else none

/-- The uncompressed SEC1 encoding of a point. -/
def ecBytes : Option (Nat × Nat) → Bytes
  | some p => [4] ++ natBe p.1 48 ++ natBe p.2 48
  | none => List.replicate 97 0

/-- The public key of a private scalar. -/
def ecPub (d : Nat) : Bytes := ecBytes (ecMul 384 d (some p384G))

/-- The x coordinate of an ECDH exchange (R379, R457). -/
def ecdhX (d : Nat) (pub : Bytes) : Option Bytes :=
  match ecPoint pub with
  | none => none
  | some p => (ecMul 384 d (some p)).map (fun q => natBe q.1 48)

/-- ECDSA P-384 verification of SHA-384(m), signature r then s of 48 bytes each (R389, R393). -/
def ecdsaVerify (pub m sig : Bytes) : Bool :=
  let r := beNat (sliceBytes sig 0 48)
  let s := beNat (sliceBytes sig 48 48)
  match ecPoint pub with
  | none => false
  | some q =>
    if r = 0 ∨ r ≥ p384N ∨ s = 0 ∨ s ≥ p384N ∨ sig.length ≠ 96 then false
    else
      let z := beNat (sha384 m)
      let w := invMod p384N s
      match ecAdd (ecMul 384 (z * w % p384N) (some p384G)) (ecMul 384 (r * w % p384N) (some q)) with
      | none => false
      | some p => p.1 % p384N = r

/-- ECDSA P-384 signing of SHA-384(m) with the per-signature number k (R457). -/
def ecdsaSign (d k : Nat) (m : Bytes) : Bytes :=
  let k := k % (p384N - 1) + 1
  let r := match ecMul 384 k (some p384G) with | some p => p.1 % p384N | none => 0
  natBe r 48 ++ natBe (invMod p384N k * (beNat (sha384 m) + r * d) % p384N) 48

end Sys2Proof.Machine
end

