-- ==== Sys2Proof/Machine/Journal.lean ====
section
/-! DEFINITION. What the packets share: statuses and fields of a packet (R284, R296), buffers of a packet in memory (R293,
R319, R341), and how a packet starts and ends (R289, R320). -/

namespace Sys2Proof.Machine

/-! ### Status codes (R296) -/

def stDone : Nat := 0x00
def stPartial : Nat := 0x01
def stBusy : Nat := 0x02
def stBad : Nat := 0x03
def stTorn : Nat := 0x04
def stNoResource : Nat := 0x05
def stDenied : Nat := 0x06
def stFaulted : Nat := 0x07
def stAborted : Nat := 0x08
def stDeviceError : Nat := 0x09
def stUnsupported : Nat := 0x0A

/-! ### Packet fields (R284, R285, R288) -/

def Pkt.byte (p : Pkt) (i : Nat) : Nat := (p.bytes.getD i 0).toNat
def Pkt.field (p : Pkt) (i len : Nat) : Nat := fieldLe p.bytes i len
def Pkt.opcode (p : Pkt) : Nat := p.byte 0
def Pkt.direct (p : Pkt) : Bool := bit (p.byte 1) 1
def Pkt.flushDc (p : Pkt) : Bool := bit (p.byte 1) 2
def Pkt.flushHdm (p : Pkt) : Bool := bit (p.byte 1) 3
def Pkt.irq (p : Pkt) : Bool := bit (p.byte 1) 4
def Pkt.ordered (p : Pkt) : Bool := bit (p.byte 1) 5
def Pkt.tagField (p : Pkt) : Nat := p.field 4 2
def Pkt.handle (p : Pkt) : Nat := p.field 8 4
def Pkt.ctx (p : Pkt) : Nat := bits (p.handle) 11 0

/-- The packet with ring sequence number q, if its final completion is not yet produced. -/
def Ring.pkt (x : Ring) (q : BitVec 16) : Option Pkt := x.pkts.find? (fun p => p.seq = q && decide (p.phase ≠ .done))

/-- The ring with a packet in another phase. -/
def Ring.setPhase (x : Ring) (q : BitVec 16) (ph : PktPhase) : Ring :=
  { x with pkts := x.pkts.map (fun p => if p.seq = q && decide (p.phase ≠ .done) then { p with phase := ph } else p) }

/-! ### Buffers (R227, R293, R319, R341) -/

/-- The target of one piece of a buffer: none while its page is awaited, some none where it cannot be translated. -/
def State.spot (s : State) (who : Waiter) (tag ptr : Nat) (k : Kind) : Option (Option Tgt) × State :=
  let c := s.ctx tag
  if space ptr = 0 then
    match s.resolve who none 0 c.func c.pasid (spaceOff ptr) k.reads k.writes with
    | (.failed, s) => (some none, s)
    | (.wait, s) => (none, s)
    | (.io, s) => (some (some { key := spaceOff ptr, host := false, io := true }), s)
    | (.ok hpa, s) => (some (some (s.hostTgt hpa)), s)
  else if space ptr = 1 ∨ space ptr = 2 then
    (some (some { key := s.physOf 0 false tag ptr, host := false, io := false }), s)
  else (some none, s)

/-- What a packet learns of a buffer it reads: its bytes, that it must wait, or the first pointer that failed. -/
inductive BufRead where
  | data (bs : Bytes)
  | wait
  | failed (ptr : Nat)
deriving DecidableEq, Repr

/-- One piece of a buffer is read: host memory by CXL.io, device memory at its home (R341). A target that does not answer is abandoned
as an engine's request is (R179, log entry 115). -/
def State.readPiece (s : State) (who : Waiter) (tag ptr len : Nat) : BufRead × State :=
  match s.spot who tag ptr .read with
  | (none, s) => (.wait, s)
  | (some none, s) => (.failed ptr, s)
  | (some (some t), s) =>
    if t.io || isHostKey t.key then
      match s.askIo who (s.ctx tag).func (if t.io then some (s.ctx tag).pasid else none) (if t.io then t.key else t.key - 2 ^ 64) len with
      | (.data bs, s) => (.data bs, s)
      | (.wait, s) => (.wait, s)
      | (.failed, s) => (.failed ptr, s)
    else if !s.allowed t.key (!t.host) t.host tag false then (.failed ptr, s.refusal (unitHub 3 0) t.key (!t.host) none)
    else if !s.answers t.key then (.failed ptr, s.report (event 15 (unitHub 3 0) (t.key / 8 * 8) (some tag)))
    else
      match s.linesReady t.key len false with
      | (false, s) => (.wait, s)
      | (true, s) =>
        if s.mem.poisoned t.key len then
          (.failed ptr, s.report (event 8 (unitHub 3 0) (s.mem.firstPoison t.key len) (some tag)))
        else (.data (s.mem.read t.key len), s)

/-- A buffer of a packet is read under its context's rights (R293). Every piece is asked for; the first that fails decides. -/
def State.readBuf (s : State) (who : Waiter) (tag ptr len : Nat) : BufRead × State :=
  if !s.mayName false tag ptr len .read then (.failed ptr, s)
  else
    (pagesOf ptr len).foldl (fun a p =>
      match a.1 with
      | .failed x => (.failed x, a.2)
      | .wait => let r := a.2.readPiece who tag p.1 p.2; (.wait, r.2)
      | .data bs =>
        match a.2.readPiece who tag p.1 p.2 with
        | (.data b, s) => (.data (bs ++ b), s)
        | (x, s) => (x, s)) (.data [], s)

/-- A write that is planned: 0 to memory at a key, 1 the same by CXL.io, 2 untranslated at PASID × 2^64 + address. -/
abbrev Planned := Nat × Nat × Bytes

/-- A planned write of function f is carried out (R319), for the context that tag names. A line of a target that does not answer is not
written (R179, log entry 115). -/
def State.carry (s : State) (f : Nat) (tag : Option Nat) (w : Planned) : State :=
  if w.1 = 2 then s.send (.untranslatedWrite f (w.2.1 / 2 ^ 64) (w.2.1 % 2 ^ 64) w.2.2)
  else
    let s := (linesOf w.2.1 w.2.2.length).foldl (fun s p =>
      if s.answers p.1 then s.storeLine p.1 (sliceBytes w.2.2 (p.1 - w.2.1) p.2) tag
      else s.report (event 15 (unitHub 3 0) (p.1 / 8 * 8) tag)) s
    if w.1 = 1 && isHostKey w.2.1 then s.send (.ioWrite f (w.2.1 - 2 ^ 64) w.2.2) else s

/-- What a packet learns of a buffer it writes: the writes, that it must wait, or the pointer that failed and the writes
before it. -/
inductive BufWrite where
  | ok (l : List Planned)
  | wait
  | failed (ptr : Nat) (l : List Planned)
deriving DecidableEq, Repr

/-- One piece of a buffer is made ready to be written (R319): by CXL.io with DIRECT, else through the device cache or at its
home. -/
def State.planPiece (s : State) (who : Waiter) (tag ptr : Nat) (bs : Bytes) (direct : Bool) : BufWrite × State :=
  match s.spot who tag ptr .write with
  | (none, s) => (.wait, s)
  | (some none, s) => (.failed ptr [], s)
  | (some (some t), s) =>
    if t.io then (.ok [(2, (s.ctx tag).pasid * 2 ^ 64 + t.key, bs)], s)
    else if !isHostKey t.key && !s.allowed t.key (!t.host) t.host tag true then
      (.failed ptr [], s.refusal (unitHub 3 0) t.key (!t.host) none)
    else if isHostKey t.key && direct then
      (if s.sends (s.ctx tag).func then .ok [(1, t.key, bs)] else .wait, s)
    else
      match s.linesReady t.key bs.length true with
      | (false, s) => (.wait, s)
      | (true, s) => (.ok [(0, t.key, bs)], s)

/-- A buffer of a packet is made ready to be written under its context's rights. -/
def State.planBuf (s : State) (who : Waiter) (tag ptr : Nat) (bs : Bytes) (direct : Bool) : BufWrite × State :=
  if !s.mayName false tag ptr bs.length .write then (.failed ptr [], s)
  else
    (pagesOf ptr bs.length).foldl (fun a p =>
      match a.1 with
      | .failed x l => (.failed x l, a.2)
      | .wait => let r := a.2.planPiece who tag p.1 (sliceBytes bs (p.1 - ptr) p.2) direct; (.wait, r.2)
      | .ok l =>
        match a.2.planPiece who tag p.1 (sliceBytes bs (p.1 - ptr) p.2) direct with
        | (.ok l', s) => (.ok (l ++ l'), s)
        | (.failed x _, s) => (.failed x l, s)
        | (.wait, s) => (.wait, s)) (.ok [], s)

/-- Planned writes are carried out in order. -/
def State.carryAll (s : State) (f : Nat) (tag : Option Nat) (l : List Planned) : State := l.foldl (fun s w => s.carry f tag w) s

/-! ### How a packet ends (R289, R290, R320) -/

/-- A completion is produced: it waits in its ring until it is written. What a quiescing function's packets produce is
discarded unwritten (R334). -/
def State.produce (s : State) (f r : Nat) (c : Completion) : State :=
  if (s.fn f).quiescing then s
  else
    let x := s.ring f r
    s.setRing f r { x with held := x.held ++ [c] }

/-- The completion of a packet with its status and RESULT. -/
def Pkt.completion (p : Pkt) (status : Nat) (final : Bool) (res : Bytes) : Completion :=
  { tag := BitVec.ofNat 16 p.tagField, status := BitVec.ofNat 8 status, final := final, seq := p.seq, head := p.head,
    result := sliceBytes res 0 16, irq := p.irq && final }

/-- The ring lines that a ring asked for and has are forgotten (R361). -/
def Coh.dropCurr (c : Coh) (f r : Nat) : Coh := { c with curr := c.curr.filter (fun x => decide (x.1 ≠ 64 * f + r) || !x.2.2) }

/-- What a packet waited for is forgotten. -/
def State.dropWaits (s : State) (who : Waiter) : State :=
  let s := { s with xlt := { s.xlt with waits := s.xlt.waits.filter (fun w => decide (w.who ≠ who)) } }
  s.dropIo who

/-- A completion with the output writes before it is released, or waits for the mirror (R461). mirrored says that the packet
sent a frame that must be acknowledged first. -/
def State.release (s : State) (tag f r : Nat) (c : Option Completion) (ws : List Planned) (mirrored : Bool) : State :=
  if (s.fn f).quiescing then s
  else if mirrored && !s.mir.role && (s.peerTag tag).isSome &&
      (!s.mir.releases s.mir.lastFseq || !s.mir.holds.isEmpty) then
    let h : Hold := { fseq := s.mir.lastFseq, tag := tag, f := f, r := r, c := c, writes := ws }
    { s with mir := { s.mir with holds := s.mir.holds ++ [h] } }
  else
    let s := s.carryAll f (some tag) ws
    match c with
    | some c => s.produce f r c
    | none => s

/-- Output that waits for the mirror is released in order as far as R461 allows; n bounds the number. -/
def State.releaseHolds : Nat → State → State
  | 0, s => s
  | n + 1, s =>
    match s.mir.holds with
    | [] => s
    | h :: rest =>
      if !s.mir.releases h.fseq then s
      else
        let s := { s with mir := { s.mir with holds := rest } }
        let s := if (s.fn h.f).quiescing then s else s.carryAll h.f (some h.tag) h.writes
        State.releaseHolds n (match h.c with
          | some c => s.produce h.f h.r c
          | none => s)

/-- A packet ends: its one final completion is produced (R290). -/
def State.finishWith (s : State) (f r : Nat) (q : BitVec 16) (status : Nat) (res : Bytes) (ws : List Planned)
    (mirrored : Bool) : State :=
  let x := s.ring f r
  match x.pkt q with
  | none => s
  | some p =>
    let s := s.dropWaits (pktW f r q)
    let s := s.setRing f r (x.setPhase q .done)
    let s := { s with srv := { s.srv with received := s.srv.received.filter (fun y => !(y.f = f && y.r = r && y.q = q)) } }
    s.release p.ctx f r (some (p.completion status true res)) ws mirrored

/-- A packet ends without a mirrored effect. -/
def State.finish (s : State) (f r : Nat) (q : BitVec 16) (status : Nat) (res : Bytes) : State :=
  s.finishWith f r q status res [] false

/-- A packet that changed sequence or session state ends: a COMMAND frame of a bound context goes first, and in synchronous
mode the completion waits for its acknowledgement (R459, R461). -/
def State.finishMirrored (s : State) (f r : Nat) (q : BitVec 16) (status : Nat) (res : Bytes) (ws : List Planned) : State :=
  match (s.ring f r).pkt q with
  | none => s
  | some p =>
    if status = stDone then
      (s.journal p.ctx 4 (.command p.bytes)).finishWith f r q status res ws true
    else s.finishWith f r q status res ws false

/-! ### Starting a packet (R287, R241) -/

/-- The packet that may be carried out now: it has started, or it is next of its ring, no FENCE is before it, and, for
ORDERED and FENCE, every earlier packet has its final completion written (R287, R313). -/
def Ring.startable (x : Ring) (q : BitVec 16) : Option Pkt :=
  match x.pkt q with
  | none => none
  | some p =>
    match p.phase with
    | .running => some p
    | .received => some p
    | .done => none
    | .read =>
      let before := x.pkts.takeWhile (fun y => y ≠ p)
      let waits := p.ordered || decide (p.opcode = 0x43)
      if before.any (fun y => decide (y.phase = .read) || decide (y.opcode = 0x43)) || (waits && !before.isEmpty) then none
      else some p

/-- A packet of an opcode is carried out by k. One whose context is draining ends ABORTED (R241); a function whose interface is
in ERROR serves no packet (R377). -/
def State.packet (s : State) (f : FnId) (r : RingId) (q : PktSeq) (op : Nat) (sel : Pkt → Bool)
    (k : Pkt → State → State) : Res :=
  match (s.ring f r).startable q with
  | none => .next s
  | some p =>
    if p.opcode ≠ op || !sel p || (s.fn f).quiescing || (s.fn f).barred then .next s
    else
      let c := s.ctx p.ctx
      if 3 ≤ op ∧ (!c.valid ∨ (c.draining ∧ c.detachBy ≠ some (f.val, r.val, q))) then
        let s := if c.draining then s.setCtx p.ctx { c with aborted := c.aborted + 1 } else s
        .next (s.finish f r q stAborted [])
      else .next (k p (if p.phase = .read then s.setRing f r ((s.ring f r).setPhase q .running) else s))

/-- Packet p is the one that a row of opcode op, with the selector sel, carries out now: it may start, its function serves packets,
and its context takes them (R241, R287, R334, R377). -/
def State.ready (s : State) (f : FnId) (r : RingId) (q : PktSeq) (op : Nat) (sel : Pkt → Bool) (p : Pkt) : Bool :=
  decide ((s.ring f r).startable q = some p) && decide (p.opcode = op) && sel p && !(s.fn f).quiescing && !(s.fn f).barred &&
    (decide (op < 3) || ((s.ctx p.ctx).valid && (!(s.ctx p.ctx).draining || decide ((s.ctx p.ctx).detachBy = some (f.val, r.val, q)))))

/-- The state in which a packet is carried out: it runs. -/
def State.begun (s : State) (f : FnId) (r : RingId) (q : PktSeq) (p : Pkt) : State :=
  if p.phase = .read then s.setRing f r ((s.ring f r).setPhase q .running) else s

/-- A 4-byte field of a RESULT. -/
def res4 (n : Nat) : Bytes := natLe n 4

end Sys2Proof.Machine
end

