-- ==== Sys2Proof/Machine/Rings.lean ====
section
/-! DEFINITION. Ring pairs: Transom registers, reading and checking packets, writing completions (R278 to R292, R336). -/

namespace Sys2Proof.Machine

/-! ### Locked interfaces (R377) -/

/-- Steps 5 and 6 of R334 as far as they need no step boundary: translations go and page requests are abandoned (R242), the
function's contexts drain without completions, their sessions are zeroised, and its ring registers are reset. -/
def State.endFn (s : State) (f : Nat) : State :=
  let s := s.dropXlt f none
  let mine := (s.ctxs.filter (fun c => c.2.valid && decide (c.2.func = f))).map (·.1)
  let drain (c : Nat × Ctx) := if mine.contains c.1 then (c.1, { c.2 with draining := true, detachBy := none }) else c
  { s with
    xlt := { s.xlt with waits := s.xlt.waits.filter (fun w => w.fn ≠ f), reqs := s.xlt.reqs.filter (fun r => r.fn ≠ f) },
    ctxs := s.ctxs.map drain,
    sec := { s.sec with sessions := s.sec.sessions.filter (fun k => !mine.contains k.2.ctx),
                        imageKeys := s.sec.imageKeys.filter (fun k => !mine.contains k.2.ctx) },
    rings := s.rings.filter (fun r => r.1 / 64 ≠ f),
    port := { s.port with ioReads := s.port.ioReads.filter (fun r => r.fn ≠ f) },
    coh := { s.coh with curr := s.coh.curr.filter (fun x => x.1 / 64 ≠ f) },
    srv := { s.srv with received := s.srv.received.filter (fun r => r.f ≠ f),
                        loading := s.srv.loading.filter (fun l => l.f ≠ f) },
    mir := { s.mir with holds := s.mir.holds.filter (fun h => h.f ≠ f) } }

/-- A locked TDI moves to ERROR and its function's contexts end (R377). -/
def State.tdiError (s : State) (f : Nat) : State :=
  let x := s.fn f
  if x.tdi = .locked ∨ x.tdi = .run then (s.setFn f { x with tdi := .error, barred := true }).endFn f else s

/-- A write to a ring register of a locked TDI in any state other than DISABLED moves it to ERROR (R377). -/
def State.tdiRingWrite (s : State) (f r : Nat) : State := if (s.ring f r).st = .disabled then s else s.tdiError f

/-! ### Doorbells (R280, R290, R291) -/

/-- SQ_DOORBELL (R280, R291): TAIL is taken unless DISABLED or DRAINING; a ring in DOORBELL_AHEAD becomes ACTIVE and reads its slot
again, whatever the value. -/
def execSqDoorbell (f : FnId) (r : RingId) (v : BitVec 64) (s : State) : Res :=
  .next (s.barAccess f (fun s =>
    let x := s.ring f r
    if x.st = .disabled ∨ x.st = .draining then s
    else s.setRing f r { x with tail := bits v.toNat 15 0 % x.sqSlots,
                                st := if x.st = .doorbellAhead then .active else x.st,
                                again := x.again || decide (x.st = .doorbellAhead) }))

/-- CQ_DOORBELL (R280, R290): HEAD is taken; completion slots are freed. -/
def execCqDoorbell (f : FnId) (r : RingId) (v : BitVec 64) (s : State) : Res :=
  .next (s.barAccess f (fun s => s.setRing f r { s.ring f r with cqHead := bits v.toNat 15 0 }))

/-! ### Enable and drain (R279, R281, R282) -/

/-- The configuration of a ring is in range: sizes, vector, and the places of rings in HDM (R281). -/
def State.ringConfigOk (s : State) (f : Nat) (x : Ring) : Bool :=
  let carve := s.coh.carveBytes
  let sq := x.sqSlots * 64
  let cq := x.cqSlots * 32
  decide (6 ≤ x.sqLog.toNat) && decide (x.sqLog.toNat ≤ 16) && decide (6 ≤ x.cqLog.toNat) && decide (x.cqLog.toNat ≤ 16) &&
    decide (x.vec.toNat < if f = 0 then 2048 else 64) &&
    (!x.sqHdm || decide (x.sqBase.toNat + sq ≤ carve)) &&
    (!x.cqHdm || (decide (x.cqBase.toNat + cq ≤ carve) && decide (x.cqBase.toNat + cq ≤ s.coh.cohGib.toNat * 2 ^ 30)))

/-- RING_ENABLE (R281, R431): refused with STOP_CAUSE 4, waiting for the translations of its pages, or ACTIVE from the first slot.
A ring that is enabled already is not changed. -/
def execRingEnable (f : FnId) (r : RingId) (s : State) : Res :=
  .next (s.barAccess f (fun s =>
    let x := s.ring f r
    if x.st ≠ .disabled then s.tdiRingWrite f r
    else if decide (s.boot.state = 3) || !s.ringConfigOk f x then s.setRing f r { x with stopCause := 4, enable := false }
    else
      let s := s.setRing f r { x with enable := true }
      match s.pairPages f r with
      | (some false, s) => s.setRing f r { x with stopCause := 4, enable := false }
      | (some true, s) =>
        s.setRing f r { x with st := .active, stopCause := 0, enable := true, sqHead := 0, nextSeq := 0, sqPhase := true,
                               tail := 0, cqHead := 0, cqNext := 0, cqPhase := true, reread := .none, pkts := [], held := [],
                               again := false }
      | (none, s) => s))

/-- Opcodes that run to completion when their ring drains (R282). -/
def runsOn (op : Nat) : Bool := [0x02, 0x03, 0x10, 0x11, 0x70].contains op

/-- The sequence whose outstanding GENERATE a packet is. -/
def State.genOf (s : State) (f r : Nat) (q : BitVec 16) : Option Nat :=
  (s.srv.seqs.find? (fun x => (x.2.generate.map (fun g => decide (g.f = f ∧ g.r = r ∧ g.q = q))).getD false)).map (·.1)

/-- The outstanding GENERATE of a sequence is to be cancelled at the next boundary (R258). -/
def State.markCancel (s : State) (slot : Nat) : State :=
  { s with srv := { s.srv with seqs := s.srv.seqs.map (fun x =>
      if x.1 = slot then (x.1, { x.2 with generate := x.2.generate.map (fun g => { g with cancel := true }) }) else x) } }

/-- The raw program of a packet. -/
def State.progOf (s : State) (f r : Nat) (q : BitVec 16) : Option Program :=
  s.srv.programs.find? (fun p => p.f = f && p.r = r && p.q = q)

/-- A raw program is ended as by CANCEL (R96): ABORTED when it is quiet. One that has not started ends at once, but for the result
buffer that PROGRAM_END writes (R309). -/
def State.cancelProg (s : State) (p : Program) : State :=
  if p.started then s.endProgram p .aborted none
  else if p.buf = 0 then
    let s := { s with srv := { s.srv with programs := s.srv.programs.filter (fun x => x ≠ p) } }
    s.finish p.f p.r p.q stAborted []
  else
    let cores := if p.cores.isEmpty then s.coresUp.map (fun g => { g := g, exited := false, code := 0, result := 0, calls := 0 : ProgCore })
      else p.cores
    { s with srv := { s.srv with programs := s.srv.programs.map (fun x => if x = p then { x with ending := .aborted, cores := cores } else x) } }

/-- One packet of a draining ring is ended as R282 gives. A GENERATE that a step serves ends at the next boundary, and a RUN_PROGRAM
as by CANCEL. -/
def State.drainPkt (s : State) (f r : Nat) (p : Pkt) : State :=
  if runsOn p.opcode then s
  else
    match s.genOf f r p.seq with
    | some slot => s.markCancel slot
    | none =>
      match s.progOf f r p.seq with
      | some g => s.cancelProg g
      | none => if p.phase = .running && decide (p.opcode ≠ 0x30) then s else s.finish f r p.seq stAborted []

/-- A ring begins to drain (R282). The packets announced on an ACTIVE ring are still read, to be ended; another ring reads no more. -/
def State.drainRing (s : State) (f r : Nat) : State :=
  let x := s.ring f r
  if x.st = .disabled then s.setRing f r { x with enable := false }
  else if x.st = .draining then s
  else
    let s := s.setRing f r { x with st := .draining, enable := false, reread := .none, again := false,
                                    tail := if x.st = .active then x.tail else x.sqHead }
    (x.pkts.filter (fun p => decide (p.phase ≠ .done))).foldl (fun s p => s.drainPkt f r p) s

/-- RING_DISABLE (R282): ENABLE = 0. -/
def execRingDisable (f : FnId) (r : RingId) (s : State) : Res :=
  .next (s.barAccess f (fun s => (s.tdiRingWrite f r).drainRing f r))

/-- RING_DRAIN_DONE (R282): every announced packet is read and every final completion is written. -/
def execRingDrainDone (f : FnId) (r : RingId) (s : State) : Res :=
  let x := s.ring f r
  if x.st = .draining ∧ x.sqHead = x.tail ∧ x.pkts = [] ∧ x.held = [] then .next (s.setRing f r { x with st := .disabled }) else .next s

/-- RESUME (R280, R286): a STOPPED ring is ACTIVE at the same head, and its slot is read again. -/
def execResume (f : FnId) (r : RingId) (s : State) : Res :=
  .next (s.barAccess f (fun s =>
    let s := s.tdiRingWrite f r
    let x := s.ring f r
    if x.st = .stopped then s.setRing f r { x with st := .active, stopCause := 0, reread := .none, again := true } else s))

/-! ### Reading a packet (R279, R284 to R288) -/

/-- What the device learns of submission slots: their bytes, none for a slot that holds a poisoned word; that it must wait;
or that a ring page has no usable translation. -/
inductive SlotRead where
  | data (bs : Option Bytes)
  | wait
  | failed
deriving DecidableEq, Repr

/-- A line of host memory is read for a ring: from the device cache that holds it, or by RdCurr, which allocates nothing (R361). -/
def State.currLine (s : State) (ring line : Nat) : Bool × State :=
  if !s.coh.wbi && s.coh.cacheEnable && s.coh.dcHolds line false then (true, { s with coh := s.coh.dcTouch line })
  else if s.coh.curr.contains (ring, line, true) then (true, s)
  else if s.coh.curr.contains (ring, line, false) || s.coh.d2h.any (fun p => p.1 = line) || !s.cacheSends then (false, s)
  else (false, { s with coh := { s.coh with curr := s.coh.curr ++ [(ring, line, false)] }, out := s.out ++ [.d2hRequest line .rdCurr] })

/-- The bytes of slot i of a submission ring, by RdCurr or from HDM, with the firmware indicator (R279, R361). -/
def State.slotBytes (s : State) (f r i : Nat) : SlotRead × State :=
  let x := s.ring f r
  let off := 64 * (i % x.sqSlots)
  let fetch (s : State) (k : Nat) : SlotRead × State :=
    if !isHostKey k && !s.allowed k true false 0 false then (.failed, s)
    else if !s.answers k then (.failed, s.report (event 15 (unitHub 3 0) k))
    else
      match if isHostKey k then s.currLine (64 * f + r) (k - 2 ^ 64) else s.linesReady k 64 false with
      | (false, s) => (.wait, s)
      | (true, s) => (.data (if s.mem.poisoned k 64 then none else some (s.mem.read k 64)), s)
  if x.sqHdm then fetch s (carvePa (x.sqBase.toNat + off))
  else
    match s.resolve (x.who f r) none 0 f noPasid (x.sqBase.toNat + off) true false with
    | (.failed, s) => (.failed, s)
    | (.wait, s) => (.wait, s)
    | (.io, s) =>
      match s.askIo (x.who f r) f (some noPasid) (x.sqBase.toNat + off) 64 with
      | (.data bs, s) => (.data (some bs), s)
      | (.wait, s) => (.wait, s)
      | (.failed, s) => (.data none, s)
    | (.ok hpa, s) => fetch s (s.hostTgt hpa).key

/-- n slots from slot i, joined. -/
def State.slotsBytes (s : State) (f r i n : Nat) : SlotRead × State :=
  (List.range n).foldl (fun a j =>
    match a.1 with
    | .data (some bs) =>
      match a.2.slotBytes f r (i + j) with
      | (.data (some b), s) => (.data (some (bs ++ b)), s)
      | y => y
    | _ => a) (.data (some []), s)

/-- LENGTH is valid and the CRC over the packet holds (R284). -/
def packetSound (bs : Bytes) : Bool :=
  decide (crc32c (putBytes bs 12 [0, 0, 0, 0]) = fieldLe bs 12 4)

/-- R293: LENGTHs, whether a context is required, PF only. -/
def opcodeRow (op : Nat) : Option (List Nat × Bool × Bool) :=
  match op with
  | 0x01 => some ([1], false, false)
  | 0x02 => some ([2], false, false)
  | 0x03 => some ([1], true, false)
  | 0x10 => some ([2], true, true)
  | 0x11 => some ([1], true, true)
  | 0x20 => some ([3], true, false)
  | 0x21 => some ([1], true, false)
  | 0x22 => some ([1, 3], true, false)
  | 0x23 => some ([1], true, false)
  | 0x24 => some ([1], true, false)
  | 0x25 => some ([1], true, false)
  | 0x26 => some ([1], true, false)
  | 0x27 => some ([1], true, false)
  | 0x30 => some ([1], true, false)
  | 0x40 => some ([1], true, false)
  | 0x41 => some ([1], true, false)
  | 0x42 => some ([1], true, false)
  | 0x43 => some ([1], true, false)
  | 0x50 => some ([1], true, false)
  | 0x60 => some ([1], true, false)
  | 0x70 => some ([1], true, true)
  | 0x71 => some ([1], true, false)
  | 0x7E => some ([1], true, true)
  | _ => none

/-- The parameter bits that an opcode uses: (first byte, bytes, mask of those bytes), from R295 to R318 and R458. Every other
bit from byte 16 on is reserved. -/
def opcodeFields (op : Nat) : List (Nat × Nat × Nat) :=
  let all (n : Nat) : Nat := 2 ^ (8 * n) - 1
  match op with
  | 0x01 => [(16, 8, all 8)]
  | 0x02 => [(16, 4, 0xFFFFF), (20, 1, 0x3F), (21, 1, 1), (24, 8, all 8), (32, 8, all 8), (40, 8, all 8), (48, 8, all 8),
             (56, 2, all 2), (58, 2, all 2), (60, 2, all 2), (62, 1, 3), (64, 4, all 4)]
  | 0x10 => [(16, 8, all 8), (24, 8, all 8), (64, 64, all 64)]
  | 0x11 => [(16, 1, all 1)]
  | 0x20 => [(16, 8, all 8), (24, 1, 3), (25, 1, 1), (28, 4, all 4), (64, 128, all 128)]
  | 0x21 => [(16, 4, all 4), (20, 4, all 4), (24, 8, all 8)]
  | 0x22 => [(16, 4, all 4), (20, 1, 1), (24, 8, all 8), (32, 4, all 4), (36, 4, all 4), (64, 128, all 128)]
  | 0x23 => [(16, 1, all 1), (20, 4, all 4), (24, 2, all 2)]
  | 0x24 => [(16, 4, all 4)]
  | 0x25 => [(16, 4, all 4), (24, 8, all 8), (32, 1, 3)]
  | 0x26 => [(16, 4, all 4), (20, 1, 1), (24, 8, all 8), (32, 8, all 8)]
  | 0x27 => [(16, 8, all 8), (24, 8, all 8), (32, 1, 3), (33, 1, 1), (36, 4, all 4)]
  | 0x30 => [(16, 8, all 8), (24, 8, all 8), (32, 8, all 8), (40, 8, all 8), (48, 8, all 8)]
  | 0x40 => [(16, 1, all 1), (17, 1, all 1), (18, 1, all 1), (24, 8, all 8), (32, 8, all 8)]
  | 0x41 => [(16, 1, all 1), (17, 1, 3), (24, 8, all 8), (32, 8, all 8)]
  | 0x42 => [(16, 1, 7), (24, 8, all 8), (32, 8, all 8)]
  | 0x43 => [(16, 1, all 1)]
  | 0x50 => [(16, 1, all 1), (20, 4, all 4), (24, 4, all 4)]
  | 0x60 => [(16, 1, all 1), (20, 4, all 4), (24, 8, all 8), (32, 2, all 2)]
  | 0x70 => [(16, 1, all 1), (17, 1, all 1), (18, 1, all 1), (20, 2, 0xFFF)]
  | 0x71 => [(16, 1, all 1), (24, 8, all 8), (32, 8, all 8)]
  | 0x7E => [(16, 1, all 1), (24, 16, all 16)]
  | _ => []

/-- No reserved bit of a packet is set (R286). -/
def reservedOk (bs : Bytes) : Bool :=
  let fields := opcodeFields (fieldLe bs 0 1)
  bits (fieldLe bs 1 1) 7 6 = 0 &&
    (List.range (bs.length - 16)).all (fun j =>
      let i := 16 + j
      let used := fields.foldl (fun m x => if x.1 ≤ i ∧ i < x.1 + x.2.1 then m ||| bits x.2.2 (8 * (i - x.1) + 7) (8 * (i - x.1)) else m) 0
      (bs.getD i 0).toNat ||| used = used)

/-- The granule and page sizes that packet fields are multiples of. -/
def mib2 : Nat := 2 ^ 21

/-- The fields of a packet lie in their ranges (R286, R295 to R318). Fields that the opcode's own statuses judge are judged
there. -/
def State.fieldsOk (s : State) (p : Pkt) : Bool :=
  let sp (i : Nat) : Nat := space (p.field i 8)
  let ptr01 (i al : Nat) : Bool := decide (sp i ≤ 1) && decide (p.field i 8 % al = 0)
  match p.opcode with
  | 0x01 => decide (p.field 16 8 % 4096 = 0)
  | 0x02 =>
    let ab := p.field 24 8
    let ho := p.field 32 8
    let hb := p.field 40 8
    let rs := p.field 56 2
    let join := bit (p.byte 21) 0
    decide (ab % mib2 = 0) && decide (ab ≤ 2 ^ 39) && decide (ho % mib2 = 0) && decide (hb % mib2 = 0) &&
      decide (ho + hb ≤ s.coh.carveBytes) && decide (p.field 58 2 ≤ p.field 60 2) && decide (Nat.land rs (rs - 1) = 0) &&
      (decide (p.field 48 8 = 0) || decide (rs ≠ 0)) &&
      (if join then decide (p.field 58 2 = 0 ∧ p.field 60 2 = 0 ∧ p.byte 62 = 0) else decide (p.field 64 4 = 0))
  | 0x10 => ptr01 16 1
  | 0x11 => decide (p.byte 16 ≤ 1)
  | 0x20 => bit (p.byte 25) 0 || decide (p.field 28 4 = 0)
  | 0x21 => decide (1 ≤ p.field 20 4) && decide (p.field 20 4 ≤ 2 ^ 20) && ptr01 24 4
  | 0x22 => ptr01 24 8 && decide (p.bytes.length = if bit (p.byte 20) 0 then 192 else 64)
  | 0x23 => decide (p.byte 16 ≤ 1)
  | 0x26 => ptr01 24 64
  | 0x27 => decide (sp 16 ≤ 1) && (bit (p.byte 33) 0 || decide (p.field 36 4 = 0))
  | 0x30 => [2, 3, 4].contains (sp 16)
  | 0x40 =>
    decide (p.byte 16 ≤ 2) && decide (p.byte 17 ≤ 1) && decide (p.byte 18 ≤ 1) &&
      (decide (p.byte 16 = 2) || decide (sp 24 = 0))
  | 0x41 => decide (p.byte 16 ≤ 2) && decide (p.field 24 8 % 4096 = 0) && decide (p.field 32 8 % 4096 = 0)
  | 0x43 => decide (p.byte 16 ≤ 1)
  | 0x50 => decide (p.byte 16 ≤ 2)
  | 0x60 => decide (p.byte 16 ≤ 1) && (decide (p.byte 16 = 1) || decide (sp 24 ≤ 1))
  | 0x70 => decide (p.byte 16 ≤ 5) && (decide (p.byte 16 ≠ 3) || decide (p.byte 17 ≤ 1)) &&
      (decide (p.byte 16 ≠ 1) || decide (p.byte 18 ≤ 1))
  | 0x71 => decide (p.byte 16 ≤ 5) && decide (sp 24 ≤ 1)
  | 0x7E => decide (p.byte 16 ≤ 1) && (decide (p.byte 16 = 0) || ptr01 24 64)
  | _ => true

/-- A required context handle names a context attached on the ring's own function with its generation (R288). -/
def State.handleOk (s : State) (f : Nat) (p : Pkt) : Bool :=
  let c := s.ctx p.ctx
  c.valid && decide (c.func = f) && decide (mapGet 0 s.ctxGens p.ctx = bits p.handle 31 12)

/-- The outcome of the checks of R286 that advance the head: none where the opcode is carried out. -/
def State.judge (s : State) (f : Nat) (p : Pkt) : Option Nat :=
  match opcodeRow p.opcode with
  | none => some stUnsupported
  | some (lens, need, pf) =>
    if p.byte 3 ≠ 1 then some stUnsupported
    else if !lens.contains (p.byte 2) || !reservedOk p.bytes || !s.fieldsOk p || (!need && decide (p.handle ≠ 0)) then some stBad
    else if (need && !s.handleOk f p) || (pf && decide (f ≠ 0)) then some stDenied
    else if need && (s.ctx p.ctx).draining then some stAborted
    else if s.port.removeRequest && !s.port.removeReady then some stAborted
    else none

/-- The head advances over a packet of n slots (R286). -/
def Ring.advance (x : Ring) (n : Nat) : Ring :=
  let h := x.sqHead + n
  { x with sqHead := h % x.sqSlots, sqPhase := if x.sqSlots ≤ h then !x.sqPhase else x.sqPhase, nextSeq := x.nextSeq + 1,
           reread := .none, again := false }

/-- What was read for a ring is forgotten; its next packet waits for the pages that the ring still awaits (R279). -/
def State.passWaits (s : State) (f r : Nat) (next : Waiter) : State :=
  let who := (s.ring f r).who f r
  let s := (s.dropIo who)
  { s with coh := s.coh.dropCurr f r,
           xlt := { s.xlt with waits := s.xlt.waits.map (fun w => if w.who = who then { w with who := next } else w) } }

/-- A packet whose PHASE, LENGTH and CRC hold is judged (R286). One that a draining ring announced ends as R282 gives. -/
def State.accept (s : State) (f r : Nat) (bs : Bytes) : State :=
  let x := s.ring f r
  let p0 : Pkt := { seq := BitVec.ofNat 16 (fieldLe bs 4 4 / 2 ^ 16), bytes := bs, head := x.sqHead, phase := .done, order := s.srv.pktOrder, progress := 0 }
  if p0.seq ≠ x.nextSeq then
    (((s.passWaits f r (x.who f r)).stopRing f r 2)).produce f r { p0.completion stBad true [] with owed := false }
  else
    let x' := x.advance (fieldLe bs 2 1)
    let s := s.passWaits f r (x'.who f r)
    let p := { p0 with head := x'.sqHead }
    let s := { s with srv := { s.srv with pktOrder := s.srv.pktOrder + 1 } }
    match s.judge f p with
    | some st =>
      let s := s.setRing f r { x' with pkts := x.pkts ++ [p] }
      let c := s.ctx p.ctx
      let s := if st = stAborted ∧ c.draining then s.setCtx p.ctx { c with aborted := c.aborted + 1 } else s
      s.produce f r (p.completion st true [])
    | none =>
      let p := { p with phase := .read }
      let s := s.setRing f r { x' with pkts := x.pkts ++ [p] }
      if x.st = .draining then s.drainPkt f r p else s

/-- What reading a packet at the head of its ring finds. -/
inductive HeadRead where
  | wait
  | failed
  | stale
  | torn (first : Bytes)
  | sound (bs : Bytes)
deriving DecidableEq, Repr

/-- The packet at the head is read (R286, R292): its first slot, then the slots of its LENGTH. -/
def State.readHead (s : State) (f r : Nat) (judgePhase : Bool) : HeadRead × State :=
  let x := s.ring f r
  match s.slotBytes f r x.sqHead with
  | (.wait, s) => (.wait, s)
  | (.failed, s) => (.failed, s)
  | (.data none, s) => (.torn [], s)
  | (.data (some b), s) =>
    if judgePhase && decide (bit (fieldLe b 1 1) 0 ≠ x.sqPhase) then (.stale, s)
    else
      let n := fieldLe b 2 1
      if n = 0 ∨ 8 < n then (.torn b, s)
      else
        match s.slotsBytes f r x.sqHead n with
        | (.wait, s) => (.wait, s)
        | (.failed, s) => (.failed, s)
        | (.data none, s) => (.torn b, s)
        | (.data (some bs), s) => (if packetSound bs then .sound bs else .torn b, s)

/-- The ring is read now: ACTIVE, or draining what was announced on it (R282); a packet is announced or the slot is to be read again
(R291), and its function may issue requests (R286, R338, R339, R344). -/
def State.ringReads (s : State) (f r : Nat) : Bool :=
  let x := s.ring f r
  (decide (x.st = .active) || decide (x.st = .draining)) && (x.again || decide (x.sqHead ≠ x.tail)) && s.sends f && !(s.fn f).barred

/-- The state without the finished reads of the ring, so that a re-read reads memory again. -/
def State.reread (s : State) (f r : Nat) : State :=
  let s := s.dropIo ((s.ring f r).who f r)
  { s with coh := s.coh.dropCurr f r }

/-- A ring that is read now has not had its turn, and it is not the one given (R287). A ring between re-reads takes no turn. -/
def State.turnDue (s : State) (i : Nat) : Bool :=
  s.rings.any (fun x => decide (x.1 ≠ i) && !s.srv.turned.contains x.1 && decide (x.2.reread = .none) && s.ringReads (x.1 / 64) (x.1 % 64))

/-- Ring i has its turn in the rotation; when every ring has had one, a new round begins (R287). An attempt that must wait is a turn
(DESIGN CHOICE, log entry 44). -/
def State.takeTurn (s : State) (i : Nat) : State :=
  { s with srv := { s.srv with turned := if s.turnDue i then setAdd s.srv.turned i else if s.srv.turned.contains i then [i] else [] } }

/-- PACKET_READ (R286, R287): the slot at SQ_HEAD is read and the packet judged; a stale phase or a torn packet is re-read. A ring
that had its turn lets the others have theirs first. -/
def execPacketRead (f : FnId) (r : RingId) (s : State) : Res :=
  let x := s.ring f r
  let i := 64 * f.val + r.val
  if !s.ringReads f r || decide (x.reread ≠ .none) || (s.srv.turned.contains i && s.turnDue i) then .next s
  else
    let s := s.takeTurn i
    match s.readHead f r true with
    | (.wait, s) => .next s
    | (.failed, s) => .next (s.stopRing f r 3)
    | (.stale, s) => .next ((s.reread f r).setRing f r { s.ring f r with reread := .phase 0 })
    | (.torn _, s) => .next ((s.reread f r).setRing f r { s.ring f r with reread := .torn 0 })
    | (.sound bs, s) => .next (s.accept f r bs)

/-- A re-read is counted in REREADS, saturating (R280). -/
def Ring.countReread (x : Ring) : Ring := { x with rereads := BitVec.ofNat 32 (satAdd 0xFFFF_FFFF x.rereads.toNat 1) }

/-- The ring is parked in DOORBELL_AHEAD (R291). On a draining ring nothing more is read (log entry 49). -/
def Ring.park (x : Ring) : Ring :=
  if x.st = .draining then x.stop 0
  else { x with reread := .none, again := false, st := .doorbellAhead, dbAhead := BitVec.ofNat 32 (satAdd 0xFFFF_FFFF x.dbAhead.toNat 1) }

/-- PHASE_REREAD (R291): the eighth miss parks the ring in DOORBELL_AHEAD. -/
def execPhaseReread (f : FnId) (r : RingId) (s : State) : Res :=
  match (s.ring f r).reread with
  | .phase n =>
    if !s.ringReads f r then .next s
    else
      match s.readHead f r true with
      | (.wait, s) => .next s
      | (.failed, s) => .next (s.stopRing f r 3)
      | (.stale, s) =>
        let x := (s.ring f r).countReread
        if 7 ≤ n then
          .next ((s.reread f r).setRing f r x.park)
        else .next ((s.reread f r).setRing f r { x with reread := .phase (n + 1) })
      | (.torn _, s) => .next ((s.reread f r).setRing f r { (s.ring f r).countReread with reread := .torn 0 })
      | (.sound bs, s) => .next ((s.setRing f r (s.ring f r).countReread).accept f r bs)
  | _ => .next s

/-- The completion of an unreadable packet (R292): TAG as read, SEQ NEXT_SEQ. -/
def tornCompletion (x : Ring) (first : Bytes) : Completion :=
  { tag := BitVec.ofNat 16 (fieldLe first 4 2), status := BitVec.ofNat 8 stTorn, final := true, seq := x.nextSeq,
    head := x.sqHead, result := List.replicate 16 0, irq := bit (fieldLe first 1 1) 4, owed := false }

/-- TORN_REREAD (R292): the eighth failure writes TORN and stops the ring with cause 1. -/
def execTornReread (f : FnId) (r : RingId) (s : State) : Res :=
  match (s.ring f r).reread with
  | .torn n =>
    if !s.ringReads f r then .next s
    else
      match s.readHead f r false with
      | (.wait, s) => .next s
      | (.failed, s) => .next (s.stopRing f r 3)
      | (.stale, s) => .next s
      | (.torn b, s) =>
        let x := (s.ring f r).countReread
        if 7 ≤ n then
          let s := (s.reread f r).setRing f r (x.stop 1)
          .next (s.produce f r (tornCompletion x b))
        else .next ((s.reread f r).setRing f r { x with reread := .torn (n + 1) })
      | (.sound bs, s) => .next ((s.setRing f r (s.ring f r).countReread).accept f r bs)
  | _ => .next s

/-! ### Writing completions (R289, R290, R336, R337) -/

/-- The 32 bytes of a completion record with the ring's phase and a duration (R289). -/
def Completion.record (c : Completion) (phase : Bool) (ns : Nat) : Bytes :=
  natLe c.tag.toNat 2 ++ natLe c.status.toNat 1 ++ natLe (b2n phase + 2 * b2n c.final) 1 ++ natLe c.seq.toNat 2 ++
    natLe c.head 2 ++ natLe (min ns (2 ^ 64 - 1)) 8 ++ sliceBytes c.result 0 16

/-- The next completion with the PARTIALs of its packet that are held with it merged, and what is still held (R290). -/
def nextCompletion : List Completion → Option (Completion × List Completion)
  | [] => none
  | c :: l =>
    if c.final then some (c, l)
    else
      let same (x : Completion) : Bool := !x.final && decide (x.seq = c.seq)
      some ((l.filter same).getLast?.getD c, l.filter (fun x => !same x))

/-- COMPLETION_WRITE (R289, R290): the next held record is written when the ring has room; DURATION_NS is cycles × 0.625 ns.
With IRQ the ring's vector, or for the PF without MSI-X the RING status bit, follows (R337). -/
def execCompletionWrite (f : FnId) (r : RingId) (cycles : Nat) (s : State) : Res :=
  let x := s.ring f r
  match nextCompletion x.held with
  | none => .next s
  | some (c, rest) =>
    if x.st = .disabled || decide ((x.cqNext + 1) % x.cqSlots = x.cqHead) || !s.sends f then .next s
    else
      let off := 32 * x.cqNext
      let bs := c.record x.cqPhase (cycles * 5 / 8)
      let put (s : State) (w : Planned) : State :=
        let s := s.carry f none w
        let s := s.dropWaits (pktW f r c.seq)
        let y := s.ring f r
        let n := x.cqNext + 1
        let y := { y with held := rest, cqNext := n % x.cqSlots, cqPhase := if x.cqSlots ≤ n then !x.cqPhase else x.cqPhase,
                          pkts := if c.final && c.owed then y.pkts.filter (fun p => !(p.seq = c.seq && decide (p.phase = .done))) else y.pkts }
        let s := s.setRing f r y
        if !c.irq then s
        else if (f.val = 0) && !(s.fn 0).msixEnable then s.hostInt 0
        else s.msix f x.vec.toNat
      if x.cqHdm then
        let k := carvePa (x.cqBase.toNat + off)
        match s.linesReady k 32 true with
        | (false, s) => .next s
        | (true, s) => .next (put s (0, k, bs))
      else
        match s.resolve (pktW f r c.seq) none 0 f noPasid (x.cqBase.toNat + off) false true with
        | (.wait, s) => .next s
        | (.failed, s) => .next (s.stopRing f r 3)
        | (.io, s) => .next (put s (2, noPasid * 2 ^ 64 + (x.cqBase.toNat + off), bs))
        | (.ok hpa, s) => .next (put s (1, (s.hostTgt hpa).key, bs))

/-- MSIX_UNMASK (R336): a vector, or the whole function, is unmasked; what is pending is sent. -/
def execMsixUnmask (f : FnId) (v : Option Nat) (s : State) : Res :=
  let x := s.fn f
  let x := match v with
    | some i =>
      let lim := if f.val = 0 then 2048 else 64
      if i < lim then { x with msix := mapPut x.msix i { mapGet MsixEntry.reset x.msix i with masked := false } } else x
    | none => { x with msixMask := false }
  .next ((s.setFn f x).flushMsix f)

end Sys2Proof.Machine
end

