-- ==== Sys2Proof/Machine/Sampler.lean ====
section
/-! DEFINITION. The sampler: parameters (R265, R266), the sampling procedure (R268), the random source (R271 to R273),
log-probabilities (R270) and draft verification (R276). -/

namespace Sys2Proof.Machine

/-! ### Sampling parameters (R265) -/

def pTemp (p : Bytes) : FVal := f32 (fieldLe p 0 4)
def pTopP (p : Bytes) : FVal := f32 (fieldLe p 4 4)
def pMinP (p : Bytes) : FVal := f32 (fieldLe p 8 4)
def pRep (p : Bytes) : FVal := f32 (fieldLe p 12 4)
def pPresence (p : Bytes) : FVal := f32 (fieldLe p 16 4)
def pTopK (p : Bytes) : Nat := fieldLe p 20 2
def pWindow (p : Bytes) : Nat := fieldLe p 22 2
def pSeedValid (p : Bytes) : Bool := bit (fieldLe p 24 1) 0
def pLogprob (p : Bytes) : Bool := bit (fieldLe p 24 1) 1
def pMaskEn (p : Bytes) : Bool := bit (fieldLe p 24 1) 2
def pDraftFixed (p : Bytes) : Bool := bit (fieldLe p 24 1) 3
def pDraftLen (p : Bytes) : Nat := bits (fieldLe p 25 1) 3 0
def pBiasCount (p : Bytes) : Nat := fieldLe p 26 1
def pStopCount (p : Bytes) : Nat := fieldLe p 27 1
def pMaxNew (p : Bytes) : Nat := fieldLe p 28 4
def pSeed (p : Bytes) : Bytes := sliceBytes p 32 8
def pMaskPtr (p : Bytes) : Nat := fieldLe p 40 8
def pBiasPtr (p : Bytes) : Nat := fieldLe p 48 8
def pStop (p : Bytes) : List Nat := (List.range (pStopCount p)).map (fun i => fieldLe p (64 + 4 * i) 4)

/-- FP32 1 and 0. -/
def fOne : FVal := f32 0x3F80_0000
def fZero : FVal := f32 0

/-- a < b as numbers, zeros equal. -/
def fltN (a b : FVal) : Bool := flt a b && !(isZero a && isZero b)

/-- A parameter block lies in the ranges of R265 and R266, for a vocabulary, with or without a draft image. Decimal bounds are
the nearest FP32 values: 0x3C23_D70A is 0.01. -/
def paramsOk (p : Bytes) (vocab : Nat) (draft : Bool) : Bool :=
  let between (lo hi : Nat) (v : FVal) : Bool := fle (f32 lo) v && fle v (f32 hi)
  let one : Nat := 0x3F80_0000
  let ptrOk (v al : Nat) (on : Bool) : Bool := if on then decide (space v ≤ 1) && decide (v % al = 0) else decide (v = 0)
  (isZero (pTemp p) || between 0x3C23_D70A 0x42C8_0000 (pTemp p)) &&
    fltN fZero (pTopP p) && fle (pTopP p) (f32 one) &&
    fle fZero (pMinP p) && fltN (pMinP p) (f32 one) &&
    between one 0x4120_0000 (pRep p) && between 0 0x4120_0000 (pPresence p) &&
    decide (pTopK p ≤ 1024) && decide (pWindow p ≤ 8192) && decide (bits (fieldLe p 24 1) 7 4 = 0) &&
    decide (pDraftLen p ≤ 8) && decide (bits (fieldLe p 25 1) 7 4 = 0) && decide (pBiasCount p ≤ 64) &&
    decide (pStopCount p ≤ 8) && decide (1 ≤ pMaxNew p) && decide (pMaxNew p ≤ 2 ^ 20) &&
    ptrOk (pMaskPtr p) 64 (pMaskEn p) && ptrOk (pBiasPtr p) 8 (decide (pBiasCount p ≠ 0)) &&
    allZero (sliceBytes p 56 8) && allZero (sliceBytes p (64 + 4 * pStopCount p) (32 - 4 * pStopCount p)) &&
    allZero (sliceBytes p 96 32) && (pStop p).all (fun t => decide (t < vocab)) && (decide (pDraftLen p = 0) || draft)

/-- The entries of a bias list (R267). -/
def biasOf (bs : Bytes) : List (Nat × BitVec 32) :=
  (List.range (bs.length / 8)).map (fun i => (fieldLe bs (8 * i) 4, BitVec.ofNat 32 (fieldLe bs (8 * i + 4) 4)))

/-- A bias list is well formed (R266): reserved bits 0, tokens below VOCAB, values finite. -/
def biasOk (l : List (Nat × BitVec 32)) (vocab : Nat) : Bool :=
  l.all (fun e => decide (e.1 < 2 ^ 18) && decide (e.1 < vocab) &&
    !isNan (f32 e.2.toNat) && !isInf (f32 e.2.toNat))

/-! ### The sampling procedure (R268) -/

/-- The FP32 value nearest to a value. -/
def r32 (v : FVal) : FVal := f32 (rne32 v)

/-- The element of a list changed by f. -/
def updAt (l : List FVal) (i : Nat) (f : FVal → FVal) : List FVal := l.modify i f

/-- Token t is allowed by a mask bitmap (R267); an empty bitmap stands for MASK_EN 0. -/
def maskAllows (mask : Bytes) (t : Nat) : Bool := mask.isEmpty || bit (mask.getD (t / 8) 0).toNat (t % 8)

/-- The logits after bias, penalties and mask. win are the window tokens of the position (R269). -/
def adjustLogits (p : Bytes) (bias : List (Nat × BitVec 32)) (mask : Bytes) (win : List Nat) (l : List FVal) : List FVal :=
  let l := bias.foldl (fun l b => updAt l b.1 (fun v => r32 (fadd v (f32 b.2.toNat)))) l
  let rep := pRep p
  let l := win.eraseDups.foldl (fun l t => updAt l t (fun v =>
    let v := if fle rep fOne && fle fOne rep then v else if fltN fZero v then r32 (fdiv v rep) else r32 (fmul v rep)
    r32 (fsub v (pPresence p)))) l
  l.zipIdx.map (fun x => if maskAllows mask x.2 then x.1 else .inf true)

/-- The lowest token ID with the greatest logit. -/
def argmaxF (l : List FVal) : Nat :=
  (l.zipIdx.foldl (fun (b : FVal × Nat) x => if fltN b.1 x.1 then x else b) (l.headD (.inf true), 0)).2

/-- c = rne32(c + e[t]) over a list, from +0. -/
def sumF (es : List FVal) : FVal := es.foldl (fun c e => r32 (fadd c e)) fZero

/-- The distribution that R268 builds up to its keep set: keep in ascending ID with each e, z of every token, zmax, and whether
it is the point mass of the argmax rule. -/
structure SDist where
  keep : List (Nat × FVal)
  z : List FVal
  zmax : FVal
  point : Bool
deriving DecidableEq, Repr

/-- The prefix of a list up to the first element at which the running sum reaches lim (TOP_P). -/
def walkTo (lim : FVal) : FVal → List (Nat × FVal) → List (Nat × FVal)
  | _, [] => []
  | c, x :: l =>
    let c := r32 (fadd c x.2)
    if fle lim c then [x] else x :: walkTo lim c l

/-- R268 from the division by temp to the keep set. -/
def buildDist (p : Bytes) (temp : FVal) (l : List FVal) : SDist :=
  let z := l.map (fun v => r32 (fmul (r32 (fdiv v temp)) log2e))
  let keep := (z.zipIdx.filter (fun x => x.1 ≠ .inf true)).map (fun x => (x.2, x.1))
  if keep.isEmpty then { keep := [(argmaxF l, fOne)], z := z, zmax := .inf true, point := true }
  else
    let byId (k : List (Nat × FVal)) := sortBy (fun (a b : Nat × FVal) => decide (a.1 < b.1)) k
    let desc (k : List (Nat × FVal)) := sortBy (fun (a b : Nat × FVal) => fltN b.2 a.2) k
    let keep := if pTopK p = 0 then keep else byId ((desc keep).take (pTopK p))
    let zmax := keep.foldl (fun m x => if fltN m x.2 then x.2 else m) (.inf true)
    let e (v : FVal) : FVal :=
      if zmax = .inf false then (if v = .inf false then fOne else fZero) else f32 (sfuExp2 (r32 (fsub v zmax)))
    let keep := keep.map (fun x => (x.1, e x.2))
    let keep := if isZero (pMinP p) then keep else keep.filter (fun x => fle (pMinP p) x.2)
    let keep := if fltN (pTopP p) fOne then
        let lim := r32 (fmul (pTopP p) (sumF (keep.map (·.2))))
        byId (walkTo lim fZero (desc keep))
      else keep
    { keep := keep, z := z, zmax := zmax, point := false }

/-- draw_from of R268. -/
def drawFrom (keep : List (Nat × FVal)) (u : FVal) : Nat :=
  let target := r32 (fmul u (sumF (keep.map (·.2))))
  let rec go (c : FVal) : List (Nat × FVal) → Option Nat
    | [] => none
    | x :: l =>
      let c := r32 (fadd c x.2)
      if fltN target c then some x.1 else go c l
  match go fZero keep with
  | some t => t
  | none => ((keep.filter (fun x => fltN fZero x.2)).getLast?.map (·.1)).getD 0

/-- The draw u(pos, domain, index) of R271. -/
def drawU (key seqId : Bytes) (pos domain index : Nat) : FVal :=
  let c := aesBlock key (seqId ++ natLe pos 4 ++ natLe index 2 ++ natLe domain 1 ++ [0])
  .fin false (2 * (fieldLe c 0 3 % 2 ^ 23) + 1) (-24)

/-- LOGPROB of token t under a distribution (R270). -/
def logprobOf (d : SDist) (t : Nat) : BitVec 32 :=
  if d.point then 0
  else
    let s := sumF (d.keep.map (·.2))
    BitVec.ofNat 32 (rne32 (fsub (r32 (fsub (d.z.getD t (.inf true)) d.zmax)) (f32 (sfuLog2 s))))

/-- What a sequence gives the sampler for one position: its parameters, bias list, mask, key, SEQ_ID and window tokens. -/
structure SampleIn where
  params : Bytes
  bias : List (Nat × BitVec 32)
  mask : Bytes
  key : Bytes
  seqId : Bytes
  win : List Nat
deriving DecidableEq, Repr

/-- The adjusted logits of a row: none where the mask or the logits leave no token. -/
def SampleIn.row (x : SampleIn) (row : Words32) : Option (List FVal) :=
  let l := adjustLogits x.params x.bias x.mask x.win (row.map (fun w => f32 w.toNat))
  if l.all (fun v => v = .inf true) then none else some l

/-- A row holds a NaN logit (R257). -/
def rowNan (row : Words32) : Bool := row.any (fun w => isNan (f32 w.toNat))

/-- LOGPROB where it is asked for; own is the distribution of the draw that chose the token, if it was drawn over a keep set of
its own, else the distribution at TEMPERATURE 1 counts (R270). -/
def SampleIn.logprob (x : SampleIn) (l : List FVal) (own : Option SDist) (t : Nat) : BitVec 32 :=
  if pLogprob x.params then
    match own with
    | some d => if d.point then logprobOf (buildDist x.params fOne l) t else logprobOf d t
    | none => logprobOf (buildDist x.params fOne l) t
  else 0

/-- The token of position pos with main draw index 1 (R268, R273): none where no token is allowed. -/
def SampleIn.token (x : SampleIn) (row : Words32) (pos : Nat) : Option Emit :=
  match x.row row with
  | none => none
  | some l =>
    if isZero (pTemp x.params) then
      let t := argmaxF l
      some { token := t, draft := false, logprob := x.logprob l none t }
    else
      let d := buildDist x.params (pTemp x.params) l
      let t := if d.point then argmaxF l else drawFrom d.keep (drawU x.key x.seqId pos 0 1)
      some { token := t, draft := false, logprob := x.logprob l (some d) t }

/-- A draft proposal (R275): the token with domain 1, and its final keep set; none where the mask is empty. -/
def SampleIn.propose (x : SampleIn) (row : Words32) (pos : Nat) : Option (Nat × Dist) :=
  match x.row row with
  | none => none
  | some l =>
    if isZero (pTemp x.params) then some (argmaxF l, [])
    else
      let d := buildDist x.params (pTemp x.params) l
      let t := if d.point then argmaxF l else drawFrom d.keep (drawU x.key x.seqId pos 1 1)
      some (t, d.keep.map (fun e => (e.1, BitVec.ofNat 32 (rne32 e.2))))

/-- rne32(e(t) / S) within a keep set, 0 outside it (R276). -/
def probIn (keep : List (Nat × FVal)) (t : Nat) : FVal :=
  match keep.find? (fun x => x.1 = t) with
  | some x => r32 (fdiv x.2 (sumF (keep.map (·.2))))
  | none => fZero

/-- The residual r of R276 over every token of either keep set; tokens outside both have r = +0. -/
def residual (p q : List (Nat × FVal)) (vocab : Nat) : List (Nat × FVal) :=
  (List.range vocab).map (fun t => (t, let v := r32 (fsub (probIn p t) (probIn q t)); if fltN fZero v then v else fZero))

/-- What verification of one position says: the draft token is accepted, another token ends the step, or no token is
allowed. -/
inductive Verdict where
  | accept (e : Emit)
  | stop (e : Emit)
  | empty
deriving DecidableEq, Repr

/-- R276 at one position with draft token d and its proposal distribution q. -/
def SampleIn.verify (x : SampleIn) (row : Words32) (pos d : Nat) (q : Dist) : Verdict :=
  match x.row row with
  | none => .empty
  | some l =>
    let lp1 (t : Nat) : BitVec 32 := x.logprob l none t
    if isZero (pTemp x.params) then
      let t := argmaxF l
      if t = d then .accept { token := d, draft := true, logprob := lp1 d }
      else .stop { token := t, draft := false, logprob := lp1 t }
    else
      let p := buildDist x.params (pTemp x.params) l
      let qk := q.map (fun e => (e.1, f32 e.2.toNat))
      if fle (r32 (fmul (drawU x.key x.seqId pos 0 0) (probIn qk d))) (probIn p.keep d) then
        .accept { token := d, draft := true, logprob := lp1 d }
      else
        let r := residual p.keep qk l.length
        let u := drawU x.key x.seqId pos 0 1
        if fltN fZero (sumF (r.map (·.2))) then
          let t := drawFrom r u
          .stop { token := t, draft := false, logprob := lp1 t }
        else
          let t := drawFrom p.keep u
          .stop { token := t, draft := false, logprob := x.logprob l (some p) t }

/-- Verification of a step's drafts and, if all are accepted, the bonus token (R276). mk gives the sampler's input with the
draft tokens accepted so far in the window. True: the emission ended for want of an allowed token. -/
def verifyAll (mk : List Nat → SampleIn) : Nat → List (Nat × Dist) → List Words32 → List Nat → List Emit × Bool
  | _, _, [], _ => ([], false)
  | pos, [], row :: _, acc =>
    match (mk acc).token row pos with
    | some e => ([e], false)
    | none => ([], true)
  | pos, (d, q) :: ds, row :: rows, acc =>
    match (mk acc).verify row pos d q with
    | .empty => ([], true)
    | .stop e => ([e], false)
    | .accept e =>
      let r := verifyAll mk (pos + 1) ds rows (acc ++ [d])
      (e :: r.1, r.2)

end Sys2Proof.Machine
end

