-- ==== Sys2Proof/Machine/Sealed.lean ====
section
/-! DEFINITION. Sealed frames (R381 to R386): traffic keys, the replay window, opening an inbound frame and making an
outbound one. -/

namespace Sys2Proof.Machine

/-! ### Keys of an installation (R381) -/

def SessionKey.h2d (k : SessionKey) : Bytes := hkdf384 k.inst k.key (ascii "AZG-H2D-1") 32
def SessionKey.d2h (k : SessionKey) : Bytes := hkdf384 k.inst k.key (ascii "AZG-D2H-1") 32
def SessionKey.snap (k : SessionKey) : Bytes := hkdf384 (List.replicate 48 0) k.key (ascii "AZG-SNAP-1") 32

/-! ### The replay window (R384) -/

/-- A COUNTER is fresh: not 0, and above HIGH or in the window and not seen. -/
def SessionKey.fresh (k : SessionKey) (c : Nat) : Bool :=
  decide (c ≠ 0) && (decide (k.high < c) || (decide (k.high < c + 64) && !k.seen.contains c))

/-- A fresh COUNTER is marked seen. -/
def SessionKey.mark (k : SessionKey) (c : Nat) : SessionKey :=
  let h := max k.high c
  { k with high := h, seen := (setAdd k.seen c).filter (fun x => decide (h < x + 64)) }

/-! ### Frames (R382, R383, R385) -/

/-- Bytes of a frame around len bytes of plaintext. -/
def sealedLen (len : Nat) : Nat := 48 + len + 16

/-- A frame header (R382). -/
def frameHeader (kind : Nat) (nonce : Bytes) (len : Nat) (seqId : Bytes) (first : Nat) : Bytes :=
  natLe 0x4653_5A41 4 ++ natLe kind 1 ++ [1, 0, 0] ++ sliceBytes nonce 0 12 ++ natLe len 4 ++ sliceBytes seqId 0 8 ++
    natLe first 4 ++ List.replicate 12 0

/-- The NONCE of a frame of KIND 1 to 4 (R382). -/
def frameNonce (dir kind epoch counter : Nat) : Bytes := natLe dir 1 ++ natLe kind 1 ++ natLe epoch 2 ++ natLe counter 8

/-- An inbound frame that passes R383: its plaintext and its COUNTER. -/
def SessionKey.open (k : SessionKey) (kind len : Nat) (seqId : Bytes) (first : Nat) (bs : Bytes) : Option (Bytes × Nat) :=
  let counter := fieldLe bs 12 8
  let hdr := frameHeader kind (frameNonce 0 kind 0 counter) len seqId first
  if bs.take 48 = hdr ∧ k.fresh counter then
    (gcmOpen k.h2d (sliceBytes bs 8 12) hdr (sliceBytes bs 48 len) (sliceBytes bs (48 + len) 16)).map (·, counter)
  else none

/-- The KIND-4 frame of one commit, and the installation after it (R385, R386). -/
def SessionKey.emit (k : SessionKey) (seqId : Bytes) (first : Nat) (plain : Bytes) : Bytes × SessionKey :=
  let nonce := frameNonce 1 4 k.epoch k.counter
  let hdr := frameHeader 4 nonce plain.length seqId first
  (hdr ++ gcmSeal k.d2h nonce hdr plain, { k with counter := k.counter + 1 })

/-- A KIND-5 frame under K_SNAP with a random nonce (R387). -/
def SessionKey.sealSnap (k : SessionKey) (nonce seqId plain : Bytes) : Bytes :=
  let hdr := frameHeader 5 nonce plain.length seqId 0
  hdr ++ gcmSeal k.snap (sliceBytes nonce 0 12) hdr plain

/-- A KIND-5 frame that verifies under K_SNAP: its plaintext and SEQ_ID (R383). -/
def SessionKey.openSnap (k : SessionKey) (bs : Bytes) : Option (Bytes × Bytes) :=
  let nonce := sliceBytes bs 8 12
  let len := fieldLe bs 20 4
  let seqId := sliceBytes bs 24 8
  let hdr := frameHeader 5 nonce len seqId 0
  if bs.take 48 = hdr ∧ sealedLen len ≤ bs.length then
    (gcmOpen k.snap nonce hdr (sliceBytes bs 48 len) (sliceBytes bs (48 + len) 16)).map (·, seqId)
  else none

/-- The installed session key of a handle. -/
def State.session (s : State) (h : Nat) : Option SessionKey := mapFind s.sec.sessions h

/-- The state with an installation replaced. -/
def State.setSession (s : State) (h : Nat) (k : SessionKey) : State :=
  { s with sec := { s.sec with sessions := mapPut s.sec.sessions h k } }

/-! ### Buffers that may be sealed -/

/-- What reading a list buffer gives: its plaintext and the installation after it, that it must wait, or the status to end
with. -/
inductive ListRead where
  | data (bs : Bytes) (k : Option SessionKey)
  | wait
  | ended (status : Nat)
deriving DecidableEq, Repr

/-- A buffer of len plaintext bytes, in a frame of the given kind where k is an installation (R302, R267, R383). -/
def State.readList (s : State) (who : Waiter) (tag ptr len : Nat) (k : Option SessionKey) (kind : Nat) (seqId : Bytes)
    (first : Nat) : ListRead × State :=
  match k with
  | none =>
    match s.readBuf who tag ptr len with
    | (.data bs, s) => (.data bs none, s)
    | (.wait, s) => (.wait, s)
    | (.failed _, s) => (.ended stFaulted, s)
  | some k =>
    match s.readBuf who tag ptr (sealedLen len) with
    | (.data bs, s) =>
      match k.open kind len seqId first bs with
      | some (pt, c) => (.data pt (some (k.mark c)), s)
      | none => (.ended stDenied, s)
    | (.wait, s) => (.wait, s)
    | (.failed _, s) => (.ended stFaulted, s)

end Sys2Proof.Machine
end

