-- ==== Sys2Proof/Machine/Serve.lean ====
section
/-! DEFINITION. The sequence table and what commands do to a sequence (R247 to R252, R258, R262, R264 to R266, R269, R270,
R272, R301 to R308), up to the step boundary that applies them (R255 T0). -/

namespace Sys2Proof.Machine

/-! ### The sequence table (R247, R250) -/

/-- The sequence in a slot. -/
def State.seq (s : State) (slot : Nat) : Option Sequence := mapFind s.srv.seqs slot

/-- The state with a slot's sequence replaced. -/
def State.putSeq (s : State) (slot : Nat) (x : Sequence) : State :=
  { s with srv := { s.srv with seqs := mapPut s.srv.seqs slot x } }

/-- The handle of a sequence in a slot (R247). -/
def seqHandle (slot : Nat) (x : Sequence) : Nat := x.gen % 2 ^ 17 * 2 ^ 15 + slot

/-- The slot and sequence that a handle names for a context: none gives DENIED (R247, R294). -/
def State.seqOf (s : State) (tag h : Nat) : Option (Nat × Sequence) :=
  match s.seq (h % 2 ^ 15) with
  | some x => if x.gen % 2 ^ 17 = h / 2 ^ 15 ∧ x.ctx = tag then some (h % 2 ^ 15, x) else none
  | none => none

/-- The state with the scheduler's event order advanced, and the number of the event. -/
def State.tick (s : State) : Nat × State := (s.srv.order, { s with srv := { s.srv with order := s.srv.order + 1 } })

/-- A standby's tables mirror its primary's: it serves no sequence, model or program packet (R463). -/
def State.standbyHolds (s : State) : Bool :=
  s.mir.role && (decide (s.mir.st = .pairing) || decide (s.mir.st = .resync) || decide (s.mir.st = .mirroring) ||
    decide (s.mir.st = .broken))

/-! ### LTR (R340) -/

/-- Serving is active (R340). -/
def State.serves (s : State) : Bool :=
  s.srv.main.isSome && (s.srv.seqs.any (fun x => decide (x.2.st = .prefill) || decide (x.2.st = .decode)) ||
    s.srv.programs.any (fun p => p.started))

/-- A latency field of the LTR capability (value × 32^scale), no limit where host software has written none. -/
def ltrLimit (cfg : List (Nat × BitVec 32)) (lo : Nat) : Option Nat :=
  (mapFind cfg 0x1D4).map (fun v => bits v.toNat (lo + 9) lo * 32 ^ bits v.toNat (lo + 12) (lo + 10))

/-- The LTR message of the present activity (R340). -/
def State.sendLtr (s : State) : State :=
  let ns := if s.serves then 1024 else 1015808
  let cap (lo : Nat) : Nat := match ltrLimit (s.fn 0).cfg lo with
    | some m => min m ns
    | none => ns
  if (s.fn 0).ltrEnable && !s.port.frozen && s.port.linkUp && !(s.fn 0).quiescing then s.send (.ltr (cap 0) (cap 16)) else s

/-- An LTR message is sent when serving changes between active and idle (R340). -/
def State.ltr (s : State) : State :=
  if s.serves = s.port.ltrActive then s
  else ({ s with port := { s.port with ltrActive := s.serves } }).sendLtr

/-! ### HBM granules -/

/-- Bytes of a granule of HBM (R181). -/
def granuleBytes : Nat := 2 ^ 21

/-- The granules that a range touches. -/
def granulesOf (a len : Nat) : List Nat :=
  (List.range ((a % granuleBytes + len + granuleBytes - 1) / granuleBytes)).map (fun j => (a / granuleBytes + j) * granuleBytes)

/-- The arena granules that are the context's own: those that no image maps below ARENA_RO_BYTES (R225). -/
def Ctx.ownArena (c : Ctx) : List (Nat × Nat) := c.arena.filter (fun a => decide (c.arenaRoBytes ≤ a.1 * granuleBytes))

/-- The granule is one of a stack that serves, is not retired, and lies in no carve, arena or image. -/
def State.granuleUnused (s : State) (g : Nat) : Bool :=
  (hbmStack g).any (fun n => !s.boot.stackFailed.contains n) && decide (granuleOf g = g) && decide (paOffset g < 2 ^ 36) &&
    (s.coh.carveOff g).isNone && !bit (s.entryOf g).toNat 22 &&
    s.ctxs.all (fun c => !c.2.valid || c.2.ownArena.all (fun a => a.2 ≠ g)) &&
    [s.srv.main, s.srv.draft].all (fun i => i.all (fun i => !i.granules.contains g)) &&
    s.srv.loading.all (fun l => !l.granules.contains g)

/-- The granule is unused, lies outside the KV pool, and its entry is MODE 0. -/
def State.granuleFree (s : State) (g : Nat) : Bool :=
  s.granuleUnused g && decide (modeOf (s.entryOf g) false = 0) &&
    s.srv.pool.all (fun p => decide (p.1 + p.2.1 ≤ g) || decide (g + granuleBytes ≤ p.1))

/-- n different free granules from those that firmware chose. -/
def State.takeGranules (s : State) (l : List Nat) (n : Nat) : Option (List Nat) :=
  let ok := (l.eraseDups.filter s.granuleFree).take n
  if ok.length = n then some ok else none

/-- A range of HBM holds zeros, and its cached copies are gone. -/
def State.wipe (s : State) (a len : Nat) : State :=
  let inside (k : Nat) : Bool := decide (a ≤ k) && decide (k < a + len)
  let c := s.coh
  let c := { c with held := c.held.map (fun p => (p.1, p.2.filter (fun x => !inside x.1))),
                    dir := c.dir.filter (fun x => !inside x.1), wbuf := c.wbuf.filter (fun x => !inside x.2) }
  let lose (p : Nat × Core) := (p.1, if p.2.resv.any inside then { p.2 with resv := none } else p.2)
  { s with coh := c, cores := s.cores.map lose, mem := s.mem.zero a len }

/-- A granule is handed to another owner (R188): its cached copies are gone, it holds zeros, and its entry is written; RETIRED
stays. -/
def State.handOver (s : State) (g : Nat) (entry : BitVec 32) : State :=
  { s.wipe g granuleBytes with own := mapSet (s.ownDefault g) s.own g ((entry &&& 0x3F_FFFF) ||| (s.entryOf g &&& 0x40_0000)) }

/-- HBM bytes in service: the stacks that trained, less retired granules. -/
def State.hbmServes (s : State) : Nat :=
  (12 - s.boot.stackFailed.length) * 2 ^ 36 -
    (s.own.filter (fun e => (hbmStack e.1).isSome && bit e.2.toNat 22)).length * granuleBytes

/-- HBM bytes that the carve, arenas, images and the KV pool take. -/
def State.hbmTaken (s : State) : Nat :=
  s.coh.carveBytes + ((s.ctxs.filter (fun c => c.2.valid)).map (fun c => c.2.arenaBytes - c.2.arenaRoBytes)).sum +
    ([s.srv.main, s.srv.draft].map (fun i => (i.map (fun i => i.granules.length * granuleBytes)).getD 0)).sum +
    s.srv.poolBytes

/-! ### Places of the pool (R253, R260 to R264) -/

/-- References to a place of the pool. -/
def Srv.refs (v : Srv) (a : Nat) : Nat := (mapGet (0, 0) v.pool a).2

/-- The state with the references to a place changed by f; a place without references is free, stays in the pool (R253), and its
promoted copies are gone. -/
def Srv.modRefs (v : Srv) (f : Nat → Nat) (a : Nat) : Srv :=
  let x := mapGet (0, 0) v.pool a
  { v with pool := mapPut v.pool a (x.1, f x.2),
           promoted := if f x.2 = 0 then v.promoted.filter (fun p => !(decide (a ≤ p.1.1) && decide (p.1.1 < a + x.1))) else v.promoted }

/-- One reference to a page set or a ring is released. -/
def Srv.freePage (v : Srv) (a : Nat) : Srv := v.modRefs (· - 1) a

/-- One more reference. -/
def Srv.sharePage (v : Srv) (a : Nat) : Srv := v.modRefs (· + 1) a

/-- The places of one image's KV of a sequence: of the main image, or of the draft image. -/
def Sequence.kv (x : Sequence) (draft : Bool) : KvPlaces :=
  if draft then x.draftKv else { tables := x.tables, ring := x.ring, pages := x.pages }

/-- The sequence with the places of one image's KV replaced. -/
def Sequence.setKv (x : Sequence) (draft : Bool) (k : KvPlaces) : Sequence :=
  if draft then { x with draftKv := k } else { x with tables := k.tables, ring := k.ring, pages := k.pages }

/-- No place. -/
def KvPlaces.none : KvPlaces := { tables := Option.none, ring := Option.none, pages := [] }

/-- All places. -/
def KvPlaces.all (k : KvPlaces) : List Nat := k.pages ++ k.ring.toList ++ k.tables.toList

/-- The image whose KV is meant (R255). -/
def State.kvImage (s : State) (draft : Bool) : Option Image := if draft then s.srv.draft else s.srv.main

/-- The pages of a sequence are released. -/
def State.freePages (s : State) (slot : Nat) : State :=
  match s.seq slot with
  | none => s
  | some x =>
    let v := ((x.kv false).all ++ (x.kv true).all).foldl Srv.freePage s.srv
    ({ s with srv := v }).putSeq slot ((x.setKv false KvPlaces.none).setKv true KvPlaces.none)

/-- KV_RESERVE and KV_LIMIT of the scheduler parameter block (R253). -/
def Srv.kvReserve (v : Srv) : Nat := fieldLe v.sched 16 8
def Srv.kvLimit (v : Srv) : Nat := fieldLe v.sched 24 8

/-- Bytes that the pool's places in use take. -/
def Srv.poolUsed (v : Srv) : Nat := (v.pool.map (fun p => if p.2.2 = 0 then 0 else p.2.1)).sum

/-- Two ranges share no byte. -/
def apart (a n b m : Nat) : Bool := decide (a + n ≤ b) || decide (b + m ≤ a)

/-- A place of len bytes overlaps no place in use. -/
def Srv.placeFree (v : Srv) (a len : Nat) : Bool := v.pool.all (fun p => decide (p.2.2 = 0) || apart a len p.1 p.2.1)

/-- The ownership entry of a granule of a context's KV (R260): the context alone may use it, and NOALLOC is set (R172). -/
def State.kvEntry (s : State) (tag : Nat) : BitVec 32 := BitVec.ofNat 32 (0x9000 + tag + (s.ctx tag).part * 2 ^ 16)

/-- A granule is one of the pool's that hold pages of a context. -/
def State.kvGranule (s : State) (tag g : Nat) : Bool := decide (s.entryOf g = s.kvEntry tag)

/-- A granule may take pages of a context: the pool alone uses it, and it holds no page of another context (R260). -/
def State.granuleForKv (s : State) (tag g : Nat) : Bool :=
  let near := s.srv.pool.filter (fun p => !apart g granuleBytes p.1 p.2.1)
  s.granuleUnused g && (s.kvGranule tag g ||
    (near.all (fun p => decide (p.2.2 = 0)) && (!near.isEmpty || decide (modeOf (s.entryOf g) false = 0))))

/-- A place of len bytes may be taken for a context: it lies in one stack of the home quadrant, is in use by nobody, and its granules
may take the context's pages. -/
def State.placeOk (s : State) (tag home len a : Nat) : Bool :=
  (hbmStack a).any (fun n => decide (n / 3 = home / 4)) && decide (a % 64 = 0) && decide (paOffset a + len ≤ 2 ^ 36) &&
    s.srv.placeFree a len && (granulesOf a len).all (s.granuleForKv tag)

/-- The first of n granules from g on that ok accepts. -/
def firstGranule (ok : Nat → Bool) : Nat → Nat → Option Nat
  | 0, _ => none
  | n + 1, g => if ok g then some g else firstGranule ok n (g + granuleBytes)

/-- A place for a context's KV (R260): one of those that firmware chose; where none of them will do, behind another place of the pool, or
else at the lowest granule that will. -/
def State.findPlace (s : State) (tag home : Nat) (avail : List Nat) (len : Nat) : Option Nat :=
  let ok := s.placeOk tag home len
  let ends := s.srv.pool.map (fun p => (p.1 + p.2.1 + 63) / 64 * 64)
  match (avail ++ ends).find? ok with
  | some a => some a
  | none => (List.range 3).findSome? (fun j => firstGranule ok 32768 (hbmPa (home / 4 * 3 + j) 0))

/-- A place of len bytes is taken for a context (R253, R260): the pool stays within KV_LIMIT and grows from free HBM; granules that come to
the context are zeroed (R188). -/
def State.takePlace (s : State) (tag home : Nat) (avail : List Nat) (len : Nat) : Option (Nat × List Nat × State) :=
  let v := s.srv
  let used := v.poolUsed + len
  if (v.kvLimit ≠ 0 ∧ v.kvLimit < used) ∨ s.hbmServes < s.hbmTaken + (used - v.poolBytes) then none
  else
    (s.findPlace tag home avail len).map (fun a =>
      let s := (granulesOf a len).foldl (fun s g => if s.kvGranule tag g then s else s.handOver g (s.kvEntry tag)) s
      (a, avail.erase a, { s with srv := { v with
        pool := mapPut (v.pool.filter (fun p => apart a len p.1 p.2.1)) a (len, 1), poolBytes := max v.poolBytes used } }))

/-- The pool's granules of a context go back to firmware (R240). -/
def State.dropKvGranules (s : State) (tag : Nat) : State :=
  ((s.srv.pool.flatMap (fun p => granulesOf p.1 p.2.1)).eraseDups.filter (s.kvGranule tag)).foldl (fun s g => s.handOver g 0) s

/-! ### Page tables (R145, R260, R263) -/

/-- The device pointer by which a sequence's page table names a page: its promoted copy in the home die's stacked SRAM (R263), else its
place in the context's arena. Where the arena shows granules of the pool is not stated (log entry 52). -/
def State.pagePtr (s : State) (x : Sequence) (pa : Nat) : Nat :=
  match s.srv.promoted.find? (fun p => decide (p.1 = (pa, x.home))) with
  | some p => 3 * 2 ^ 60 + p.2
  | none =>
    match (s.ctx x.ctx).arena.find? (fun a => a.2 = pa / granuleBytes * granuleBytes) with
    | some a => 2 * 2 ^ 60 + a.1 * granuleBytes + pa % granuleBytes
    | none => 2 * 2 ^ 60 + Config.unstated 260 pa % 2 ^ 33 * 64

/-- The page tables of a sequence are brought up to date in memory (R260). -/
def State.putTables (s : State) (slot : Nat) : State :=
  match s.seq slot with
  | none => s
  | some x => [false, true].foldl (fun s draft =>
    match s.kvImage draft, (x.kv draft).tables with
    | some i, some t => (i.entries (x.kv draft)).foldl (fun s e =>
        let v := s.pagePtr x e.2 + 1
        if s.mem.nat (t + e.1) 8 = v then s else s.fwWrite (t + e.1) (natLe v 8)) s
    | _, _ => s) s

/-- The page tables of every sequence. -/
def State.putAllTables (s : State) : State := s.srv.seqs.foldl (fun s x => s.putTables x.1) s

/-- What a sequence's KV is made of. -/
inductive PlaceKind where
  | tables | ring | set
deriving DecidableEq, Repr

/-- Bytes of a place. -/
def Image.placeBytes (i : Image) : PlaceKind → Nat
  | .tables => i.tableBytes
  | .ring => i.ringBytes
  | .set => i.setBytes

/-- The places with one more. -/
def KvPlaces.add (k : KvPlaces) (a : Nat) : PlaceKind → KvPlaces
  | .tables => { k with tables := some a }
  | .ring => { k with ring := some a }
  | .set => { k with pages := k.pages ++ [a] }

/-- One place of a sequence's KV is taken and its page tables follow; new tables hold zeros. -/
def State.givePlace (s : State) (slot : Nat) (draft : Bool) (kind : PlaceKind) (avail : List Nat) : Option (List Nat × State) :=
  match s.kvImage draft, s.seq slot with
  | some i, some x =>
    (s.takePlace x.ctx x.home avail (i.placeBytes kind)).map (fun t =>
      let s := if kind = .tables then t.2.2.wipe t.1 i.tableBytes else t.2.2
      (t.2.1, (s.putSeq slot (x.setKv draft ((x.kv draft).add t.1 kind))).putTables slot))
  | _, _ => none

/-- What the places of one image still lack for positions below upto: the tables first, then the rings, then page sets. -/
def Image.lacks (i : Image) (k : KvPlaces) (upto : Nat) : Option PlaceKind :=
  if upto = 0 then none
  else if k.tables.isNone then some .tables
  else if k.ring.isNone && !i.slidingLayers.isEmpty then some .ring
  else if k.pages.length < i.setsFor upto then some .set else none

/-- What a sequence still lacks for positions below upto, of the main image and of the draft image (R255). -/
def State.lacks (s : State) (x : Sequence) (upto : Nat) : Option (Bool × PlaceKind) :=
  [false, true].findSome? (fun draft => (s.kvImage draft).bind (fun i => (i.lacks (x.kv draft) upto).map (fun k => (draft, k))))

/-! ### Promotion (R263) -/

/-- PROMOTE_MIN_REFS and PROMOTE_MIB. -/
def Srv.promoteMin (v : Srv) : Nat := fieldLe v.sched 9 1
def Srv.promoteMib (v : Srv) : Nat := fieldLe v.sched 10 1

/-- The pages of sequences homed on die d that may be promoted: references, layer, block, page. -/
def State.promotable (s : State) (d : Nat) : List (Nat × Nat × Nat × Nat) :=
  if s.srv.promoteMin = 0 then []
  else [false, true].flatMap (fun draft =>
    match s.kvImage draft with
    | none => []
    | some i =>
      let sets := ((s.srv.seqs.filter (fun x => x.2.home = d)).flatMap (fun x => (x.2.kv draft).pages.zipIdx)).eraseDups
      (sets.filter (fun p => decide (s.srv.promoteMin ≤ s.srv.refs p.1))).flatMap (fun p =>
        i.fullLayers.zipIdx.map (fun j => (s.srv.refs p.1, j.1, p.2, p.1 + j.2 * i.pageBytes))))

/-- Bytes of len copied from one place of memory to another. -/
def State.copyBytes (s : State) (src dst len : Nat) : State :=
  (linesOf dst len).foldl (fun s p => s.storeLine p.1 (s.mem.read (src + (p.1 - dst)) p.2) none) s

/-- The promoted pages of die d are those of highest count, ties to the lower layer and then the lower block, as many as the region holds;
a page that newly is one is copied. The region is the end of the die's stacked SRAM, in slots of one page (DESIGN CHOICE, log
entry 53). -/
def State.promoteDie (s : State) (d : Nat) : State :=
  let unit := max 64 (max ((s.srv.main.map Image.pageBytes).getD 0) ((s.srv.draft.map Image.pageBytes).getD 0))
  let region := s.srv.promoteMib * 2 ^ 20
  let off (j : Nat) : Nat := 0x300_0000 - region + j * unit
  let want := ((sortBy (fun (a b : Nat × Nat × Nat × Nat) => decide (b.1 < a.1) || (decide (a.1 = b.1) &&
    (decide (a.2.1 < b.2.1) || (decide (a.2.1 = b.2.1) && decide (a.2.2.1 < b.2.2.1))))) (s.promotable d)).take (region / unit)).map (·.2.2.2)
  let keep := s.srv.promoted.filter (fun p => decide (p.1.2 = d) && want.contains p.1.1)
  let free := ((List.range (region / unit)).map off).filter (fun o => !keep.any (fun p => p.2 = o))
  let new := ((want.filter (fun a => !keep.any (fun p => p.1.1 = a))).zip free).map (fun p => ((p.1, d), p.2))
  let s := new.foldl (fun s p => s.copyBytes p.1.1 (ssramPa d p.2) unit) s
  { s with srv := { s.srv with promoted := s.srv.promoted.filter (fun p => p.1.2 ≠ d) ++ keep ++ new } }

/-- T0 chooses the promoted pages of every die, and page tables follow (R263). -/
def State.promotePages (s : State) : State :=
  if s.srv.promoteMin = 0 && s.srv.promoted.isEmpty then s
  else ((List.range 16).foldl (fun s d => s.promoteDie d) s).putAllTables

/-- Promoted pages of a die that leaves are demoted (R451). -/
def State.demoteDie (s : State) (d : Nat) : State :=
  ({ s with srv := { s.srv with promoted := s.srv.promoted.filter (fun p => p.1.2 ≠ d) } }).putAllTables

/-! ### Journal of a sequence (R459) -/

/-- Code of a sequence state (R250). -/
def SeqSt.code : SeqSt → Nat
  | .idle => 1
  | .prefill => 2
  | .decode => 3
  | .evicted => 4
  | .failed => 5
  | .closing => 6

/-- The bytes of a bias list (R267). -/
def biasBytes (l : List (Nat × BitVec 32)) : Bytes := l.flatMap (fun e => natLe e.1 4 ++ natLe e.2.toNat 4)

/-- What a SEQUENCE frame carries. -/
def Sequence.mirror (x : Sequence) (share : Option (BitVec 15 × Nat)) : MirSeq :=
  { state := BitVec.ofNat 3 x.st.code, gen := BitVec.ofNat 17 x.gen, session := x.session.map (BitVec.ofNat 32), share := share,
    seqId := x.seqId, prio := BitVec.ofNat 2 x.prio, history := x.history, stored := x.stored, params := x.params,
    mask := x.mask, bias := biasBytes x.bias, key := x.key, keyRng := x.keyRng }

/-- What tells a standby that a slot is FREE. -/
def freeMirror : MirSeq :=
  { state := 0, gen := 0, session := none, share := none, seqId := 0, prio := 0, history := [], stored := 0, params := [],
    mask := [], bias := [], key := [], keyRng := false }

/-- The SEQUENCE frame of a slot, and its SAMPLER frame. -/
def State.journalSeq (s : State) (slot : Nat) (share : Option (BitVec 15 × Nat) := none) : State :=
  match s.seq slot with
  | none => s
  | some x =>
    (s.journal x.ctx 5 (.sequence (BitVec.ofNat 15 slot) (x.mirror share))).journal x.ctx 7
      (.sampler (BitVec.ofNat 15 slot) x.key)

/-- The KV of a sequence's page sets from the skip-th on, and of its rings, in parts of 32 KiB. -/
def State.kvParts (s : State) (i : Image) (slot : Nat) (x : Sequence) (skip : Nat) : List JPayload :=
  let cut (ring : Bool) (page base len : Nat) : List JPayload := (List.range ((len + 32767) / 32768)).map (fun j =>
    .kv (BitVec.ofNat 15 slot) ring page (32768 * j) (s.mem.read (base + 32768 * j) (min 32768 (len - 32768 * j))))
  (x.pages.zipIdx.drop skip).flatMap (fun p => cut false p.2 p.1 i.setBytes) ++
    x.ring.toList.flatMap (fun p => cut true 0 p i.ringBytes)

/-- KV that reaches a bound sequence's pages by a copy and not by KVPUT goes into the journal too. -/
def State.journalPages (s : State) (i : Image) (slot : Nat) (x : Sequence) (skip : Nat) : State :=
  if s.journals && (s.peerTag x.ctx).isSome then
    (s.kvParts i slot x skip).foldl (fun s p => s.journal x.ctx 6 p) s
  else s

/-! ### The end of a GENERATE (R269, R303) -/

/-- Status of a finish reason. -/
def reasonStatus (reason : Nat) : Nat :=
  if reason ≤ 5 then stDone else if reason = 6 then stAborted else if reason = 7 then stFaulted else stNoResource

/-- RESULT of a GENERATE's completions (R303, R385). -/
def genResult (g : Gen) (reason n : Nat) (isSealed : Bool) : Bytes :=
  res4 g.emitted ++ natLe reason 4 ++ res4 n ++ res4 (if isSealed then g.bytes else 0)

/-- The outstanding GENERATE of a sequence ends with a reason. -/
def State.endGen (s : State) (slot reason : Nat) : State :=
  match s.seq slot with
  | none => s
  | some x =>
    match x.generate with
    | none => s
    | some g =>
      let s := s.putSeq slot { x with generate := none }
      s.finishWith g.f g.r g.q (reasonStatus reason) (genResult g reason x.history.length x.session.isSome) [] true

/-- A sequence enters FAILED (R257, R264): its GENERATE ends, its history and pages are kept. -/
def State.failSeq (s : State) (slot reason : Nat) : State :=
  match s.seq slot with
  | none => s
  | some x => (((s.putSeq slot { x with st := .failed, late := none }).endGen slot reason).journalSeq slot).ltr

/-- A sequence is evicted (R264): its pages are released; it keeps its history, n, s and sampler state. -/
def State.evictSeq (s : State) (slot : Nat) : State :=
  match s.seq slot with
  | none => s
  | some x =>
    ((s.putSeq slot { x with st := .evicted, back := if x.st = .evicted then x.back else x.st, rebuilt := 0 }).freePages
      slot).journalSeq slot

/-! ### Journal of an installation (R459) -/

/-- The SESSION payload of an installation (R386). -/
def SessionKey.mirror (k : SessionKey) (h : Nat) : MirSession :=
  { handle := BitVec.ofNat 32 h, key := k.key, inst := k.inst, high := k.high, seen := k.seen, counter := k.counter,
    epoch := k.epoch }

/-- An installation changes, and a bound context's standby learns of it. -/
def State.useSession (s : State) (h : Option Nat) (k : Option SessionKey) : State :=
  match h, k with
  | some h, some k => (s.setSession h k).journal k.ctx 8 (.session (k.mirror h))
  | _, _ => s

/-! ### Seed keys (R272) -/

/-- Deterministic mode is on. -/
def State.deterministic (s : State) : Bool := s.boot.deterministic

/-- The seed key of a parameter block: the key and whether it came from the random number generator. -/
def State.seedKey (s : State) (p : Bytes) (seqId : BitVec 64) (k : Option SessionKey) : Bytes × Bool × State :=
  let id := natLe seqId.toNat 8
  if pSeedValid p then ((sha384 (ascii "AZG-SEED-1" ++ pSeed p ++ id)).take 16, false, s)
  else if s.deterministic then
    match k with
    | some k => ((hmac384 k.key (ascii "AZG-SEED-1" ++ id)).take 16, false, s)
    | none => ((sha384 (ascii "AZG-SEED-1" ++ natLe 0 8 ++ id)).take 16, false, s)
  else ((s.drawBytes 16).1, true, (s.drawBytes 16).2)

/-! ### Parameters with their lists (R266) -/

/-- What reading a parameter block's lists gives. -/
inductive ListsRead where
  | ok (mask : Bytes) (bias : List (Nat × BitVec 32)) (k : Option SessionKey)
  | wait
  | ended (status : Nat)
deriving DecidableEq, Repr

/-- The mask bitmap and bias list of a block are read once (R266, R267). -/
def State.readLists (s : State) (who : Waiter) (tag : Nat) (p : Bytes) (k : Option SessionKey) (seqId : BitVec 64)
    (vocab : Nat) : ListsRead × State :=
  let id := natLe seqId.toNat 8
  let m := if pMaskEn p then s.readList who tag (pMaskPtr p) ((vocab + 7) / 8) k 2 id 0 else (.data [] none, s)
  match m with
  | (.wait, s) => (.wait, s)
  | (.ended e, s) => (.ended e, s)
  | (.data mask k1, s) =>
    let k := match k1 with | some x => some x | none => k
    let b := if pBiasCount p = 0 then (.data [] none, s) else s.readList who tag (pBiasPtr p) (8 * pBiasCount p) k 3 id 0
    match b with
    | (.wait, s) => (.wait, s)
    | (.ended e, s) => (.ended e, s)
    | (.data bias k2, s) =>
      let k := match k2 with | some x => some x | none => k
      if biasOk (biasOf bias) vocab then (.ok mask (biasOf bias) k, s) else (.ended stBad, s)

/-! ### Commands that name a sequence (R251) -/

/-- The packet of a received command. -/
def State.recvPkt (s : State) (c : Recv) : Option Pkt := (s.ring c.f c.r).pkt c.q

/-- The lowest free slot from the one that firmware chose. -/
def State.freeSlot (s : State) (want : Nat) : Option Nat :=
  if (s.seq want).isNone && decide (want < 2 ^ 15) then some want
  else if 2 ^ 15 ≤ s.srv.seqs.length then none
  else (List.range 32768).find? (fun i => (s.seq i).isNone)

/-- The die with the fewest open sequences, ties to the lower die (R252). -/
def State.homeDie (s : State) : Nat :=
  let load (d : Nat) : Nat := (s.srv.seqs.filter (fun x => x.2.home = d)).length
  ((List.range 16).filter s.dieSched).foldl (fun b d => if s.dieSched b && decide (load b ≤ load d) then b else d) 16

/-- A sequence is opened in a slot (R247, R301). -/
def State.openSeq (s : State) (slot : Nat) (x : Sequence) : Sequence × State :=
  let g := mapGet 0 s.srv.gens slot + 1
  let t := s.tick
  let x := { x with gen := g, opened := t.1, committed := t.1 }
  (x, ({ t.2 with srv := { t.2.srv with gens := mapPut t.2.srv.gens slot g } }).putSeq slot x)

/-- The outcome of applying a command: it waits for a buffer, or it has ended. -/
abbrev Applied := Bool × State

/-- The command ends with a status. -/
def State.endCmd (s : State) (c : Recv) (status : Nat) (res : Bytes := []) : Applied :=
  (false, s.finishMirrored c.f c.r c.q status res [])

/-- OPEN_SEQUENCE applied (R301, R266, R272). -/
def State.applyOpen (s : State) (c : Recv) (p : Pkt) : Applied :=
  match s.srv.main with
  | none => s.endCmd c (if s.srv.loading.isSome then stBusy else stUnsupported)
  | some i =>
    if s.srv.loading.isSome then s.endCmd c stBusy
    else
      match s.freeSlot c.slot with
      | none => s.endCmd c stNoResource
      | some slot =>
        let par := sliceBytes p.bytes 64 128
        let seqId := BitVec.ofNat 64 (p.field 16 8)
        let sess := if bit (p.byte 25) 0 then some (p.field 28 4) else none
        let k := sess.bind s.session
        if !paramsOk par i.vocab s.srv.draft.isSome then s.endCmd c stBad
        else if sess.isSome && (k.map (·.ctx)) ≠ some p.ctx then s.endCmd c stDenied
        else
          match s.readLists (pktW c.f c.r c.q) p.ctx par k seqId i.vocab with
          | (.wait, s) => (true, s)
          | (.ended e, s) => s.endCmd c e
          | (.ok mask bias k, s) =>
            let s := s.useSession sess k
            let key := s.seedKey par seqId k
            let x : Sequence :=
              { gen := 0, ctx := p.ctx, seqId := seqId, prio := bits (p.byte 24) 1 0, session := sess, st := .idle, back := .idle,
                history := [], stored := 0, params := par, mask := mask, bias := bias, key := key.1, keyRng := key.2.1,
                home := s.homeDie, served := 0, entered := 0, opened := 0, committed := 0, generate := none, pages := [],
                ring := none, rebuilt := 0, late := none }
            let r := key.2.2.openSeq slot x
            (r.2.journalSeq slot).endCmd c stDone (res4 (seqHandle slot r.1) ++ natLe x.home 1)

/-- APPEND_TOKENS applied (R251, R302). -/
def State.applyAppend (s : State) (c : Recv) (p : Pkt) : Applied :=
  match s.srv.main, s.seqOf p.ctx (p.field 16 4) with
  | some i, some (slot, x) =>
    let n := x.history.length
    let count := p.field 20 4
    if x.st = .closing ∨ x.st = .decode then s.endCmd c stBusy
    else if x.st = .failed then s.endCmd c stFaulted
    else
      match s.readList (pktW c.f c.r c.q) p.ctx (p.field 24 8) (4 * count) (x.session.bind s.session) 1
          (natLe x.seqId.toNat 8) n with
      | (.wait, s) => (true, s)
      | (.ended e, s) => s.endCmd c e
      | (.data bs k, s) =>
        let toks := (List.range count).map (fun j => fieldLe bs (4 * j) 4)
        if !toks.all (fun t => decide (t < i.vocab)) then s.endCmd c stBad
        else if i.maxContext < n + count then s.endCmd c stNoResource
        else
          let s := s.useSession x.session k
          let t := s.tick
          let x' := { x with history := x.history ++ toks,
                             st := if x.st = .idle then .prefill else x.st,
                             back := if x.st = .evicted ∧ x.back = .idle then .prefill else x.back,
                             entered := if x.st = .idle then t.1 else x.entered }
          (((t.2.putSeq slot x').journalSeq slot).ltr).endCmd c stDone (res4 x'.history.length)
  | _, _ => s.endCmd c stDenied

/-- GENERATE applied (R251, R303, R385): the sequence decodes, or the GENERATE is pending until the prompt is stored or
rebuilt. -/
def State.applyGenerate (s : State) (c : Recv) (p : Pkt) : Applied :=
  match s.srv.main, s.seqOf p.ctx (p.field 16 4) with
  | some i, some (slot, x) =>
    let n := x.history.length
    let par := if bit (p.byte 20) 0 then sliceBytes p.bytes 64 128 else x.params
    if x.st = .closing ∨ x.st = .decode ∨ x.generate.isSome then s.endCmd c stBusy
    else if x.st = .failed then s.endCmd c stFaulted
    else if n = 0 ∨ !paramsOk par i.vocab s.srv.draft.isSome ∨
        p.field 32 4 < (if x.session.isSome then 9 else 1) * pMaxNew par then s.endCmd c stBad
    else
      let lists := if bit (p.byte 20) 0 then
          s.readLists (pktW c.f c.r c.q) p.ctx par (x.session.bind s.session) x.seqId i.vocab
        else (.ok x.mask x.bias none, s)
      match lists with
      | (.wait, s) => (true, s)
      | (.ended e, s) => s.endCmd c e
      | (.ok mask bias k, s) =>
        let s := s.useSession x.session k
        let key := if bit (p.byte 20) 0 && pSeedValid par then s.seedKey par x.seqId none else (x.key, x.keyRng, s)
        let t := key.2.2.tick
        let g : Gen := { f := c.f, r := c.r, q := c.q, out := p.field 24 8, slots := p.field 32 4, partialEvery := p.field 36 4,
                         emitted := 0, bytes := 0, since := 0, cancel := false }
        let x := { x with params := par, mask := mask, bias := bias, key := key.1, keyRng := key.2.1 }
        if n = i.maxContext then
          let s := t.2.putSeq slot x
          (s.journalSeq slot).endCmd c stDone (genResult g 4 n x.session.isSome)
        else
          let ready := decide (n ≤ x.stored + 1)
          let x := { x with
            generate := some g
            st := if x.st = .idle then (if ready then .decode else .prefill) else x.st
            back := if x.st = .evicted ∧ x.back = .idle then (if ready then .decode else .prefill) else x.back
            entered := if x.st = .idle ∧ !ready then t.1 else x.entered }
          let s := t.2.putSeq slot x
          let s := s.setRing c.f c.r ((s.ring c.f c.r).setPhase c.q .running)
          (false, ((s.journalSeq slot).journal p.ctx 4 (.command p.bytes)).ltr)
  | _, _ => s.endCmd c stDenied

/-- The cancelling part of CANCEL and CLOSE_SEQUENCE (R251, R258), with no step in flight. -/
def State.cancelSeq (s : State) (slot : Nat) : State :=
  match s.seq slot with
  | none => s
  | some x =>
    let x' := match x.st with
      | .prefill => { x with history := x.history.take x.stored, st := SeqSt.idle }
      | .decode => { x with st := SeqSt.idle }
      | .evicted => { x with back := if x.back = .decode then .idle else x.back }
      | _ => x
    (((s.putSeq slot x').endGen slot 6).journalSeq slot).ltr

/-- A slot becomes FREE (R250). -/
def State.freeSeq (s : State) (slot : Nat) : State :=
  match s.seq slot with
  | none => s
  | some x =>
    let s := s.freePages slot
    let s := { s with srv := { s.srv with seqs := mapDel s.srv.seqs slot } }
    (s.journal x.ctx 5 (.sequence (BitVec.ofNat 15 slot) freeMirror)).ltr

/-- A sequence is closed (R251, R305): as by CANCEL, then CLOSING, with its pages released. -/
def State.closeSeq (s : State) (slot : Nat) : State :=
  let s := (s.cancelSeq slot).freePages slot
  match s.seq slot with
  | none => s
  | some x => s.putSeq slot { x with st := .closing, late := none }

/-- The slots in CLOSING become FREE. That this ends with the step boundary that closed them is a DESIGN CHOICE (log entry 114). -/
def State.freeClosed (s : State) : State :=
  (s.srv.seqs.filter (fun x => decide (x.2.st = .closing))).foldl (fun s x => s.freeSeq x.1) s

/-- CANCEL of KIND 0 applied (R251, R258). -/
def State.applyCancel (s : State) (c : Recv) (p : Pkt) : Applied :=
  match s.seqOf p.ctx (p.field 20 4) with
  | some (slot, x) => if x.st = .closing then s.endCmd c stBusy else (s.cancelSeq slot).endCmd c stDone
  | none => s.endCmd c stDenied

/-- CLOSE_SEQUENCE applied (R251, R305). -/
def State.applyClose (s : State) (c : Recv) (p : Pkt) : Applied :=
  match s.seqOf p.ctx (p.field 16 4) with
  | some (slot, x) => if x.st = .closing then s.endCmd c stBusy else (s.closeSeq slot).endCmd c stDone
  | none => s.endCmd c stDenied

/-- The places of one image's KV for a child (R262): whole page sets are shared, a partly filled one and the rings are copied; the page
tables are the child's own. None where the pool cannot supply them. -/
def State.forkKv (s : State) (x : Sequence) (draft : Bool) (avail : List Nat) : Option (KvPlaces × List Nat × State) :=
  let k := x.kv draft
  let whole := x.stored / 256
  match s.kvImage draft with
  | none => some (KvPlaces.none, avail, s)
  | some i =>
    let copy (kind : PlaceKind) (src : Option Nat) (a : KvPlaces × List Nat × State) : Option (KvPlaces × List Nat × State) :=
      match src with
      | none => some a
      | some p => (a.2.2.takePlace x.ctx x.home a.2.1 (i.placeBytes kind)).map (fun t =>
          (a.1.add t.1 kind, t.2.1, if kind = .tables then t.2.2.wipe t.1 i.tableBytes else t.2.2.copyBytes p t.1 (i.placeBytes kind)))
    let s := { s with srv := (k.pages.take whole).foldl Srv.sharePage s.srv }
    ((copy .tables k.tables ({ KvPlaces.none with pages := k.pages.take whole }, avail, s)).bind
      (copy .set (if x.stored % 256 = 0 then none else k.pages[whole]?))).bind (copy .ring k.ring)

/-- FORK_SEQUENCE applied (R262, R306). -/
def State.applyFork (s : State) (c : Recv) (p : Pkt) : Applied :=
  match s.srv.main, s.seqOf p.ctx (p.field 16 4) with
  | some i, some (parent, x) =>
    if x.st = .failed then s.endCmd c stFaulted
    else if x.st ≠ .idle then s.endCmd c stBusy
    else
      let whole := x.stored / 256
      match s.freeSlot c.slot with
      | none => s.endCmd c stNoResource
      | some slot =>
        match (s.forkKv x false c.pages).bind (fun a => (a.2.2.forkKv x true a.2.1).map (fun b => (a.1, b.1, b.2.2))) with
        | none => s.endCmd c stNoResource
        | some (k, kd, s2) =>
          let seqId := BitVec.ofNat 64 (p.field 24 8)
          let key := s2.seedKey x.params seqId (x.session.bind s2.session)
          let y := { x with seqId := seqId, prio := bits (p.byte 32) 1 0, key := key.1, keyRng := key.2.1, generate := none, late := none }
          let r := key.2.2.openSeq slot ((y.setKv false k).setKv true kd)
          (((r.2.putTables slot).journalSeq slot (some (BitVec.ofNat 15 parent, whole))).journalPages i slot r.1 whole).endCmd c stDone
            (res4 (seqHandle slot r.1))
  | _, _ => s.endCmd c stDenied

/-! ### Snapshots (R307, R308, R387) -/

/-- Zeros to a multiple of 64 B. -/
def pad64 (bs : Bytes) : Bytes := padTo 64 bs

/-- The pages of positions 0 to s − 1 in layer order and block order: (address, bytes). A sliding-window layer holds the last
blocks of its ring (R261). -/
def Image.kvPlaces (i : Image) (x : Sequence) : List Nat :=
  let blocks := (x.stored + 255) / 256
  (List.range i.layers).flatMap (fun j =>
    if i.window j = 0 then
      let k := (i.fullLayers.takeWhile (· ≠ j)).length
      (List.range blocks).map (fun b => x.pages.getD b 0 + k * i.pageBytes)
    else
      let w := i.ringPages j
      let before := ((i.slidingLayers.takeWhile (· ≠ j)).map (fun l => i.ringPages l * i.pageBytes)).sum
      ((List.range blocks).drop (blocks - w)).map (fun b => x.ring.getD 0 + before + b % w * i.pageBytes))

/-- The bytes of a snapshot (R307). -/
def State.snapshot (s : State) (i : Image) (x : Sequence) (withKv : Bool) : Bytes :=
  let keyIn := !x.keyRng
  let hdr := natLe 0x534E_5A41 4 ++ sliceBytes i.digest 0 48 ++ natLe x.seqId.toNat 8 ++ natLe x.history.length 4 ++
    natLe x.stored 4 ++ natLe (x.prio + 4 * b2n withKv + 8 * b2n keyIn + 16 * b2n x.session.isSome) 1 ++ [0, 0, 0] ++
    sliceBytes x.params 0 128 ++ (if keyIn then sliceBytes x.key 0 16 else List.replicate 16 0) ++
    natLe ((x.generate.map (·.emitted)).getD 0) 8
  let kv := if withKv then (i.kvPlaces x).flatMap (fun a => s.mem.read a i.pageBytes) else []
  sliceBytes hdr 0 512 ++ pad64 (x.history.flatMap (fun t => natLe t 4)) ++ kv ++ pad64 x.mask ++ pad64 (biasBytes x.bias)

/-- SNAPSHOT_SEQUENCE applied (R251, R307, R387). -/
def State.applySnapshot (s : State) (c : Recv) (p : Pkt) : Applied :=
  match s.srv.main, s.seqOf p.ctx (p.field 16 4) with
  | some i, some (_, x) =>
    if x.st = .prefill ∨ x.st = .decode ∨ x.st = .closing then s.endCmd c stBusy
    else
      let plain := s.snapshot i x (bit (p.byte 20) 0 && decide (x.st ≠ .evicted))
      let k := x.session.bind s.session
      let size := if k.isSome then plain.length + 64 else plain.length
      if p.field 32 8 < size then s.endCmd c stNoResource (natLe size 8)
      else
        let d := match k with
          | some _ => s.drawBytes 12
          | none => ([], s)
        let out := match k with
          | some k => k.sealSnap d.1 (natLe x.seqId.toNat 8) plain
          | none => plain
        match s.planBuf (pktW c.f c.r c.q) p.ctx (p.field 24 8) out p.direct with
        | (.wait, s) => (true, s)
        | (.failed _ _, s) => s.endCmd c stFaulted
        | (.ok ws, s) =>
          let s := { s with fresh := d.2.fresh }
          (false, s.finishWith c.f c.r c.q stDone (natLe size 8) ws false)
  | _, _ => s.endCmd c stDenied

/-- RESTORE_SEQUENCE applied (R308): the snapshot is read, judged and opened. -/
def State.applyRestore (s : State) (c : Recv) (p : Pkt) : Applied :=
  match s.srv.main with
  | none => s.endCmd c (if s.srv.loading.isSome then stBusy else stUnsupported)
  | some i =>
    if s.srv.loading.isSome then s.endCmd c stBusy
    else
      match s.freeSlot c.slot with
      | none => s.endCmd c stNoResource
      | some slot =>
        let sess := if bit (p.byte 33) 0 then some (p.field 36 4) else none
        let k := sess.bind s.session
        if sess.isSome && (k.map (·.ctx)) ≠ some p.ctx then s.endCmd c stDenied
        else
          match s.readBuf (pktW c.f c.r c.q) p.ctx (p.field 16 8) (p.field 24 8) with
          | (.wait, s) => (true, s)
          | (.failed _, s) => s.endCmd c stFaulted
          | (.data raw, s) =>
            let plain : Option Bytes := match k with
              | some k => match k.openSnap raw with
                | some (pt, id) => if id = sliceBytes pt 52 8 then some pt else none
                | none => none
              | none => some raw
            match plain with
            | none => s.endCmd c stDenied
            | some bs =>
              let n := fieldLe bs 60 4
              let st := fieldLe bs 64 4
              let fl := fieldLe bs 68 1
              let par := sliceBytes bs 72 128
              let toks := (List.range n).map (fun j => fieldLe bs (512 + 4 * j) 4)
              let x0 : Sequence :=
                { gen := 0, ctx := p.ctx, seqId := BitVec.ofNat 64 (fieldLe bs 52 8), prio := bits (p.byte 32) 1 0, session := sess,
                  st := .evicted, back := .idle, history := toks, stored := st, params := par, mask := [], bias := [],
                  key := sliceBytes bs 200 16, keyRng := !bit fl 3, home := s.homeDie, served := 0, entered := 0, opened := 0,
                  committed := 0, generate := none, pages := [], ring := none, rebuilt := 0, late := none }
              let withKv := bit fl 2
              let kvAt := 512 + (4 * n + 63) / 64 * 64
              let shape := i.kvPlaces { x0 with ring := some 0, pages := List.replicate ((st + 255) / 256) 0 }
              let kvLen := if withKv then shape.length * i.pageBytes else 0
              let maskLen := if pMaskEn par then (i.vocab + 7) / 8 else 0
              let maskAt := kvAt + kvLen
              let biasAt := maskAt + (maskLen + 63) / 64 * 64
              let total := biasAt + (8 * pBiasCount par + 63) / 64 * 64
              let bias := biasOf (sliceBytes bs biasAt (8 * pBiasCount par))
              let bad := decide (bs.length < 512) || decide (fieldLe bs 0 4 ≠ 0x534E_5A41) || decide (i.maxContext < n) ||
                decide (n < st) || decide (bits fl 7 5 ≠ 0) || !allZero (sliceBytes bs 69 3) || !allZero (sliceBytes bs 224 288) ||
                decide (bit fl 4 ≠ sess.isSome) || decide (bs.length < total) ||
                !paramsOk par i.vocab s.srv.draft.isSome || !toks.all (fun t => decide (t < i.vocab)) || !biasOk bias i.vocab
              if decide (512 ≤ bs.length) && decide (fieldLe bs 0 4 = 0x534E_5A41) &&
                  decide (sliceBytes bs 4 48 ≠ sliceBytes i.digest 0 48) then s.endCmd c stUnsupported
              else if bad then s.endCmd c stBad
              else
                let need := if withKv then i.setsFor st else 0
                let take (a : Option (List Nat × List Nat × State)) (len : Nat) : Option (List Nat × List Nat × State) :=
                  a.bind (fun a => (a.2.2.takePlace p.ctx x0.home a.2.1 len).map (fun t => (a.1 ++ [t.1], t.2.1, t.2.2)))
                match (List.range need).foldl (fun a _ => take a i.setBytes) (some ([], c.pages, s)) with
                | none => s.endCmd c stNoResource
                | some (pages, l, s1) =>
                  let ring := if withKv && !i.slidingLayers.isEmpty && decide (st ≠ 0) then
                      (s1.takePlace p.ctx x0.home l i.ringBytes).map (fun t => (some t.1, t.2.2)) else some (none, s1)
                  match ring with
                  | none => s.endCmd c stNoResource
                  | some (rg, s2) =>
                    let key := if x0.keyRng then s2.seedKey par x0.seqId k else (x0.key, false, s2)
                    let x := { x0 with mask := sliceBytes bs maskAt maskLen, bias := bias, pages := pages, ring := rg,
                                       key := key.1, keyRng := key.2.1,
                                       st := if withKv then .idle else .evicted }
                    let s3 := if withKv then
                        (i.kvPlaces x).zipIdx.foldl (fun s a =>
                          (linesOf a.1 i.pageBytes).foldl (fun s q =>
                            s.storeLine q.1 (sliceBytes bs (kvAt + a.2 * i.pageBytes + (q.1 - a.1)) q.2) none) s)
                          key.2.2
                      else key.2.2
                    let r := s3.openSeq slot x
                    ((r.2.journalSeq slot).journalPages i slot r.1 0).endCmd c stDone
                      (res4 (seqHandle slot r.1) ++ natLe x.home 1)

/-! ### Output of one commit (R256, R269, R270) -/

/-- The tokens that a step commits, up to the finishing token, and the finish reason, 0 for none (R269). emitted and n count
before the first of them. -/
def cutEmits (i : Image) (par : Bytes) : Nat → Nat → List Emit → List Emit × Nat
  | _, _, [] => ([], 0)
  | emitted, n, e :: l =>
    let reason := if i.info.eos.contains e.token then 1
      else if (pStop par).contains e.token then 2
      else if pMaxNew par ≤ emitted + 1 then 3
      else if i.maxContext ≤ n + 1 then 4 else 0
    if reason ≠ 0 then ([e], reason)
    else
      let r := cutEmits i par (emitted + 1) (n + 1) l
      (e :: r.1, r.2)

/-- An output record (R270). -/
def Emit.record (e : Emit) : Bytes := natLe (e.token % 2 ^ 18 + 2 ^ 31 * b2n e.draft) 4 ++ natLe e.logprob.toNat 4

/-- What a commit gives out for a sequence: its context, ring, output writes, completion, slot and tokens. -/
structure Output where
  tag : Nat
  f : Nat
  r : Nat
  writes : List Planned
  done : Option Completion
  slot : Nat
  tokens : List Nat
deriving DecidableEq, Repr

/-- How a sequence's part of a step was committed: it waits for its output buffer, or it is committed. -/
inductive Committed where
  | wait
  | ok (out : Option Output)
deriving DecidableEq, Repr

/-- A sequence's part of a step is committed (R256, R257, R269, R270, R385). -/
def State.commitSeq (s : State) (row : BatchRow) (o : StepOut) : Committed × State :=
  match s.srv.main, s.seq row.slot with
  | some i, some x =>
    let n := x.history.length
    if o.nan then (.ok none, s.failSeq row.slot 7)
    else if x.st = .evicted then
      let rb := max x.rebuilt (row.start + row.rows)
      let t := s.tick
      let x : Sequence := { x with rebuilt := rb, served := s.srv.stepNo, committed := t.1 }
      let x : Sequence := if rb < x.stored then x
        else { x with st := x.back, entered := if x.back = .prefill then t.1 else x.entered }
      (.ok none, (t.2.putSeq row.slot x).ltr)
    else if !row.samples then
      let st' := max x.stored (row.start + row.rows)
      let t := s.tick
      let x := { x with stored := st', served := s.srv.stepNo, committed := t.1, st := if st' = n then .idle else x.st }
      (.ok none, ((t.2.putSeq row.slot x).journalSeq row.slot).ltr)
    else
      match x.generate with
      | none => (.ok none, s)
      | some g =>
        let cut := cutEmits i x.params g.emitted n o.emits
        let reason := if cut.2 = 0 && o.maskEmpty then 5 else cut.2
        let plain := cut.1.flatMap Emit.record
        let k := x.session.bind s.session
        let fr : Bytes × Option SessionKey := match k with
          | some k => if cut.1.isEmpty then ([], some k) else
              let e := k.emit (natLe x.seqId.toNat 8) n plain
              (e.1, some e.2)
          | none => (plain, none)
        let direct := ((s.ring g.f g.r).pkt g.q).any (·.direct)
        let at_ := if k.isSome then g.out + g.bytes else g.out + 8 * g.emitted
        match s.planBuf (pktW g.f g.r g.q) x.ctx at_ fr.1 direct with
        | (.wait, s) => (.wait, s)
        | (.failed _ _, s) => (.ok none, s.failSeq row.slot 7)
        | (.ok ws, s) =>
          let s := s.useSession x.session fr.2
          let t := s.tick
          let toks := cut.1.map (·.token)
          let g : Gen := { g with emitted := g.emitted + toks.length, bytes := g.bytes + fr.1.length, since := g.since + toks.length }
          let n' := n + toks.length
          let part := decide (reason = 0) && decide (g.partialEvery ≠ 0) && decide (g.partialEvery ≤ g.since)
          let done := if reason ≠ 0 || part then
              ((s.ring g.f g.r).pkt g.q).map (fun p =>
                p.completion (if part then stPartial else reasonStatus reason) (!part)
                  (genResult g reason n' k.isSome))
            else none
          let st' := if toks.isEmpty then max x.stored (row.start + row.rows - row.d) else n' - 1
          let g' := if reason = 0 then some { g with since := if part then 0 else g.since } else none
          let x : Sequence :=
            { x with history := x.history ++ toks, stored := st', served := s.srv.stepNo, committed := t.1, late := none,
                     st := if reason = 0 then .decode else .idle, generate := g' }
          let s := t.2.putSeq row.slot x
          let s := if reason ≠ 0 then s.dropWaits (pktW g.f g.r g.q) else s
          let s := if reason ≠ 0 then s.setRing g.f g.r ((s.ring g.f g.r).setPhase g.q .done) else s
          let out : Output := { tag := x.ctx, f := g.f, r := g.r, writes := ws, done := done, slot := row.slot, tokens := toks }
          (.ok (some out), s.ltr)
  | _, _ => (.ok none, s)

/-- The outputs of one commit: a COMMIT frame for each bound context, then the records and completions, as R461 lets them go. -/
def State.giveOut (s : State) (os : List Output) : State :=
  let tags := (os.map (·.tag)).eraseDups
  let s := tags.foldl (fun s t =>
    s.journal t 9 (.commit ((os.filter (fun o => o.tag = t)).map (fun o => (BitVec.ofNat 15 o.slot, o.tokens))))) s
  os.foldl (fun s o => s.release o.tag o.f o.r o.done o.writes true) s

/-- Output that a step left waiting for its buffer is tried again (R256). -/
def State.retryLate (s : State) : State :=
  s.srv.seqs.foldl (fun s e =>
    match (s.seq e.1).bind (·.late) with
    | none => s
    | some (row, o) =>
      match s.commitSeq row o with
      | (.wait, s) => s
      | (.ok out, s) => s.giveOut out.toList) s

/-! ### The step boundary (R255 T0) -/

/-- One received command is applied. -/
def State.applyCmd (s : State) (c : Recv) : Applied :=
  match s.recvPkt c with
  | none => (false, s)
  | some p =>
    match p.opcode with
    | 0x20 => s.applyOpen c p
    | 0x21 => s.applyAppend c p
    | 0x22 => s.applyGenerate c p
    | 0x23 => s.applyCancel c p
    | 0x24 => s.applyClose c p
    | 0x25 => s.applyFork c p
    | 0x26 => s.applySnapshot c p
    | 0x27 => s.applyRestore c p
    | _ => (false, s)

/-- The sequence that a packet names waits for its own late output. -/
def State.lateFor (s : State) (p : Pkt) : Bool :=
  let h := if p.opcode = 0x23 then p.field 20 4 else p.field 16 4
  [0x21, 0x22, 0x23, 0x24, 0x25, 0x26].contains p.opcode &&
    ((s.seqOf p.ctx h).map (fun x => x.2.late.isSome)).getD false

/-- Received commands are applied in order of arrival; a ring whose command waits keeps its later ones (R255). -/
def State.applyAll (s : State) (l : List Recv) : State :=
  (l.foldl (fun (a : List (Nat × Nat) × State) c =>
    let s := a.2
    if a.1.contains (c.f, c.r) then (a.1, s)
    else if (s.recvPkt c).any (fun p => s.lateFor p) then (a.1 ++ [(c.f, c.r)], s)
    else
      let r := s.applyCmd c
      if r.1 then (a.1 ++ [(c.f, c.r)], r.2)
      else (a.1, { r.2 with srv := { r.2.srv with received := r.2.srv.received.filter (· ≠ c) } })) ([], s)).2

/-- A raw program stops without a completion (R334 step 4). -/
def State.silence (s : State) (p : Program) : State :=
  let same (x : Program) : Bool := x.f = p.f && x.r = p.r && x.q = p.q
  if !p.started then { s with srv := { s.srv with programs := s.srv.programs.filter (fun x => !same x) } }
  else
    let s := s.endProgram p .aborted none
    { s with srv := { s.srv with programs := s.srv.programs.map (fun x => if same x then { x with silent := true } else x) } }

/-- Sequences of contexts that drain, sequences and programs of functions that quiesce or whose interface is in ERROR, and
GENERATEs of draining rings leave (R240, R258, R282, R334, R377). -/
def State.leaveAll (s : State) : State :=
  let s := (s.srv.programs.filter (fun p => !p.silent && ((s.fn p.f).quiescing || (s.fn p.f).barred))).foldl
    (fun s p => s.silence p) s
  let s := s.srv.seqs.foldl (fun s e =>
    let c := s.ctx e.2.ctx
    if c.draining || (s.fn c.func).quiescing then
      (s.setCtx e.2.ctx { c with closed := c.closed + 1, aborted := c.aborted + b2n e.2.generate.isSome }).closeSeq e.1
    else s) s
  s.srv.seqs.foldl (fun s e =>
    if (e.2.generate.map (·.cancel)).getD false && e.2.late.isNone then s.cancelSeq e.1 else s) s

/-- What a step boundary does before a batch is formed; nothing while a step is in flight. -/
def State.boundary (s : State) : State :=
  if s.srv.step.isSome then s
  else
    let s := s.retryLate.leaveAll
    (s.applyAll s.srv.received).freeClosed

/-- A sequence command is received (R251): the boundary that follows applies it, at once while no step is in flight. -/
def State.receive (s : State) (c : Recv) : State :=
  if s.standbyHolds then s.finish c.f c.r c.q stDenied []
  else
    let s := s.setRing c.f c.r ((s.ring c.f c.r).setPhase c.q .received)
    let s := if s.srv.received.any (fun x => x.f = c.f && x.r = c.r && x.q = c.q) then s
      else { s with srv := { s.srv with received := s.srv.received ++ [c] } }
    s.boundary

/-- A sequence opcode's row: the packet is received. A GENERATE that is being served is not received again. -/
def State.seqPacket (s : State) (f : FnId) (r : RingId) (q : PktSeq) (op : Nat) (slot : Nat) (pages : List Nat)
    (sel : Pkt → Bool := fun _ => true) : Res :=
  s.packet f r q op sel (fun _ s =>
    if (s.genOf f r q).isSome then s
    else s.receive { f := f, r := r, q := q, slot := slot, pages := pages })

/-- OPEN_SEQUENCE (R301). -/
def execOpenSequence (f : FnId) (r : RingId) (q : PktSeq) (slot : BitVec 15) (s : State) : Res :=
  s.seqPacket f r q 0x20 slot.toNat []

/-- APPEND_TOKENS (R302). -/
def execAppendTokens (f : FnId) (r : RingId) (q : PktSeq) (s : State) : Res := s.seqPacket f r q 0x21 0 []

/-- GENERATE (R303). -/
def execGenerate (f : FnId) (r : RingId) (q : PktSeq) (s : State) : Res := s.seqPacket f r q 0x22 0 []

/-- CANCEL with KIND 0 (R258, R304). -/
def execCancelSequence (f : FnId) (r : RingId) (q : PktSeq) (s : State) : Res :=
  s.seqPacket f r q 0x23 0 [] (fun p => decide (p.byte 16 = 0))

/-- CLOSE_SEQUENCE (R305). -/
def execCloseSequence (f : FnId) (r : RingId) (q : PktSeq) (s : State) : Res := s.seqPacket f r q 0x24 0 []

/-- FORK_SEQUENCE (R262, R306). -/
def execForkSequence (f : FnId) (r : RingId) (q : PktSeq) (slot : BitVec 15) (pages : List Nat) (s : State) : Res :=
  s.seqPacket f r q 0x25 slot.toNat pages

/-- SNAPSHOT_SEQUENCE (R307). -/
def execSnapshotSequence (f : FnId) (r : RingId) (q : PktSeq) (s : State) : Res := s.seqPacket f r q 0x26 0 []

/-- RESTORE_SEQUENCE (R308). -/
def execRestoreSequence (f : FnId) (r : RingId) (q : PktSeq) (slot : BitVec 15) (pages : List Nat) (s : State) : Res :=
  s.seqPacket f r q 0x27 slot.toNat pages

end Sys2Proof.Machine
end

