-- ==== Sys2Proof/Machine/Programs.lean ====
section
/-! DEFINITION. Raw programs (R94 to R96, R259, R304, R309), and how a die leaves the scheduler and returns to it (R451 to
R454). -/

namespace Sys2Proof.Machine

/-! ### A die leaves and returns (R451, R452, R454) -/

/-- The dies of d's quadrant. -/
def quadDies (d : Nat) : List Nat := (List.range 4).map (d / 4 * 4 + ·)

/-- Expert slots of die x that are homes of an expert of a layer. -/
def usedSlots (m : List (Nat × Nat)) (layer x : Nat) : List Nat :=
  (m.filter (fun e => e.1 / 512 = layer && bit e.2 38)).flatMap (fun e =>
    ((List.range (bits e.2 37 36 + 1)).map (fun i => bits e.2 (9 * i + 8) (9 * i))).filter (fun h => h / 32 = x) |>.map (· % 32))

/-- An expert map entry with NREP + 1 homes (R155). -/
def expertEntry (homes : List Nat) : Nat :=
  (homes.zipIdx.foldl (fun n h => n + (h.1 <<< (9 * h.2))) 0) + ((homes.length - 1) <<< 36) + (1 <<< 38)

/-- The homes of an entry. -/
def entryHomes (e : Nat) : List Nat := (List.range (bits e 37 36 + 1)).map (fun i => bits e (9 * i + 8) (9 * i))

/-- R452 on one layer: homes on die d go, in ascending expert ID, to the surviving dies in rotation. A die with 32 experts has no
free slot left, and the slot is then an open value (log entry 4). -/
def rehomeLayer (surv : List Nat) (d layer : Nat) (m : List (Nat × Nat)) : List (Nat × Nat) :=
  ((m.filter (fun e => e.1 / 512 = layer)).foldl (fun (a : List (Nat × Nat) × Nat) e =>
    let hs := entryHomes e.2
    if !bit e.2 38 || !hs.any (fun h => h / 32 = d) then a
    else
      let left := hs.filter (fun h => h / 32 ≠ d)
      if !left.isEmpty then (mapPut a.1 e.1 (expertEntry left), a.2)
      else
        let x := surv.getD (a.2 % max 1 surv.length) d
        let slot := ((List.range 32).find? (fun j => !(usedSlots a.1 layer x).contains j)).getD (Config.unstated 452 e.1 % 32)
        (mapPut a.1 e.1 (expertEntry [32 * x + slot]), a.2 + 1)) (m, 0)).1

/-- The group entries that firmware keeps for its layer programs: those of cores that no raw program holds (R148). -/
def State.servedGroups (s : State) : List Group :=
  (s.coresUp.filter (fun g => !s.heldByProgram g)).flatMap (fun g => ((List.range 16).map (s.group g)).filter (·.valid))

/-- The main image's expert map changes, and with it the map in memory at EMAP of every group that uses it (R155). -/
def State.setExpertMap (s : State) (i : Image) (m : List (Nat × Nat)) : State :=
  let s := { s with srv := { s.srv with main := some { i with expertMap := m } } }
  (s.servedGroups.map (·.emap)).eraseDups.foldl (fun s a =>
    (m.filter (fun x => mapFind i.expertMap x.1 ≠ some x.2)).foldl (fun s x => s.fwWrite (a + 8 * x.1) (natLe x.2 8)) s) s

/-- An expert map without homes on die d (R452). -/
def State.rehomed (s : State) (layers d : Nat) (m : List (Nat × Nat)) : List (Nat × Nat) :=
  let surv := (quadDies d).filter (fun x => x ≠ d && s.dieSched x)
  (List.range layers).foldl (fun m l => rehomeLayer surv d l m) m

/-- The expert homes on die d move (R452). -/
def State.rehomeExperts (s : State) (d : Nat) : State :=
  match s.srv.main with
  | none => s
  | some i => s.setExpertMap i (s.rehomed i.layers d i.expertMap)

/-- The placement section's homes (R24, R155), by 512 × layer + expert. -/
def placement (i : Image) : List (Nat × Nat) :=
  let routed := max 1 (i.h 0x020 2)
  i.info.homes.zipIdx.foldl (fun m h => mapPut m (512 * (h.2 / routed) + h.2 % routed) (expertEntry [h.1.1 % 16 * 32 + h.1.2 % 32])) []

/-- The expert map as the placement section and the dies that are out make it (R452, R454). -/
def State.placeExperts (s : State) : State :=
  match s.srv.main with
  | none => s
  | some i => s.setExpertMap i (((List.range 16).filter (fun d => !s.dieSched d)).foldl (fun m d => s.rehomed i.layers d m) (placement i))

/-- The member maps of those groups, with their numbers of members. -/
def State.servedMaps (s : State) : List (Nat × Nat) := (s.servedGroups.map (fun e => (e.map, e.members))).eraseDups

/-- Member i of a member map goes to core g; where it came from is kept. -/
def State.moveMember (s : State) (map i g : Nat) : State :=
  let old := s.mem.nat (map + 2 * i) 2 % 512
  let moved := if s.srv.moved.any (fun x => decide (x.1 = (map, i))) then s.srv.moved else s.srv.moved ++ [((map, i), old)]
  ({ s with srv := { s.srv with moved := moved } }).fwWrite (map + 2 * i) (natLe g 2)

/-- The logical partitions of die d go, in ascending order, to the cores of the surviving dies of its quadrant, in ascending core number
and in rotation (R453). The model moves them with deterministic mode off too (DESIGN CHOICE, log entry 113). -/
def State.moveOff (s : State) (d : Nat) : State :=
  let surv := s.coresUp.filter (fun g => decide (g / 32 ≠ d) && (quadDies d).contains (g / 32) && s.dieSched (g / 32))
  s.servedMaps.foldl (fun s m =>
    ((s.memberMap m.1 m.2).zipIdx.filter (fun x => x.1 / 32 = d)).zipIdx.foldl (fun s x =>
      match surv[x.2 % max 1 surv.length]? with
      | some g => s.moveMember m.1 x.1.2 g
      | none => s) s) s

/-- Partitions whose core is back in the scheduler go home (R454: the die rejoins the step plans; DESIGN CHOICE, log entry 113). -/
def State.movesHome (s : State) : State :=
  let home (x : (Nat × Nat) × Nat) : Bool := s.coreUp x.2 && s.dieSched (x.2 / 32)
  let l := s.srv.moved.filter home
  l.foldl (fun s x => s.fwWrite (x.1.1 + 2 * x.1.2) (natLe x.2 2)) { s with srv := { s.srv with moved := s.srv.moved.filter (!home ·) } }

/-- What changes when dies come back (R454): expert homes and partitions. -/
def State.rejoin (s : State) : State := s.placeExperts.movesHome

/-- Sequences homed on die d move to the die of its quadrant with the fewest open sequences, ties to the lower (R252). -/
def State.rehomeSeqs (s : State) (d : Nat) : State :=
  (s.srv.seqs.filter (fun x => x.2.home = d)).foldl (fun s x =>
    let load (e : Nat) : Nat := (s.srv.seqs.filter (fun y => y.2.home = e)).length
    match sortBy (fun (a b : Nat) => decide (load a < load b)) ((quadDies d).filter (fun e => e ≠ d && s.dieSched e)) with
    | e :: _ => s.putSeq x.1 { x.2 with home := e }
    | [] => s) s

/-- The data caches of agents write back their M lines, and every directory entry loses them (R451 step 4). -/
def State.dropAgents (s : State) (p : Nat → Bool) : State :=
  let c := s.coh
  let grps := (List.range 68).filter (fun g => (agentsOf g).all p)
  let dir := c.dir.filterMap (fun e =>
    match e.2.st with
    | .owned a => if p a && e.2.trans.isNone then none else some e
    | .shared gs =>
      let gs' := gs.filter (fun g => !grps.contains g)
      if gs'.isEmpty && e.2.trans.isNone then none else some (e.1, { e.2 with st := .shared gs' }))
  { s with coh := { c with held := c.held.filter (fun h => !p h.1), wbuf := c.wbuf.filter (fun w => !p w.1), dir := dir,
                           reqs := c.reqs.filter (fun r => !p r.1) } }

/-- The rows that exchanges brought to die d are discarded (R451). -/
def State.dropXbuf (s : State) (d : Nat) : State :=
  { s with exchanges := s.exchanges.map (fun x => { x with rows := mapDel x.rows d, left := mapDel x.left d }) }

/-- A die leaves the scheduler (R451 steps 2 to 4): sequences, expert homes and partitions move, its promoted pages are demoted, its Finder
staging and exchange buffer are discarded, its caches are written back. -/
def State.leaveDie (s : State) (d : Nat) : State :=
  let s := ((((s.rehomeSeqs d).rehomeExperts d).moveOff d).demoteDie d).dropStaging d
  let s := s.dropXbuf d
  s.dropAgents (fun a => decide (a / 32 = d) && decide (a < 512))

/-! ### RUN_PROGRAM (R94, R259, R309) -/

/-- The cores that a bitmap names (R309). -/
def coresOf (bm : Bytes) : List Nat := (List.range 512).filter (fun g => bit (bm.getD (g / 8) 0).toNat (g % 8))

/-- The dies that a core set is made of, if it is made of whole dies. -/
def wholeDies (set : List Nat) : Option (List Nat) :=
  let ds := (List.range 16).filter (fun d => set.any (fun g => g / 32 = d))
  if ds.all (fun d => (List.range 32).all (fun i => set.contains (32 * d + i))) then some ds else none

/-- The dies to release for a core set (R259): none of them for every core in service; none where the set is not allowed. -/
def State.coreSet (s : State) (set : List Nat) : Option (List Nat) :=
  if s.srv.main.isNone || set = s.coresUp then some []
  else
    match wholeDies set with
    | none => none
    | some ds =>
      let keeps (q : Nat) : Bool := decide (3 ≤ ((quadDies (4 * q)).filter (fun d => s.dieSched d && !ds.contains d)).length)
      if (List.range 4).all keeps then some ds else none

/-- The entry state of one core of a program (R94), with every accumulator entry +0 (R103). A time limit that reaches beyond the
largest mcycle never expires (R309). -/
def State.enterCore (s : State) (p : Program) (g idx n : Nat) : State :=
  let c := s.core g
  let ctx := s.ctx p.ctx
  let w := p.ctx + ctx.pasid * 2 ^ 12 + b2n ctx.merge * 2 ^ 32 + 2 ^ 33
  let x := [(2, BitVec.ofNat 64 0x4000_0000_000F_0000), (10, p.arg), (11, BitVec.ofNat 64 idx), (12, BitVec.ofNat 64 n)].foldl
    (fun m (r : Nat × Word) => mapSet 0 m r.1 r.2) []
  let c := { c with
    machineMode := false, parked := false, pc := p.entry, x := x, wctx := BitVec.ofNat 64 w, mcounteren := 0x7FD,
    wcyccmp := if p.limit = 0 then 0xFFFF_FFFF_FFFF_FFFF else BitVec.ofNat 64 (min (2 ^ 64 - 1) (c.mcycle.toNat + p.limit))
    wsemovf := 0, wbstat := 0, wengerr := 0, wait := .none, resv := none, sems := [], semWaits := [], queues := [],
    barriers := [], acc := [], accPoison := [], residentTag := p.ctx }
  let d := s.draw
  let base := coreSramPa g 0
  let s := d.2.setCore g c
  let m := s.mem.zero base 0xF_0000
  { s with mem := { m with scratch := mapPut m.scratch g d.1 } }

/-- No collective has been issued on the groups of a program's cores (R150). -/
def State.freshGroups (s : State) (set : List Nat) : State :=
  let maps := set.flatMap (fun g => (((List.range 16).map (s.group g)).filter (·.valid)).map (·.map))
  { s with issues := s.issues.filter (fun x => !maps.contains (x.1 / 512)) }

/-- A program that waits starts (R259, R309), unless a load runs, or a started program holds a core of its set. A set that is
not allowed now ends it. -/
def State.startProgram (s : State) (p : Program) : State :=
  if s.srv.loading.isSome then s
  else
    let set := if p.cores.isEmpty then s.coresUp else p.cores.map (·.g)
    if s.srv.programs.any (fun x => x.started && x.cores.any (fun c => set.contains c.g)) then s
    else
      let del (s : State) : State := { s with srv := { s.srv with programs := s.srv.programs.filter (fun x => x ≠ p) } }
      if set.isEmpty then (del s).finish p.f p.r p.q stBad []
      else if !set.all s.coreUp then (del s).finish p.f p.r p.q stNoResource []
      else
        match s.coreSet set with
        | none => (del s).finish p.f p.r p.q stNoResource []
        | some ds =>
          let cores := set.map (fun g => { g := g, exited := false, code := 0, result := 0, calls := 0 : ProgCore })
          let p' := { p with started := true, cores := cores, dies := ds }
          let s := { s with srv := { s.srv with programs := s.srv.programs.map (fun x => if x = p then p' else x),
                                                released := ds.foldl setAdd s.srv.released } }
          let s := (ds.foldl (fun s d => s.leaveDie d) s).freshGroups set
          (set.zipIdx.foldl (fun s g => s.enterCore p' g.1 g.2 set.length) s).ltr

/-- Dies of programs that have ended return to the scheduler (R259, R454). -/
def State.returnDies (s : State) : State :=
  let held := (s.srv.programs.filter (·.started)).flatMap (·.dies)
  let gone := s.srv.released.filter (fun d => !held.contains d)
  if gone.isEmpty then s
  else ({ s with srv := { s.srv with released := s.srv.released.filter held.contains } }).rejoin

/-- Waiting programs start, and released dies return, at a step boundary (R259). -/
def State.boundaryPrograms (s : State) : State :=
  if s.srv.step.isSome then s
  else
    let s := s.returnDies
    (s.srv.programs.filter (fun p => !p.started && decide (p.ending = .running))).foldl (fun s p => s.startProgram p) s

/-- A core set that RUN_PROGRAM names is refused with NO_RESOURCE (R259, R309). One that overlaps the set of a running program waits,
and is judged by the dies that it finds then. -/
def State.coreSetRefused (s : State) (set : List Nat) : Bool :=
  if s.srv.programs.any (fun x => x.started && x.cores.any (fun c => set.contains c.g)) then
    s.srv.main.isSome && decide (set ≠ s.coresUp) && (wholeDies set).isNone
  else (s.coreSet set).isNone

/-- RUN_PROGRAM (R309): the core set is read, and the program waits for the next step boundary. -/
def execRunProgram (f : FnId) (r : RingId) (q : PktSeq) (s : State) : Res :=
  s.packet f r q 0x30 (fun _ => true) (fun p s =>
    if (s.progOf f r q).isSome then s.boundaryPrograms
    else if s.standbyHolds then s.finish f r q stDenied []
    else
      let b := if p.field 32 8 = 0 then (.data [], s) else s.readBuf (pktW f r q) p.ctx (p.field 32 8) 64
      match b with
      | (.wait, s) => s
      | (.failed _, s) => s.finish f r q stFaulted []
      | (.data bm, s) =>
        let set := coresOf bm
        if p.field 32 8 ≠ 0 ∧ set = [] then s.finish f r q stBad []
        else if !set.all s.coreUp || (p.field 32 8 ≠ 0 && s.coreSetRefused set) then s.finish f r q stNoResource []
        else
          let g : Program :=
            { f := f, r := r, q := q, ctx := p.ctx, entry := BitVec.ofNat 64 (p.field 16 8), arg := BitVec.ofNat 64 (p.field 24 8),
              limit := p.field 40 8, buf := p.field 48 8, started := false,
              cores := set.map (fun g => { g := g, exited := false, code := 0, result := 0, calls := 0 }), ending := .running,
              fault := none, dies := [], silent := false }
          State.boundaryPrograms { s with srv := { s.srv with programs := s.srv.programs ++ [g] } })

/-- CANCEL with KIND 1 (R96, R304): the RUN_PROGRAM packet of this ring with the SEQ named ends ABORTED, whether or not its program
waits or runs yet; CANCEL completes DONE. -/
def execCancelProgram (f : FnId) (r : RingId) (q : PktSeq) (s : State) : Res :=
  s.packet f r q 0x23 (fun p => decide (p.byte 16 = 1)) (fun p s =>
    if s.standbyHolds then s.finish f r q stDenied []
    else
      let n := BitVec.ofNat 16 (p.field 24 2)
      let s := match s.progOf f r n with
        | some g => s.cancelProg g
        | none => if ((s.ring f r).pkt n).any (fun (y : Pkt) => decide (y.opcode = 0x30)) then s.finish f r n stAborted [] else s
      s.finish f r q stDone [])

/-! ### PROGRAM_END (R96, R309) -/

/-- A queue needs nothing more before a program's completion (R96). done: empty or halted. Otherwise every started command has
run, but for a DMA descriptor that waits on a page or on a collective's members, which ends. -/
def Core.queueQuiet (c : Core) (q : Nat) (done : Bool) : Bool :=
  c.halted q || (c.queue q).items.all (fun i =>
    match i with
    | .cmd x => !done && (decide (x.phase = .finished) || decide (x.phase = .released) ||
        (decide (2 ≤ q) && decide (x.phase = .started) && (x.checked || x.joined)))
    | .marker _ => false)

/-- A device pointer names memory that a declared path carries (R285): FLUSH_DC the device cache, FLUSH_HDM HDM. -/
def declared (dc hdm : Bool) (ptr : Nat) : Bool := (space ptr = 0 && (dc || hdm)) || (space ptr = 1 && hdm)

/-- A core goes back from a program to firmware (R96): queues discarded, semaphores cleared, the image's codebooks written. -/
def returnCore (img : Option Image) (c : Core) : Core :=
  { Core.reset with
    hpm := c.hpm, mcycle := c.mcycle, minstret := c.minstret, mtvec := c.mtvec, mie := c.mie, sb := c.sb, deadWrites := c.deadWrites,
    acc := c.acc, accPoison := c.accPoison, icache := c.icache
    cb := match img with
      | some i => (List.range 255).foldl (fun m j =>
          if 16 * j + 16 ≤ i.codebooks.length then mapPut m (j + 1) (sliceBytes i.codebooks (16 * j) 16) else m) []
      | none => c.cb }

/-- RESULT of a program (R309). -/
def Program.result (p : Program) : Bytes :=
  match p.ending, p.fault with
  | .done, _ => natLe p.cores.length 2
  | .faulted, some (g, queue, code, cause, tval) =>
    let mc := cause.toNat % 2 ^ 31 + b2n (bit cause.toNat 63) * 2 ^ 31
    natLe g 2 ++ natLe code 1 ++ natLe queue 1 ++ natLe mc 4 ++ natLe tval.toNat 8
  | _, _ => []

/-- Status of a program's end. -/
def Program.status (p : Program) : Nat :=
  match p.ending with
  | .done => stDone
  | .faulted => stFaulted
  | _ => stAborted

/-- The cores of a program go back to firmware, and what they waited for is forgotten. -/
def State.releaseCores (s : State) (p : Program) : State :=
  let cores := if p.started then p.cores else []
  let mine (g : Nat) : Bool := cores.any (fun c => c.g = g)
  let s := cores.foldl (fun s c => s.modCore c.g (returnCore s.srv.main)) s
  let keep (w : Waiter) : Bool := match waiterCore w with
    | some g => !mine g
    | none => true
  { s with joins := s.joins.filter (fun j => !mine j.g)
           xlt := { s.xlt with waits := s.xlt.waits.filter (fun w => keep w.who) }
           port := { s.port with ioReads := s.port.ioReads.filter (fun r => keep r.who) }
           srv := { s.srv with programs := s.srv.programs.filter (fun x => !(x.f = p.f && x.r = p.r && x.q = p.q)) } }

/-- PROGRAM_END (R96, R309, R320): with every queue quiet, RESULT_BUF is written, the completion produced, and the cores
returned. A program that was cancelled before it started has no core to quiet. -/
def execProgramEnd (f : FnId) (r : RingId) (q : PktSeq) (s : State) : Res :=
  match s.progOf f r q with
  | none => .next s
  | some p =>
    let done := decide (p.ending = .done)
    let quiet := !p.started || p.cores.all (fun c => (List.range 4).all (fun i => (s.core c.g).queueQuiet i done))
    let pkt := (s.ring f r).pkt q
    let dc := pkt.any (·.flushDc)
    let hdm := pkt.any (·.flushHdm)
    let flushed := !p.started || p.cores.all (fun c => (s.core c.g).sb.all (fun e => !declared dc hdm e.ptr.toNat))
    if decide (p.ending = .running) || !quiet || !flushed then .next s
    else
      let finish (s : State) (st : Nat) (res : Bytes) (ws : List Planned) : State :=
        let s := (s.releaseCores p).boundaryPrograms.ltr
        if p.silent then s else s.finishWith f r q st res ws false
      if p.silent || p.buf = 0 then .next (finish s p.status p.result [])
      else
        let bs := p.cores.flatMap (fun c => natLe c.code.toNat 8 ++ natLe c.result.toNat 8)
        match s.planBuf (pktW f r q) p.ctx p.buf bs (pkt.any (·.direct)) with
        | (.wait, s) => .next s
        | (.ok ws, s) => .next (finish s p.status p.result ws)
        | (.failed at_ ws, s) => .next (finish s stFaulted (natLe 0xFFFF 2 ++ [0, 0xFE] ++ natLe 0 4 ++ natLe at_ 8) ws)

end Sys2Proof.Machine
end

