-- ==== Sys2Proof/Machine/Steps.lean ====
section
/-! DEFINITION. Steps of the serving loop (R254 to R257, R260, R261, R264, R268, R274 to R276): forming the batch, the samplers'
results, and commit. -/

namespace Sys2Proof.Machine

/-! ### Scheduler parameters (R253) -/

def Srv.stepRows (v : Srv) : Nat := fieldLe v.sched 0 2
def Srv.maxDecode (v : Srv) : Nat := fieldLe v.sched 2 2
def Srv.chunkTokens (v : Srv) : Nat := fieldLe v.sched 4 2
def Srv.prefillMin (v : Srv) : Nat := fieldLe v.sched 6 2
def Srv.draftMax (v : Srv) : Nat := fieldLe v.sched 8 1

/-! ### Pages and eviction at T0 (R260, R261, R264) -/

/-- The sequence evicted next for the good of another: an IDLE one, least recently committed, then a PREFILL or DECODE one that
is not in the batch, lowest priority and most recently opened first. One that holds no page, or whose output waits, gives
nothing. -/
def State.victim (s : State) (slot : Nat) (batch : List Nat) : Option Nat :=
  let can (x : Nat × Sequence) : Bool := decide (x.1 ≠ slot) && (!x.2.pages.isEmpty || x.2.ring.isSome || x.2.tables.isSome) && x.2.late.isNone
  let idle := s.srv.seqs.filter (fun x => can x && decide (x.2.st = .idle))
  let busy := s.srv.seqs.filter (fun x => can x && (decide (x.2.st = .prefill) || decide (x.2.st = .decode)) && !batch.contains x.1)
  let first (lt : Sequence → Sequence → Bool) (l : List (Nat × Sequence)) : Option Nat :=
    ((sortBy (fun (a b : Nat × Sequence) => lt a.2 b.2) l).head?).map (·.1)
  match first (fun a b => decide (a.committed < b.committed)) idle with
  | some v => some v
  | none => first (fun a b => decide (a.prio < b.prio) || (decide (a.prio = b.prio) && decide (b.opened < a.opened))) busy

/-- The pages for positions below upto are allocated, with eviction where evict allows (R264). True: the sequence has them. n
bounds the work. -/
def State.needPages : Nat → State → Nat → Nat → List Nat → Bool → List Nat → Bool × List Nat × State
  | 0, s, _, _, _, _, avail => (false, avail, s)
  | n + 1, s, slot, upto, batch, evict, avail =>
    match s.seq slot with
    | none => (false, avail, s)
    | some x =>
      match s.lacks x upto with
      | none => (true, avail, s)
      | some k =>
        match s.givePlace slot k.1 k.2 avail with
        | some (l, s) => s.needPages n slot upto batch evict l
        | none =>
          match if evict then s.victim slot batch else none with
          | some v => (s.evictSeq v).needPages n slot upto batch evict avail
          | none => (false, avail, s)

/-- A bound on the work of needPages. -/
def State.pageFuel (s : State) (upto : Nat) : Nat :=
  ([false, true].map (fun d => ((s.kvImage d).map (fun i => i.setsFor upto)).getD 0)).sum + s.srv.seqs.length + 5

/-! ### The batch (R254, R274) -/

/-- The batch while it is formed: the state, its rows, the rows spent, and the free places. -/
structure Forming where
  s : State
  batch : List BatchRow
  used : Nat
  avail : List Nat

/-- Pages for a sequence of the batch; a sequence that cannot have them enters FAILED with reason 8 (R264). -/
def Forming.pages (b : Forming) (slot upto : Nat) : Bool × Forming :=
  let t := b.s.needPages (b.s.pageFuel upto) slot upto (b.batch.map (·.slot)) true b.avail
  (t.1, { b with s := if t.1 then t.2.2 else t.2.2.failSeq slot 8, avail := t.2.1 })

/-- The function of a sequence's context may be served: it can send, so that its output can leave (R338, R339). -/
def State.servable (s : State) (x : Sequence) : Bool := s.sends (s.ctx x.ctx).func && x.late.isNone

/-- Phase 1 on one sequence: one row. -/
def Forming.decode (budget : Nat) (b : Forming) (slot : Nat) : Forming :=
  match b.s.seq slot with
  | none => b
  | some x =>
    if x.st ≠ .decode ∨ b.s.srv.maxDecode ≤ b.batch.length ∨ 4096 ≤ b.batch.length ∨ budget ≤ b.used then b
    else
      let n := x.history.length
      let r := b.pages slot n
      if r.1 then { r.2 with batch := r.2.batch ++ [{ slot := slot, decode := true, start := n - 1, rows := 1, d := 0, samples := true }],
                             used := r.2.used + 1 }
      else r.2

/-- The requested draft length of a sequence (R274). -/
def Srv.draftLen (v : Srv) (i : Image) (x : Sequence) : Nat :=
  if v.draft.isNone then 0
  else
    let emitted := (x.generate.map (·.emitted)).getD 0
    min (min (pDraftLen x.params) v.draftMax) (min (pMaxNew x.params - emitted - 1) (i.maxContext - x.history.length - 1))

/-- Phase 2 on one row of the batch: its draft rows, or its leaving. -/
def Forming.drafts (i : Image) (budget : Nat) (b : Forming) (row : BatchRow) : Forming :=
  match b.s.seq row.slot with
  | none => b
  | some x =>
    let leave (b : Forming) : Forming := { b with batch := b.batch.filter (fun y => y.slot ≠ row.slot) }
    let d := b.s.srv.draftLen i x
    let room := budget - b.used
    if room < d && pDraftFixed x.params then leave b
    else
      let d := min d room
      if d = 0 then b
      else
        let r := b.pages row.slot (x.history.length + d)
        if r.1 then
          { r.2 with batch := r.2.batch.map (fun y => if y.slot = row.slot then { y with rows := 1 + d, d := d } else y),
                     used := r.2.used + d }
        else leave r.2

/-- Phase 3 on one sequence: a chunk of its prompt, or of a rebuild. -/
def Forming.prefill (b : Forming) (slot : Nat) : Forming :=
  match b.s.seq slot with
  | none => b
  | some x =>
    let rebuild := decide (x.st = .evicted)
    let first := if rebuild then x.rebuilt else x.stored
    let last := if rebuild then x.stored else x.history.length
    let k := min (min b.s.srv.chunkTokens (last - first)) (b.s.srv.stepRows - b.used)
    if !(rebuild || decide (x.st = .prefill)) || decide (k = 0) || decide (4096 ≤ b.batch.length) then b
    else
      let r := b.pages slot (if rebuild then last else first + k)
      if r.1 then
        { r.2 with
          batch := r.2.batch ++ [{ slot := slot, decode := false, start := first, rows := k, d := 0,
                                   samples := !rebuild && x.generate.isSome && decide (first + k = last) }]
          used := r.2.used + k }
      else r.2

/-- Evicted sequences whose page sets the pool can hold begin their rebuild; one with nothing stored returns at once (R264). -/
def State.startRebuilds (s : State) (avail : List Nat) : List Nat × State :=
  let l := sortBy (fun (a b : Nat × Sequence) => decide (b.2.prio < a.2.prio)) (s.srv.seqs.filter (fun x => decide (x.2.st = .evicted)))
  l.foldl (fun (a : List Nat × State) e =>
    match a.2.seq e.1 with
    | none => a
    | some x =>
      if x.stored = 0 then
        let t := a.2.tick
        (a.1, (t.2.putSeq e.1 { x with st := x.back, entered := if x.back = .prefill then t.1 else x.entered }).ltr)
      else if x.tables.isNone then
        let t := a.2.needPages (a.2.pageFuel x.stored) e.1 x.stored [] false a.1
        if t.1 then
          let k := t.2.2.tick
          match k.2.seq e.1 with
          | some y => (t.2.1, k.2.putSeq e.1 { y with entered := k.1, rebuilt := 0 })
          | none => a
        else a
      else a) (avail, s)

/-- The batch of a step. -/
def State.form (s : State) (i : Image) (avail : List Nat) : Forming :=
  let budget := s.srv.stepRows - (if s.srv.seqs.any (fun x => decide (x.2.st = .prefill)) then s.srv.prefillMin else 0)
  let dec := sortBy (fun (a b : Nat × Sequence) => decide (b.2.prio < a.2.prio) ||
    (decide (a.2.prio = b.2.prio) && decide (a.2.served < b.2.served)))
    (s.srv.seqs.filter (fun x => decide (x.2.st = .decode) && s.servable x.2))
  let b := dec.foldl (fun (b : Forming) x => b.decode budget x.1) { s := s, batch := [], used := 0, avail := avail }
  let b := b.batch.foldl (fun (b : Forming) row => b.drafts i budget row) b
  let r := b.s.startRebuilds b.avail
  let b := { b with s := r.2, avail := r.1 }
  let pre := sortBy (fun (x y : Nat × Sequence) => decide (y.2.prio < x.2.prio) ||
    (decide (x.2.prio = y.2.prio) && decide (x.2.entered < y.2.entered)))
    (b.s.srv.seqs.filter (fun x => (decide (x.2.st = .prefill) ||
      (decide (x.2.st = .evicted) && x.2.tables.isSome)) && b.s.servable x.2))
  pre.foldl (fun (b : Forming) x => b.prefill x.1) b

/-! ### Running a step (R255, R257) -/

/-- T1: each core of the scheduler has its step record and interrupt 11 (R255). -/
def State.raiseCores (s : State) : State :=
  (s.coresUp.filter (fun g => s.dieSched (g / 32))).foldl (fun s g =>
    s.modCore g (fun c => { c with mip := c.mip ||| 0x800, stepRecord := some s.srv.stepNo })) s

/-- A step starts with a batch; an empty batch is no step. -/
def State.startStep (s : State) (batch : List BatchRow) (rest : List (List BatchRow)) : State :=
  if batch.isEmpty then s
  else
    let n := s.srv.stepNo + 1
    State.raiseCores { s.freshLayers with srv := { s.srv with
      stepNo := n, step := some { number := n, batch := batch, outs := [], rest := rest, rerun := false } } }

/-- A raw program holds every core in service while a main image is loaded (R259). -/
def State.wholeProgram (s : State) : Bool := s.srv.programs.any (fun p => p.started && p.dies.isEmpty)

/-- STEP_BOUNDARY (R255 T0, T1): commands are applied, programs start, and the batch of the next step is formed, with the places
that firmware found free for pages. -/
def execStepBoundary (pages : List Nat) (s : State) : Res :=
  if s.srv.step.isSome then .next s
  else
    let s := s.boundary.boundaryPrograms
    match s.srv.main with
    | none => .next s
    | some i =>
      if s.wholeProgram || s.standbyHolds || s.port.frozen then .next s
      else
        let b := s.form i pages
        .next (b.s.promotePages.startStep b.batch [])

/-! ### Samplers (R268, R275, R276) -/

/-- The row of a slot in the step in flight. -/
def State.stepRow (s : State) (slot : Nat) : Option (Step × BatchRow × StepOut) :=
  match s.srv.step with
  | none => none
  | some st =>
    match st.batch.find? (fun r => r.slot = slot) with
    | none => none
    | some r => some (st, r, (st.outs.find? (fun o => o.slot = slot)).getD
        { slot := slot, drafts := [], draftsEnd := false, emits := [], sampled := false, maskEmpty := false, nan := false })

/-- The state with a slot's result replaced. -/
def State.putOut (s : State) (st : Step) (o : StepOut) : State :=
  { s with srv := { s.srv with step := some { st with outs := st.outs.filter (fun x => x.slot ≠ o.slot) ++ [o] } } }

/-- What the sampler is given for a position, with tokens that the step has added (R269). -/
def Sequence.sampleIn (x : Sequence) (added : List Nat) : SampleIn :=
  let all := x.history ++ added
  { params := x.params, bias := x.bias, mask := x.mask, key := x.key, seqId := natLe x.seqId.toNat 8,
    win := all.drop (all.length - pWindow x.params) }

/-- A row of logits of the main image. -/
def State.rowOk (s : State) (row : Words32) : Bool := s.srv.main.any (fun i => decide (row.length = i.vocab))

/-- The logits of a row whose tokens are toks: with deterministic mode on, a function of the image and the tokens (R57, R58, R60); with
the mode off, what the layer programs bring (log entry 57). -/
def State.logitsOf (s : State) (draft : Bool) (toks : List Nat) (given : Words32) : Words32 :=
  match s.boot.deterministic, if draft then s.srv.draft else s.srv.main with
  | true, some i => (List.range i.vocab).map (fun t => Config.logit i.digest toks t)
  | _, _ => given

/-- The logits of the verification rows of a sequence: row j follows the first j proposals. -/
def State.verifyLogits (s : State) (x : Sequence) (o : StepOut) (given : List Words32) : List Words32 :=
  if s.boot.deterministic then
    (List.range (o.drafts.length + 1)).map (fun j =>
      s.logitsOf false (x.history ++ (o.drafts.take j).map (·.1)) (given.getD j []))
  else given

/-- DRAFT_SAMPLE (R275): the next proposal of a sequence from the draft image's logits. The spec states no proposal for logits
that hold a NaN: the token and its e are then open values (log entry 4). -/
def execDraftSample (slot : BitVec 15) (logits : Words32) (s : State) : Res :=
  match s.stepRow slot.toNat, s.seq slot.toNat with
  | some (st, row, o), some x =>
    let logits := s.logitsOf true (x.history ++ o.drafts.map (·.1)) logits
    if o.draftsEnd || o.sampled || decide (row.d ≤ o.drafts.length) || !s.rowOk logits then .next s
    else
      let pos := x.history.length + o.drafts.length
      if rowNan logits then
        let t := Config.unstated 275 (2 * pos) % logits.length
        .next (s.putOut st { o with drafts := o.drafts ++ [(t, [(t, BitVec.ofNat 32 (Config.unstated 275 (2 * pos + 1)))])] })
      else
        match (x.sampleIn (o.drafts.map (·.1))).propose logits pos with
        | some d => .next (s.putOut st { o with drafts := o.drafts ++ [d] })
        | none => .next (s.putOut st { o with draftsEnd := true })
  | _, _ => .next s

/-- SAMPLE (R268): the token of a sampling row without drafts; a NaN logit is recorded (R257). -/
def execSample (slot : BitVec 15) (logits : Words32) (s : State) : Res :=
  match s.stepRow slot.toNat, s.seq slot.toNat with
  | some (st, row, o), some x =>
    let logits := s.logitsOf false x.history logits
    if !row.samples || decide (row.d ≠ 0) || o.sampled || !s.rowOk logits then .next s
    else if rowNan logits then .next (s.putOut st { o with sampled := true, nan := true })
    else
      match (x.sampleIn []).token logits x.history.length with
      | some e => .next (s.putOut st { o with sampled := true, emits := [e] })
      | none => .next (s.putOut st { o with sampled := true, maskEmpty := true })
  | _, _ => .next s

/-- VERIFY_DRAFTS (R276): the verification rows of a sequence with drafts, one more than it has proposals. -/
def execVerifyDrafts (slot : BitVec 15) (rows : List Words32) (s : State) : Res :=
  match s.stepRow slot.toNat, s.seq slot.toNat with
  | some (st, row, o), some x =>
    let rows := s.verifyLogits x o rows
    if !row.samples || decide (row.d = 0) || o.sampled || !(o.draftsEnd || decide (o.drafts.length = row.d)) ||
        decide (rows.length ≠ o.drafts.length + 1) || !rows.all s.rowOk then .next s
    else if rows.any rowNan then .next (s.putOut st { o with sampled := true, nan := true })
    else
      let r := verifyAll x.sampleIn x.history.length o.drafts rows []
      .next (s.putOut st { o with sampled := true, emits := r.1, maskEmpty := r.2 })
  | _, _ => .next s

/-! ### Commit (R256, R257) -/

/-- The halves of a batch (R257): decode and prefill sets each split in batch order. Where a set is odd, the first half has the
odd decode row and the second the odd prefill row (log entry 45). -/
def halves (l : List BatchRow) : List BatchRow × List BatchRow :=
  let d := l.filter (·.decode)
  let p := l.filter (fun r => !r.decode)
  (d.take ((d.length + 1) / 2) ++ p.take (p.length / 2), d.drop ((d.length + 1) / 2) ++ p.drop (p.length / 2))

/-- A row of a split batch may still run: its sequence stands where it stood when the batch was formed (R258). -/
def State.rowStands (s : State) (r : BatchRow) : Bool :=
  match s.seq r.slot with
  | none => false
  | some x => x.late.isNone &&
      (if r.decode then decide (x.st = .decode) && decide (r.start + 1 = x.history.length)
       else if x.st = .evicted then decide (r.start = x.rebuilt) && x.tables.isSome
       else decide (x.st = .prefill) && decide (r.start = x.stored) && decide (r.start + r.rows ≤ x.history.length))

/-- The first of some batches that has rows runs; between two of them is a step boundary, at which received commands take effect
(R255, R257, R258). -/
def State.runNext (s : State) : List (List BatchRow) → State
  | [] => s
  | b :: rest =>
    let b := b.filter s.rowStands
    if b.isEmpty then s.runNext rest else s.startStep b rest

/-- The step in flight ends; the next batch that a split left runs (R257). -/
def State.endStep (s : State) (rest : List (List BatchRow)) : State :=
  let s := { s with srv := { s.srv with step := none } }
  if rest.all (·.isEmpty) then s else s.boundary.runNext rest

/-- Every sequence of the step is committed; one whose output waits for a host page keeps its part (R256, R257). -/
def State.commitAll (s : State) (st : Step) : State :=
  let r := st.batch.foldl (fun (a : List Output × State) row =>
    let o := (st.outs.find? (fun o => o.slot = row.slot)).getD
      { slot := row.slot, drafts := [], draftsEnd := false, emits := [], sampled := false, maskEmpty := false, nan := false }
    match a.2.commitSeq row o with
    | (.ok out, s) => (a.1 ++ out.toList, s)
    | (.wait, s) =>
      match s.seq row.slot with
      | some x => (a.1, s.putSeq row.slot { x with late := some (row, o) })
      | none => (a.1, s)) ([], s)
  r.2.giveOut r.1

/-- STEP_COMMIT (R255 T6, R256, R257): commit when every sampling row is sampled; on an expert overflow the batch is split, on
another error it runs once more, and after a second one its sequences fail. -/
def execStepCommit (failure : StepFailure) (s : State) : Res :=
  match s.srv.step with
  | none => .next s
  | some st =>
    match failure with
    | .none =>
      if st.batch.any (fun r => r.samples && !st.outs.any (fun o => o.slot = r.slot && o.sampled)) then .next s
      else .next ((s.commitAll st).endStep st.rest)
    | .overflow =>
      let h := halves st.batch
      .next (s.endStep (h.1 :: h.2 :: st.rest))
    | .error sampler =>
      if !st.rerun then
        .next (State.raiseCores { s with srv := { s.srv with step := some { st with outs := [], rerun := true } } })
      else
        let s := st.batch.foldl (fun s r => s.failSeq r.slot 7) s
        let s := match sampler with
          | some slot => s.report (event 26 (unitHub 4 (((s.seq slot.toNat).map (fun (x : Sequence) => x.home)).getD 0 / 4)) slot.toNat)
          | none => s
        .next (s.endStep st.rest)

end Sys2Proof.Machine
end

