-- ==== Sys2Proof/Machine/Contexts.lean ====
section
/-! DEFINITION. IDENTIFY, and how a context is attached and detached (R188, R225, R240, R241, R288, R295, R297, R298, R365,
R391). -/

namespace Sys2Proof.Machine

/-- The entries of the carve granules of a grant, as the contexts that now hold them make them (R365). -/
def State.setGrants (s : State) (off len : Nat) : State :=
  (List.range (len / granuleBytes)).foldl (fun s j =>
    let o := off + j * granuleBytes
    let g := carvePa o
    let holders := s.ctxs.filter (fun c => c.2.valid && decide (c.2.hdmOff ≤ o) && decide (o < c.2.hdmOff + c.2.hdmBytes))
    let e : BitVec 32 := match holders with
      | [c] => BitVec.ofNat 32 (0x4000 + c.1)
      | _ => 0x5000
    { s with own := mapSet (s.ownDefault g) s.own g (e ||| (s.entryOf g &&& 0x40_0000)) }) s

/-! ### IDENTIFY (R295) -/

/-- The identity record. What firmware keeps of HBM for itself is an open value (log entry 4). -/
def State.identity (s : State) (f : Nat) : Bytes :=
  let digest (i : Option Image) : Bytes := sliceBytes ((i.map (·.digest)).getD []) 0 48
  let bs := natLe 0x1F5C 2 ++ natLe (if f = 0 then 0xA240 else 0xA241) 2 ++ [1] ++
    natLe (b2n s.boot.deterministic + 2 * b2n s.srv.main.isSome + 4 * b2n s.srv.draft.isSome) 1 ++
    natLe s.coresUp.length 2 ++ natLe s.boot.fwVersion.toNat 8 ++ natLe s.hbmServes 8 ++ natLe (s.hbmServes - (s.hbmTaken + Config.unstated 295 0)) 8 ++
    natLe s.coh.carveBytes 8 ++ digest s.srv.main ++ digest s.srv.draft ++ natLe f 1
  sliceBytes bs 0 4096

/-- IDENTIFY (R295): the record is written by CXL.io at a function address. -/
def execIdentify (f : FnId) (r : RingId) (q : PktSeq) (s : State) : Res :=
  s.packet f r q 0x01 (fun _ => true) (fun p s =>
    let va := p.field 16 8
    if !s.sends f then s
    else
      match s.resolve (pktW f r q) none 0 f noPasid va false true with
      | (.wait, s) => s
      | (.failed, s) => s.finish f r q stFaulted []
      | (.io, s) => s.finishWith f r q stDone [] [(2, noPasid * 2 ^ 64 + va, s.identity f)] false
      | (.ok hpa, s) => s.finishWith f r q stDone [] [(1, (s.hostTgt hpa).key, s.identity f)] false)

/-! ### ATTACH_CONTEXT (R297) -/

/-- A partition that contexts may have and none has. -/
def State.partFree (s : State) (p : Nat) : Bool :=
  decide (1 ≤ p) && decide (p < 64) && s.ctxs.all (fun c => !c.2.valid || decide (c.2.part ≠ p))

/-- Class-0 and class-1 RATE of a quadrant (R190). -/
def State.rateSum (s : State) (h : Nat) : Nat :=
  ((s.regulators.filter (fun r => r.1 / 64 = h && decide (r.2.cls ≠ 2))).map (fun r => r.2.rate.toNat)).sum

/-- The status that refuses an ATTACH_CONTEXT, if one does, up to its resources (R297). -/
def State.attachRefused (s : State) (f : Nat) (p : Pkt) : Option Nat :=
  let fl := p.byte 20
  let join := p.field 64 4
  let j := s.ctx (bits join 11 0)
  let joins := bit (p.byte 21) 0
  let same := s.ctxs.filter (fun c => c.2.valid && decide (c.2.func = f) && decide (c.2.pasid = p.field 16 4))
  if (f ≠ 0 ∧ (bit fl 4 ∨ bit fl 5)) ∨ (bit fl 5 ∧ ¬ bit fl 4) then some stDenied
  else if joins ∧ ¬ (j.valid ∧ j.func = f ∧ mapGet 0 s.ctxGens (bits join 11 0) = bits join 31 12) then some stDenied
  else if same.any (fun c => !c.2.draining) then some stDenied
  else if !same.isEmpty || (joins && j.draining) then some stBusy
  else none

/-- The granules of the images in service that an arena of so many bytes maps below ARENA_RO_BYTES (R225, R297): those of the main
image, then those of the draft image. An arena with no room for them and a granule of its own maps none (DESIGN CHOICE, log entry 116). -/
def State.roGranules (s : State) (bytes : Nat) : List Nat :=
  let gs := [s.srv.main, s.srv.draft].flatMap (fun i => (i.map (·.granules)).getD [])
  if gs.length < bytes / granuleBytes then gs else []

/-- The translation entry, keys, regulators and arena of a new context (R225, R190, R391, R188). -/
def State.attach (s : State) (f : Nat) (p : Pkt) (tag part : Nat) (gs : List Nat) : State :=
  let fl := p.byte 20
  let newPart := !bit (p.byte 21) 0
  let d := if newPart then s.draw else (0, s)
  let s := d.2
  let s := if newPart then { s with sec := { s.sec with partKeys := mapPut s.sec.partKeys part d.1 } } else s
  let reg : Regulator := { Regulator.reset with
    rate := BitVec.ofNat 16 (p.field 58 2), burst := BitVec.ofNat 16 (p.field 60 2),
    cls := BitVec.ofNat 2 (p.byte 62) }
  let s := if newPart then
      { s with regulators := (List.range 4).foldl (fun m h => mapSet Regulator.reset m (64 * h + part) reg) s.regulators }
    else s
  let bytes := p.field 24 8
  let ro := s.roGranules bytes
  let c : Ctx := { Ctx.none with
    valid := true, hostEn := bit fl 0, sv57 := bit fl 1, hdmWr := bit fl 2, merge := bit fl 3, privileged := bit fl 4,
    faultRec := bit fl 5, func := f, pasid := p.field 16 4,
    arena := (ro ++ gs).zipIdx.foldl (fun m a => mapSet 0 m a.2 a.1) [], arenaBytes := bytes, arenaRoBytes := ro.length * granuleBytes,
    hdmOff := p.field 32 8, hdmBytes := p.field 40 8, recRing := p.field 48 8, recSlots := p.field 56 2, part := part,
    seed := d.1 }
  let gen := mapGet 0 s.ctxGens tag % 0xF_FFFF + 1
  let s := { s.setCtx tag c with ctxGens := mapPut s.ctxGens tag gen }
  let s := gs.foldl (fun s g => s.handOver g (BitVec.ofNat 32 (0x1000 + tag + part * 2 ^ 16))) s
  s.setGrants c.hdmOff c.hdmBytes

/-- ATTACH_CONTEXT (R297): refused with the first status that holds, or attached at the tag, partition and granules that
firmware chose. A choice that is taken gives way to the lowest free one. HBM that the KV pool reserves is not free (R253). -/
def execAttachContext (f : FnId) (r : RingId) (q : PktSeq) (tag : BitVec 12) (part : Fin 64) (granules : List Nat) (s : State) : Res :=
  s.packet f r q 0x02 (fun _ => true) (fun p s =>
    match s.attachRefused f p with
    | some st => s.finish f r q st []
    | none =>
      let join := bit (p.byte 21) 0
      let bytes := p.field 24 8
      let t := if !(s.ctx tag.toNat).valid then some tag.toNat else (List.range 4096).find? (fun t => !(s.ctx t).valid)
      let pt := if join then some (s.ctx (bits (p.field 64 4) 11 0)).part
        else if s.partFree part then some part.val else (List.range 64).find? s.partFree
      let rate := if join || decide (p.byte 62 = 2) then 0 else p.field 58 2
      let own := bytes / granuleBytes - (s.roGranules bytes).length
      if (s.ctx tag.toNat).draining then s.finish f r q stBusy []
      else if s.hbmServes < s.hbmTaken + own * granuleBytes then s.finish f r q stNoResource []
      else
      match t, pt, s.takeGranules granules own with
      | some t, some pt, some gs =>
        if (List.range 4).any (fun h => decide (49152 < s.rateSum h + rate) && decide (rate ≠ 0)) then s.finish f r q stNoResource []
        else
          let s := s.attach f p t pt gs
          s.finish f r q stDone (natLe (t + mapGet 0 s.ctxGens t * 2 ^ 12) 4 ++ natLe pt 1)
      | _, _, _ => s.finish f r q stNoResource [])

/-! ### DETACH_CONTEXT (R240, R298) -/

/-- Every ring pair of a function with its index. -/
def State.ringsOf (s : State) (f : Nat) : List (Nat × Ring) :=
  (s.rings.filter (fun x => x.1 / 64 = f)).map (fun x => (x.1 % 64, x.2))

/-- The packets of a context whose final completion is not produced: (ring, packet). -/
def State.ctxPkts (s : State) (tag : Nat) : List (Nat × Pkt) :=
  let c := s.ctx tag
  (s.ringsOf c.func).flatMap (fun x =>
    (x.2.pkts.filter (fun p => decide (p.phase ≠ .done) && decide (3 ≤ p.opcode) && decide (p.ctx = tag))).map (fun p => (x.1, p)))

/-- One command more of a draining context ends ABORTED (R298). -/
def State.countAborted (s : State) (tag : Nat) : State := s.setCtx tag { s.ctx tag with aborted := (s.ctx tag).aborted + 1 }

/-- Steps 1 and 2 of R240: the context drains; its commands end ABORTED, its programs stop, and its sequences close at the next
boundary. Commands that run to completion as R282 says go on. -/
def State.startDetach (s : State) (tag : Nat) (by_ : Option (Nat × Nat × BitVec 16)) : State :=
  let c := s.ctx tag
  let s := s.setCtx tag { c with draining := true, detachBy := by_, aborted := 0, closed := 0 }
  let s := (s.ctxPkts tag).foldl (fun s x =>
    if by_ = some (c.func, x.1, x.2.seq) ∨ (runsOn x.2.opcode ∧ x.2.phase = .running) then s
    else if (s.genOf c.func x.1 x.2.seq).isSome then s
    else
      match s.progOf c.func x.1 x.2.seq with
      | some g => (s.countAborted tag).cancelProg g
      | none => (s.countAborted tag).finish c.func x.1 x.2.seq stAborted []) s
  s.boundary

/-- Steps 4 and 5 of R240: translations, granules, keys and, with the last context of a partition, its key and regulators. -/
def State.teardown (s : State) (tag : Nat) : State :=
  let c := s.ctx tag
  let s := s.dropXlt c.func (some c.pasid)
  let mine (fn pasid : Nat) : Bool := decide (fn = c.func) && decide (pasid = c.pasid)
  let s := { s with xlt := { s.xlt with waits := s.xlt.waits.filter (fun w => !mine w.fn w.pasid),
                                        reqs := s.xlt.reqs.filter (fun r => !mine r.fn r.pasid) } }
  let s := s.setCtx tag Ctx.none
  let s := c.ownArena.foldl (fun s a => s.handOver a.2 0) (s.dropKvGranules tag)
  let s := s.setGrants c.hdmOff c.hdmBytes
  let s := { s with sec := { s.sec with sessions := s.sec.sessions.filter (fun k => k.2.ctx ≠ tag),
                                        imageKeys := s.sec.imageKeys.filter (fun k => k.2.ctx ≠ tag) },
                    mir := { s.mir with binds := mapDel s.mir.binds tag } }
  if s.partFree c.part then
    { s with sec := { s.sec with partKeys := mapDel s.sec.partKeys c.part },
             regulators := (List.range 4).foldl (fun m h => mapDel m (64 * h + c.part)) s.regulators }
  else s

/-- No store of the context waits in a store buffer, and no write of its tiles for a silent target (R139, R203, R240). -/
def State.writesDone (s : State) (tag : Nat) : Bool :=
  s.cores.all (fun c => c.2.sb.all (fun e => e.fw || e.tag ≠ tag) &&
    c.2.deadWrites.all (fun w => w.tag.all (fun t => decide (t.1 ≠ tag))))

/-- Nothing of the context is left to wait for (R240): no command but the detach itself, no program, no sequence, no write, no page
request and no translation request. -/
def State.detachReady (s : State) (tag : Nat) : Bool :=
  let c := s.ctx tag
  (s.ctxPkts tag).all (fun x => decide (c.detachBy = some (c.func, x.1, x.2.seq))) &&
    s.srv.programs.all (fun p => p.ctx ≠ tag) && s.srv.seqs.all (fun x => x.2.ctx ≠ tag) && s.writesDone tag &&
    s.xlt.reqs.all (fun r => !(decide (r.fn = c.func) && decide (r.pasid = c.pasid))) &&
    s.xlt.ats.all (fun a => !(decide (a.fn = c.func) && decide (a.pasid = c.pasid)))

/-- DETACH_CONTEXT (R298, R240 steps 1 and 2). -/
def execDetachContext (f : FnId) (r : RingId) (q : PktSeq) (s : State) : Res :=
  s.packet f r q 0x03 (fun _ => true) (fun p s =>
    if (s.ctx p.ctx).draining then s else s.startDetach p.ctx (some (f.val, r.val, q)))

/-- DETACH_COMPLETE (R240 steps 3 to 6, R298): once nothing of the context is left. -/
def execDetachComplete (tag : BitVec 12) (s : State) : Res :=
  let t := tag.toNat
  let c := s.ctx t
  if !c.valid || !c.draining || !s.detachReady t then .next s
  else
    let s := s.teardown t
    match c.detachBy with
    | some (f, r, q) => .next (s.finish f r q stDone (res4 c.aborted ++ res4 c.closed))
    | none => .next s

end Sys2Proof.Machine
end

