-- ==== Sys2Proof/Machine/Models.lean ====
section
/-! DEFINITION. LOAD_MODEL and UNLOAD_MODEL (R19 to R25, R37, R38, R253, R299, R300, R389, R390, R498). -/

namespace Sys2Proof.Machine

/-! ### The header and the section table (R19, R21, R23, R24, R389, R498) -/

/-- a is a multiple of b within lo and hi. -/
def within (lo hi b a : Nat) : Bool := decide (lo ≤ a) && decide (a ≤ hi) && decide (a % b = 0)

/-- The header keeps the limits of R19 and R20. ROTARY_DIMS of a grouped-query header is not looked at: R19 limits it for latent KV
alone and R23 gives it no other value (DESIGN CHOICE, log entry 101). -/
def limitsOk (h : Bytes) : Bool :=
  let f (o n : Nat) : Nat := fieldLe h o n
  let routed := f 0x020 2
  let shared := f 0x023 1
  let gib := 2 ^ 30
  within 1 128 1 (f 0x010 4) && within 256 16384 256 (f 0x014 4) && decide (f 0x026 2 * f 0x028 2 = f 0x014 4) &&
    [64, 128, 256].contains (f 0x028 2) && within 2 262144 1 (f 0x018 4) && within 1 1048576 1 (f 0x01C 4) &&
    decide (routed ≤ 512) && decide (shared ≤ 4) && decide (1 ≤ routed + shared) &&
    (if f 0x024 1 = 0 then
      within 64 1024 64 (f 0x02A 2) && within 0 128 64 (f 0x02C 2) && decide (f 0x02E 2 = 0)
    else within 1 64 1 (f 0x02E 2) && decide (f 0x026 2 % max 1 (f 0x02E 2) = 0) && decide (f 0x02A 2 = 0)) &&
    (if routed = 0 then decide (f 0x022 1 = 0) && decide (f 0x030 4 = 0)
    else within 1 (min 16 routed) 1 (f 0x022 1) && within 128 16384 128 (f 0x030 4)) &&
    (if shared = 0 then decide (f 0x034 4 = 0) else within 128 16384 128 (f 0x034 4)) &&
    decide (f 0x008 8 ≤ if f 0x006 1 = 1 then 32 * gib else 640 * gib)

/-- Reserved fields of the header are 0, and enumerations are defined (R21, R23, R389). That a reserved ROLE, ATTN_KIND or KV_FORMAT,
a SEAL_VERSION other than 1, SEAL_FLAGS that differ from FLAGS[0], and nonzero SEAL fields of a plaintext image give UNSUPPORTED
is a DESIGN CHOICE (log entry 101): R23 and R389 reject them and name no status. -/
def headerReservedOk (h : Bytes) : Bool :=
  let f (o n : Nat) : Nat := fieldLe h o n
  decide (f 0x006 1 ≤ 1) && decide (f 0x007 1 < 4) && decide (f 0x024 1 ≤ 1) && decide (f 0x025 1 ≤ 1) &&
    allZero (sliceBytes h 0x0B0 0x50) && decide (f 0xF04 4 ≤ 1) && allZero (sliceBytes h 0xF20 8) && allZero (sliceBytes h 0xF88 120) &&
    decide (f 0xF00 4 = 1) && decide (f 0xF04 4 = f 0x007 1 % 2) &&
    (bit (f 0x007 1) 0 || allZero (sliceBytes h 0xF08 24 ++ sliceBytes h 0xF28 96))

/-- The section table is well formed (R498) and its types are defined (R24, R38). A section of LENGTH 0 strictly inside another counts
as overlapping it (DESIGN CHOICE, log entry 101). -/
def tableOk (h : Bytes) : Bool :=
  let n := fieldLe h 0x03C 4
  let l := sections h
  let bytes := fieldLe h 0x008 8
  within 1 112 1 n && l.all (fun x => within 1 7 1 x.typ) && allZero (sliceBytes h (0x100 + 32 * n) (32 * (112 - n))) &&
    (List.range n).all (fun i => allZero (sliceBytes h (0x100 + 32 * i + 24) 8)) &&
    l.all (fun x => decide (x.off % 2 ^ 21 = 0) && decide (2 ^ 21 ≤ x.off) && decide (x.off + x.len ≤ bytes) &&
      (!x.weights || decide (x.target < 12) || decide (x.target = 0xFFFF_FFFF))) &&
    l.zipIdx.all (fun x => l.zipIdx.all (fun y => decide (x.2 = y.2) || decide (x.1.off + x.1.len ≤ y.1.off) ||
      decide (y.1.off + y.1.len ≤ x.1.off))) &&
    (decide (fieldLe h 0x006 1 = 0) || l.all (fun x => decide (x.typ ≠ 3)))

/-- The scheduler parameter block lies in its ranges (R253), with the SRAM that the image and promotion take. -/
def schedOk (p : Bytes) (im : ImageMeta) : Bool :=
  let f (o n : Nat) : Nat := fieldLe p o n
  within 256 16384 256 (f 0 2) && within 1 4096 1 (f 2 2) && within 256 8192 256 (f 4 2) && decide (f 6 2 ≤ f 0 2 / 2) &&
    decide (f 8 1 ≤ 8) && decide (f 9 1 ≠ 1) && decide (f 10 1 ≤ 32) && allZero (sliceBytes p 11 5) &&
    decide (f 16 8 % 2 ^ 21 = 0) && (decide (f 24 8 = 0) || (decide (f 24 8 % 2 ^ 21 = 0) && decide (f 16 8 ≤ f 24 8))) &&
    allZero (sliceBytes p 32 32) && decide (f 10 1 * 2 ^ 20 + im.stagingBytes + im.xbufBytes ≤ 48 * 2 ^ 20)

/-- The staging area and PREFIX that a main image sets keep the limits of R162. That others give UNSUPPORTED is a DESIGN CHOICE (log
entry 101): R162 names no status. -/
def stagingOk (im : ImageMeta) : Bool :=
  within (2 ^ 22) (2 ^ 25) 2 im.stagingBytes && within (2 ^ 16) (2 ^ 23) (2 ^ 16) im.prefixBytes

/-! ### Key release (R390) -/

/-- The image key, with its handle, that opens an encrypted image for a context: installed, named by KEY_ID, bound to the DIGEST, and its signer's
signature holds. -/
def State.imageKeyFor (s : State) (tag : Nat) (h : Bytes) : Option (Nat × ImageKey) :=
  if s.sec.eyepiece then none
  else
    s.sec.imageKeys.find? (fun x => decide (x.2.ctx = tag) &&
      decide ((sha384 (ascii "AZG-KID-1" ++ x.2.key)).take 16 = sliceBytes h 0xF08 16) &&
      decide (x.2.digest = sliceBytes h 0x080 48) &&
      ecdsaVerify x.2.signer (sliceBytes h 0 0xF28) (sliceBytes h 0xF28 96))

/-- The plaintext of a section: AES-256-CTR with counter block CTR_NONCE, entry index, block index (R390). -/
def openSection (key nonce : Bytes) (entry : Nat) (bs : Bytes) : Bytes :=
  ctrXor key (fun i => sliceBytes nonce 0 8 ++ natLe entry 4 ++ natLe i 4) bs

/-! ### LOAD_MODEL (R299) -/

/-- Granules that an image takes, and the ones that a section covers (image offset / 2 MiB). -/
def imageGranules (bytes : Nat) : Nat := (bytes + granuleBytes - 1) / granuleBytes

/-- Weight sections lie in the stacks that they name (R24). -/
def targetsOk (h : Bytes) (gs : List Nat) : Bool :=
  (sections h).all (fun x => !x.weights || decide (12 ≤ x.target) ||
    (List.range (imageGranules x.len)).all (fun i => hbmStack (gs.getD (x.off / granuleBytes + i) 0) == some x.target))

/-- The status that refuses a load on its header, if one does (R21, R299); gs are the granules that firmware found. Granules that do not
lie in the stacks that TARGET names give NO_RESOURCE (DESIGN CHOICE, log entry 101). -/
def State.loadRefused (s : State) (p : Pkt) (h : Bytes) (im : ImageMeta) (gs : Option (List Nat)) : Option Nat :=
  let draft := decide (fieldLe h 0x006 1 = 1)
  let params := sliceBytes p.bytes 64 64
  let need := imageGranules (fieldLe h 0x008 8) * granuleBytes + (if draft then 0 else fieldLe params 16 8)
  if p.field 24 8 ≠ fieldLe h 0x008 8 then some stBad
  else if decide (fieldLe h 0 4 ≠ 0x4F48_5A41) || decide (fieldLe h 4 2 ≠ 1) || !headerReservedOk h || !limitsOk h || !tableOk h then
    some stUnsupported
  else if draft && !allZero params then some stBad
  else if (if draft then s.srv.draft else s.srv.main).isSome then some stNoResource
  else if draft && !(s.srv.main.any (fun i => decide (i.vocab = fieldLe h 0x018 4))) then some stUnsupported
  else if !draft && !(schedOk params im && stagingOk im) then some stUnsupported
  else if s.hbmServes < s.hbmTaken + need then some stNoResource
  else
    match gs with
    | none => some stNoResource
    | some gs =>
      if !targetsOk h gs then some stNoResource
      else if bit (fieldLe h 0x007 1) 0 && (s.imageKeyFor p.ctx h).isNone then some stDenied
      else none

/-- LOAD_MODEL (R299): the header is read and checked in full, and the load begins into the granules that firmware found. im is
what the sections' contents tell firmware. -/
def execLoadModel (f : FnId) (r : RingId) (q : PktSeq) (im : ImageMeta) (granules : List Nat) (s : State) : Res :=
  s.packet f r q 0x10 (fun _ => true) (fun p s =>
    if s.standbyHolds then s.finish f r q stDenied []
    else
      match s.srv.loading with
      | some l => if l.f = f ∧ l.r = r ∧ l.q = q then s else s.finish f r q stBusy []
      | none =>
        match s.readBuf (pktW f r q) p.ctx (p.field 16 8) 4096 with
        | (.wait, s) => s
        | (.failed _, s) => s.finish f r q stFaulted []
        | (.data h, s) =>
          let gs := s.takeGranules granules (imageGranules (fieldLe h 0x008 8))
          match s.loadRefused p h im gs with
          | some st => s.finish f r q st []
          | none =>
            let l : Load := { f := f, r := r, q := q, draft := decide (fieldLe h 0x006 1 = 1), src := p.field 16 8,
                              bytes := p.field 24 8, header := h, params := sliceBytes p.bytes 64 64, info := im, granules := gs.getD []
                              key := if bit (fieldLe h 0x007 1) 0 then (s.imageKeyFor p.ctx h).map (·.1) else none }
            { s with srv := { s.srv with loading := some l } })

/-- What reading the sections gives: their plaintext in table order, that they are awaited, or that SRC failed. -/
inductive SectionsRead where
  | data (l : List Bytes)
  | wait
  | failed
deriving DecidableEq, Repr

/-- Every section of the table that was checked is read and decrypted. -/
def State.readSections (s : State) (l : Load) (tag : Nat) : SectionsRead × State :=
  let h := l.header
  let key := l.key.bind (fun k => (mapFind s.sec.imageKeys k).map (·.key))
  (sections h).zipIdx.foldl (fun a x =>
    match a.1 with
    | .failed => a
    | y =>
      match a.2.readBuf (pktW l.f l.r l.q) tag (l.src + x.1.off) x.1.len, y with
      | (.failed _, s), _ => (.failed, s)
      | (.wait, s), _ => (.wait, s)
      | (.data _, s), .wait => (.wait, s)
      | (.data bs, s), .data ds =>
        (.data (ds ++ [match key with
          | some k => openSection k (sliceBytes h 0xF18 8) x.2 bs
          | none => bs]), s)
      | (.data _, s), .failed => (.failed, s)) (.data [], s)

/-- Bytes are written at image offset off of an image in granules gs. -/
def State.putImage (s : State) (gs : List Nat) (off : Nat) (bs : Bytes) : State :=
  (linesOf off bs.length).foldl (fun s p =>
    s.fwWrite (gs.getD (p.1 / granuleBytes) 0 + p.1 % granuleBytes) (sliceBytes bs (p.1 - off) p.2)) s

/-- The codebook slots of a core as an image's type-3 section makes them (R37): slot s at byte 16 (s - 1), slots beyond the section's
end as after reset. R24 names the section and gives no layout (DESIGN CHOICE, log entry 102). -/
def codebookSlots (bs : Bytes) : List (Nat × Bytes) :=
  (List.range 255).foldl (fun m j =>
    if 16 * j + 16 ≤ bs.length then mapPut m (j + 1) (sliceBytes bs (16 * j) 16) else m) []

/-- Granule j of an image holds bytes of a weight section: firmware sets NOALLOC on it (R172). -/
def weightGranule (h : Bytes) (j : Nat) : Bool :=
  (sections h).any (fun x => x.weights && decide (x.off < (j + 1) * granuleBytes) && decide (j * granuleBytes < x.off + x.len))

/-- An image comes into service: its granules are shared for reading, its sections are in place, the pool is reserved, and the
cores of a main image hold its codebooks (R37, R166, R253, R299). -/
def State.install (s : State) (l : Load) (data : List Bytes) : State :=
  let h := l.header
  let cb := ((sections h).zip data).foldl (fun b x => if x.1.typ = 3 then x.2 else b) []
  let i : Image := { digest := sliceBytes h 0x080 48, bytes := l.bytes, header := h, info := l.info, granules := l.granules,
                     codebooks := cb, expertMap := [] }
  let s := l.granules.zipIdx.foldl (fun s g => s.handOver g.1 (if weightGranule h g.2 then 0xA000 else 0x2000)) s
  let s := s.putImage l.granules 0 h
  let s := ((sections h).zip data).foldl (fun s x => s.putImage l.granules x.1.off x.2) s
  if l.draft then { (List.range 16).foldl (fun s d => s.dropStaging d) s with srv := { s.srv with draft := some i } }
  else
    let s := { s with srv := { s.srv with main := some i, sched := l.params, pool := [], poolBytes := fieldLe l.params 16 8,
                                          stepNo := 0 },
                      finders := [], exchanges := [] }
    (s.coresUp.foldl (fun s g => s.modCore g (fun c => { c with cb := codebookSlots cb })) s).placeExperts

/-- LOAD_MODEL_COMPLETE (R299): every section is copied and decrypted and DIGEST verified; on a failure the copied sections are
zeroed and freed. A stack that has failed since, with granules of the load, prevents it: DEVICE_ERROR (R296; DEDUCED, log entry 118). -/
def execLoadModelComplete (s : State) : Res :=
  match s.srv.loading with
  | none => .next s
  | some l =>
    match (s.ring l.f l.r).pkt l.q with
    | none => .next { s with srv := { s.srv with loading := none } }
    | some p =>
      let close (s : State) : State := { s with srv := { s.srv with loading := none } }
      match s.readSections l p.ctx with
      | (.wait, s) => .next s
      | (.failed, s) => .next (((close s).finish l.f l.r l.q stFaulted []).boundaryPrograms)
      | (.data ds, s) =>
        if sha384 ds.flatten ≠ sliceBytes l.header 0x080 48 then .next (((close s).finish l.f l.r l.q stDenied []).boundaryPrograms)
        else if !l.granules.all s.answers then .next (((close s).finish l.f l.r l.q stDeviceError []).boundaryPrograms)
        else
          let used := l.granules.length * granuleBytes + (if l.draft then 0 else fieldLe l.params 16 8)
          .next ((((close s).install l ds).finish l.f l.r l.q stDone (natLe used 8)).boundaryPrograms)

/-! ### UNLOAD_MODEL (R300) -/

/-- An image goes: its granules, and with a main image the pool, are zeroed and freed, and what the Finders staged is discarded; the draft goes
with the main image (R20). -/
def State.dropImage (s : State) (draft : Bool) : State :=
  let free (s : State) (i : Option Image) : State := ((i.map (·.granules)).getD []).foldl (fun s g => s.handOver g 0) s
  let s := free s s.srv.draft
  let s := { s with srv := { s.srv with draft := none } }
  if draft then s
  else
    let s := free ((List.range 16).foldl (fun s d => s.dropStaging d) s) s.srv.main
    let m := s.srv.pool.foldl (fun (m : Memory) p => m.zero p.1 p.2.1) s.mem
    { s with mem := m, srv := { s.srv with main := none, sched := [], pool := [], poolBytes := 0, promoted := [] }, exchanges := [],
             finders := s.finders.map (fun x => (x.1, { x.2 with
               layer := 0, servingLayer := 0, begun := [] })) }

/-- UNLOAD_MODEL (R300, R251): sequences close, a running program is waited for, and the image is zeroed and freed. -/
def execUnloadModel (f : FnId) (r : RingId) (q : PktSeq) (s : State) : Res :=
  s.packet f r q 0x11 (fun _ => true) (fun p s =>
    let draft := decide (p.byte 16 = 1)
    if s.standbyHolds then s.finish f r q stDenied []
    else if (if draft then s.srv.draft else s.srv.main).isNone then s.finish f r q stDone [0]
    else if s.srv.loading.isSome then s
    else if s.srv.step.isSome || s.srv.seqs.any (fun x => x.2.late.isSome) then s.boundary
    else
      let s := (s.srv.seqs.foldl (fun s x => s.closeSeq x.1) s).freeClosed
      if s.srv.programs.any (·.started) then s else (s.dropImage draft).finish f r q stDone [1])

end Sys2Proof.Machine
end

