-- ==== Sys2Proof/Machine/NightLog.lean ====
section
/-! DEFINITION. How the fault collector's state reads: FLT_ registers and Night Log entries (R440, R443, R446, R447), and the
measurements of R374. -/

namespace Sys2Proof.Machine

/-- FLT_STATUS. -/
def Flt.status (x : Flt) : Nat :=
  let r := x.reaction
  b2n (r.any (fun r => !r.fatal)) + 2 * b2n (r.any (·.fatal)) + 4 * b2n x.serviceDue + 8 * b2n x.firstValid +
    2 ^ 8 * ((r.map (·.source.toNat)).getD 0) + 2 ^ 16 * ((r.map (·.seqno.toNat)).getD 0)

/-- FLT_NL_STATUS. -/
def Flt.nlStatus (x : Flt) : Nat :=
  x.next % 64 + 2 ^ 6 * b2n x.wrapped + 2 ^ 7 * b2n x.frozen + 2 ^ 32 * x.lost.toNat

/-- FLT_ALV. -/
def Flt.alv (x : Flt) : Nat := b2n x.alvLevel + 2 * x.alvState.toNat + 2 ^ 32 * x.alvToggles.toNat

/-- FLT_SRC_CNT_s. -/
def FltSource.cnt (x : FltSource) : Nat := x.count % 256 + 2 ^ 8 * min 255 x.escalations + 2 ^ 32 * min (2 ^ 32 - 1) x.total

/-- The 32 bytes of an entry (R440). -/
def NightEntry.bytes (e : NightEntry) : Bytes :=
  natLe e.seqno.toNat 4 ++ natLe e.source.toNat 1 ++
    natLe (e.cls.toNat + 4 * b2n e.escalated + 8 * b2n e.upgraded) 1 ++ natLe e.unit.toNat 2 ++ natLe e.mergedSources.toNat 4 ++
    natLe (min 0xFFFF e.mergedCount) 2 ++ natLe (match e.ctx with | some t => t.toNat + 2 ^ 12 | none => 0) 2 ++
    natLe e.detail.toNat 8 ++ natLe e.time.toNat 6 ++ natLe e.events 2

/-- Slot i of the log; a slot never written is zero. -/
def Flt.slot (x : Flt) (i : Nat) : Bytes := ((mapFind x.log i).map (·.bytes)).getD (List.replicate 32 0)

/-- The slots, oldest first: from NEXT when the log has wrapped, else from slot 0. -/
def Flt.order (x : Flt) : List Nat := if x.wrapped then (List.range 64).map (fun i => (x.next + i) % 64) else List.range 64

/-- What DIAGNOSE TEST 1 writes (R446). -/
def Flt.dump (x : Flt) : Bytes :=
  sliceBytes (natLe x.status 8 ++ natLe x.nlStatus 8 ++ natLe x.time 8) 0 64 ++ x.order.flatMap x.slot

/-- Measurement block i (R374). -/
def State.measurement (s : State) (i : Nat) : Bytes :=
  let digest (x : Option Image) : Bytes := sliceBytes ((x.map (·.digest)).getD []) 0 48
  match i with
  | 1 => s.sec.romDigest
  | 2 => s.sec.fwDigest
  | 3 => natLe s.sec.svn.toNat 4 ++ natLe s.sec.antiRollback.toNat 4
  | 4 => natLe (b2n s.sec.eyepiece) 8
  | 5 => ecPub s.sec.sealPriv
  | 6 => digest s.srv.main
  | 7 => digest s.srv.draft
  | _ => []

/-- MEAS (R374): SHA-384 over blocks 1 to 4 in index order. -/
def State.meas (s : State) : Bytes := sha384 (s.measurement 1 ++ s.measurement 2 ++ s.measurement 3 ++ s.measurement 4)

end Sys2Proof.Machine
end

