-- ==== Sys2Proof/Machine/Packets.lean ====
section
/-! DEFINITION. The packets on memory, sessions, statistics and diagnosis (R244, R310 to R313, R315, R317, R318, R378 to
R380). -/

namespace Sys2Proof.Machine

/-! ### PREFETCH (R244, R310) -/

/-- Bytes of the page that PAGE names. -/
def Pkt.pageSize (p : Pkt) : Nat := if p.byte 17 = 0 then 4096 else 2 ^ 21

/-- The first bytes of the pages that a range touches. -/
def pagesIn (va len size : Nat) : List Nat :=
  if len = 0 then [] else (List.range ((va + len - 1) / size + 1 - va / size)).map (fun i => (va / size + i) * size)

/-- The first hub whose L2 does not translate an address. -/
def State.hubMissing (s : State) (fn pasid va : Nat) : Option Nat :=
  (List.range 4).find? (fun h => (s.xlt.peek none h fn pasid va).isNone)

/-- The first of the 4 KiB pages of one page that the L2 of some hub does not translate. -/
def State.firstMissing (s : State) (fn pasid va size : Nat) : Option Nat :=
  ((List.range (size / 4096)).map (fun i => va + 4096 * i)).find? (fun a => (s.hubMissing fn pasid a).isSome)

/-- A page is awaited by who. -/
def State.awaits (s : State) (who : Waiter) (va : Nat) : Option XPhase := (s.xlt.waits.find? (·.isFor who va)).map (·.phase)

/-- One page of a translating PREFETCH: asked for in the L2 of every hub. True: it is awaited. -/
def State.translatePage (s : State) (who : Waiter) (fn pasid size : Nat) (faults : Bool) (va : Nat) : Bool × State :=
  match s.firstMissing fn pasid va size with
  | none => (false, s)
  | some a =>
    match s.awaits who a with
    | some .failed => (false, s)
    | _ =>
      match s.resolve who none ((s.hubMissing fn pasid a).getD 0) fn pasid a faults false with
      | (.wait, s) => (true, (List.range 4).foldl (fun s h =>
          if (s.xlt.peek none h fn pasid a).isNone then s.askAts h fn pasid a false else s) s)
      | (_, s) => (false, s)

/-- A translating PREFETCH (R310): it completes when no page is awaited. -/
def State.prefetch (s : State) (f r : Nat) (q : BitVec 16) (p : Pkt) (faults : Bool) : State :=
  let c := s.ctx p.ctx
  let va := p.field 24 8
  let len := p.field 32 8
  if !s.mayName false p.ctx va len .read then s.finish f r q stFaulted []
  else
    let pages := pagesIn va len p.pageSize
    let a := pages.foldl (fun (a : Bool × State) v =>
      let x := a.2.translatePage (pktW f r q) c.func c.pasid p.pageSize faults v
      (a.1 || x.1, x.2)) (false, s)
    if a.1 then a.2
    else
      let done := (pages.filter (fun v => (a.2.firstMissing c.func c.pasid v p.pageSize).isNone)).length
      a.2.finish f r q stDone (natLe done 8 ++ natLe (pages.length - done) 8)

/-- PREFETCH with MODE 0. -/
def execPrefetchTranslate (f : FnId) (r : RingId) (q : PktSeq) (s : State) : Res :=
  s.packet f r q 0x40 (fun p => decide (p.byte 16 = 0)) (fun p s => s.prefetch f r q p false)

/-- PREFETCH with MODE 1. -/
def execPrefetchTranslateFaults (f : FnId) (r : RingId) (q : PktSeq) (s : State) : Res :=
  s.packet f r q 0x40 (fun p => decide (p.byte 16 = 1)) (fun p s => s.prefetch f r q p true)

/-- The progress of a packet. -/
def Ring.setProgress (x : Ring) (q : BitVec 16) (n : Nat) : Ring :=
  { x with pkts := x.pkts.map (fun p => if p.seq = q && decide (p.phase ≠ .done) then { p with progress := n } else p) }

/-- One entry of a copying PREFETCH: copied, waiting, or faulted. -/
inductive CopyRes where
  | copied
  | wait
  | failed
deriving DecidableEq, Repr

/-- Entry i of a copying PREFETCH: its 16 bytes, then its page. -/
def State.copyEntry (s : State) (who : Waiter) (f : Nat) (p : Pkt) (i : Nat) : CopyRes × State :=
  match s.readBuf who p.ctx (p.field 24 8 + 16 * i) 16 with
  | (.wait, s) => (.wait, s)
  | (.failed _, s) => (.failed, s)
  | (.data e, s) =>
    let va := fieldLe e 0 8
    let hdm := fieldLe e 8 8
    let src := if p.byte 18 = 0 then va else hdm
    let dst := if p.byte 18 = 0 then hdm else va
    if space va ≠ 0 ∨ space hdm ≠ 1 then (.failed, s)
    else
      match s.readBuf who p.ctx src p.pageSize with
      | (.wait, s) => (.wait, s)
      | (.failed _, s) => (.failed, s)
      | (.data bs, s) =>
        match s.planBuf who p.ctx dst bs p.direct with
        | (.wait, s) => (.wait, s)
        | (.failed _ _, s) => (.failed, s)
        | (.ok ws, s) => (.copied, (s.carryAll f (some p.ctx) ws).dropWaits who)

/-- Entries are copied in order; n bounds their number. -/
def State.copyEntries (f r : Nat) (q : BitVec 16) (p : Pkt) : Nat → Nat → State → State
  | _, 0, s => s
  | i, n + 1, s =>
    if p.field 32 8 ≤ i then s.finish f r q stDone (natLe i 8 ++ natLe 0 8)
    else
      match s.copyEntry (pktW f r q) f p i with
      | (.wait, s) => s.setRing f r ((s.ring f r).setProgress q i)
      | (.failed, s) => s.finish f r q stFaulted (natLe i 8 ++ natLe 0 8)
      | (.copied, s) => State.copyEntries f r q p (i + 1) n s

/-- PREFETCH with MODE 2 (R310): an entry that faults ends the packet FAULTED; earlier entries are complete. -/
def execPrefetchCopy (f : FnId) (r : RingId) (q : PktSeq) (s : State) : Res :=
  s.packet f r q 0x40 (fun p => decide (p.byte 16 = 2)) (fun p s =>
    State.copyEntries f r q p p.progress (p.field 32 8 - p.progress + 1) s)

/-! ### ADVISE (R244, R311) -/

/-- ADVISE with OP 0. -/
def execAdviseAdd (f : FnId) (r : RingId) (q : PktSeq) (s : State) : Res :=
  s.packet f r q 0x41 (fun p => decide (p.byte 16 = 0)) (fun p s =>
    let c := s.ctx p.ctx
    if 64 ≤ c.advice.length then s.finish f r q stNoResource []
    else
      let a : Advice := { start := BitVec.ofNat 64 (p.field 24 8), len := BitVec.ofNat 64 (p.field 32 8),
                          preferHdm := bit (p.byte 17) 0, readMostly := bit (p.byte 17) 1 }
      (s.setCtx p.ctx { c with advice := c.advice ++ [a] }).finish f r q stDone [])

/-- ADVISE with OP 1: the range that starts at START. -/
def execAdviseRemove (f : FnId) (r : RingId) (q : PktSeq) (s : State) : Res :=
  s.packet f r q 0x41 (fun p => decide (p.byte 16 = 1)) (fun p s =>
    let c := s.ctx p.ctx
    (s.setCtx p.ctx { c with advice := c.advice.filter (fun a => a.start.toNat ≠ p.field 24 8) }).finish f r q stDone [])

/-- ADVISE with OP 2. -/
def execAdviseClear (f : FnId) (r : RingId) (q : PktSeq) (s : State) : Res :=
  s.packet f r q 0x41 (fun p => decide (p.byte 16 = 2)) (fun p s =>
    (s.setCtx p.ctx { s.ctx p.ctx with advice := [] }).finish f r q stDone [])

/-! ### FLUSH and FENCE (R312, R313) -/

/-- No buffered store of the context, whether or not its program has ended, and no write of its engines to a target that does not
answer is left on a path. -/
def State.storesDone (s : State) (tag : Nat) (dc hdm : Bool) : Bool :=
  s.cores.all (fun c =>
    c.2.sb.all (fun e => e.fw || e.tag ≠ tag || !declared dc hdm e.ptr.toNat) &&
    c.2.deadWrites.all (fun w => w.tag.all (fun t => decide (t.1 ≠ tag)) || !declared dc hdm w.ptr.toNat))

/-- The device-cache lines of a host range are written back and invalidated: none while a page or the link is awaited, some
false where a page has no translation. -/
def State.flushRange (s : State) (who : Waiter) (tag ptr len : Nat) : Option Bool × State :=
  if space ptr ≠ 0 then (some (s.mayName false tag ptr len .read), s)
  else if !s.mayName false tag ptr len .read then (some false, s)
  else if s.port.frozen || !s.port.linkUp then (none, s)
  else
    (pagesOf ptr len).foldl (fun a p =>
      match a.1 with
      | some false => a
      | x =>
        match a.2.spot who tag p.1 .read with
        | (none, s) => (none, s)
        | (some none, s) => (some false, s)
        | (some (some t), s) =>
          if t.io || !isHostKey t.key then (x, s)
          else (x, (linesOf t.key p.2).foldl (fun s l => s.evictLine (lineOf (l.1 - 2 ^ 64))) s)) (some true, s)

/-- FLUSH (R312): every write of the context's engines is performed on the named paths; with [2] the lines of the range leave the
device cache. -/
def execFlush (f : FnId) (r : RingId) (q : PktSeq) (s : State) : Res :=
  s.packet f r q 0x42 (fun _ => true) (fun p s =>
    let sc := p.byte 16
    if !s.storesDone p.ctx (bit sc 0) (bit sc 1) then s
    else if !bit sc 2 then s.finish f r q stDone []
    else
      match s.flushRange (pktW f r q) p.ctx (p.field 24 8) (p.field 32 8) with
      | (none, s) => s
      | (some true, s) => s.finish f r q stDone []
      | (some false, s) => s.finish f r q stFaulted [])

/-- FENCE with SCOPE 0 (R313): it starts when every earlier packet of the ring is complete. -/
def execFenceRing (f : FnId) (r : RingId) (q : PktSeq) (s : State) : Res :=
  s.packet f r q 0x43 (fun p => decide (p.byte 16 = 0)) (fun _ s => s.finish f r q stDone [])

/-- FENCE with SCOPE 1 (R313): it also waits for every packet of the context read earlier on the function's other rings. -/
def execFenceContext (f : FnId) (r : RingId) (q : PktSeq) (s : State) : Res :=
  s.packet f r q 0x43 (fun p => decide (p.byte 16 = 1)) (fun p s =>
    let earlier := (s.ringsOf f).any (fun x => decide (x.1 ≠ r.val) && x.2.pkts.any (fun y =>
      decide (y.order < p.order) && decide (3 ≤ y.opcode) && decide (y.ctx = p.ctx)))
    if earlier then s else s.finish f r q stDone [])

/-! ### SEAL_SESSION (R315, R378 to R380) -/

/-- A wrapped message opened (R378 to R380): PURPOSE and payload. -/
def State.unwrap (s : State) (bs : Bytes) : Option (Nat × Bytes) :=
  let purpose := fieldLe bs 5 1
  let len := if purpose = 0 then 32 else 180
  let hdr := bs.take 160
  if s.sec.eyepiece ∨ ¬ s.sec.keysReady ∨ 1 < purpose ∨ bs.length ≠ 176 + len ∨ fieldLe bs 0 4 ≠ 0x5057_5A41 ∨ fieldLe bs 4 1 ≠ 1 ∨
      ¬ allZero (sliceBytes bs 6 2) ∨ ¬ allZero (sliceBytes bs 153 7) ∨ sliceBytes bs 8 48 ≠ s.meas then none
  else
    match ecdhX s.sec.sealPriv (sliceBytes bs 56 97) with
    | none => none
    | some z =>
      let okm := hkdf384 s.meas z (ascii "AZG-WRAP-1" ++ ecPub s.sec.sealPriv ++ sliceBytes bs 56 97) 44
      (gcmOpen (okm.take 32) (okm.drop 32) hdr (sliceBytes bs 160 len) (sliceBytes bs (160 + len) 16)).bind (fun pt =>
        if purpose = 1 ∧ ¬ allZero (sliceBytes pt 177 3) then none else some (purpose, pt))

/-- SEAL_SESSION with OP 0 (R315, R380): every refusal is DENIED. -/
def execSealSessionInstall (f : FnId) (r : RingId) (q : PktSeq) (s : State) : Res :=
  s.packet f r q 0x60 (fun p => decide (p.byte 16 = 0)) (fun p s =>
    if s.sec.eyepiece then s.finish f r q stDenied []
    else
      match s.readBuf (pktW f r q) p.ctx (p.field 24 8) (p.field 32 2) with
      | (.wait, s) => s
      | (.failed _, s) => s.finish f r q stFaulted []
      | (.data bs, s) =>
        match s.unwrap bs with
        | none => s.finish f r q stDenied []
        | some (purpose, pt) =>
          let h := s.sec.nextHandle
          if purpose = 1 then
            let k : ImageKey := { ctx := p.ctx, key := sliceBytes pt 0 32, digest := sliceBytes pt 32 48, signer := sliceBytes pt 80 97 }
            let s := { s with sec := { s.sec with nextHandle := h + 1, imageKeys := mapPut s.sec.imageKeys h k } }
            (s.journal p.ctx 8 (.imageKey (BitVec.ofNat 32 h) k.key k.digest k.signer)).finishMirrored f r q stDone (res4 h) []
          else if 65536 ≤ s.sec.sessions.length then s.finish f r q stNoResource []
          else
            let d := s.drawBytes 12
            let k : SessionKey := { ctx := p.ctx, key := sliceBytes pt 0 32, inst := d.1, high := 0, seen := [], counter := 1, epoch := 0 }
            let s := { d.2 with sec := { d.2.sec with nextHandle := h + 1 } }
            (s.useSession (some h) (some k)).finishMirrored f r q stDone (res4 h ++ d.1) [])

/-- SEAL_SESSION with OP 1 (R315, R390): the key is zeroised unless an open sequence or a load uses it. -/
def execSealSessionDestroy (f : FnId) (r : RingId) (q : PktSeq) (s : State) : Res :=
  s.packet f r q 0x60 (fun p => decide (p.byte 16 = 1)) (fun p s =>
    let h := p.field 20 4
    if (s.session h).any (fun k => decide (k.ctx = p.ctx)) then
      if s.srv.seqs.any (fun x => decide (x.2.session = some h)) then s.finish f r q stBusy []
      else
        ({ s with sec := { s.sec with sessions := mapDel s.sec.sessions h } } : State).finishMirrored f r q stDone [] []
    else if (mapFind s.sec.imageKeys h).any (fun k => decide (k.ctx = p.ctx)) then
      if s.srv.loading.any (fun l => decide (l.key = some h)) then s.finish f r q stBusy []
      else
        ({ s with sec := { s.sec with imageKeys := mapDel s.sec.imageKeys h } } : State).finishMirrored f r q stDone [] []
    else s.finish f r q stDenied [])

/-! ### QUERY_STATISTICS and DIAGNOSE (R317, R318, R446) -/

/-- A record goes to BUF; a short buffer gives NO_RESOURCE with the size needed (R307, R317). -/
def State.giveRecord (s : State) (f r : Nat) (q : BitVec 16) (p : Pkt) (bytes : Nat) (rec : Bytes) (res : Bytes) : State :=
  if bytes < rec.length then s.finish f r q stNoResource (natLe rec.length 8)
  else
    match s.planBuf (pktW f r q) p.ctx (p.field 24 8) rec p.direct with
    | (.wait, s) => s
    | (.failed _ _, s) => s.finish f r q stFaulted []
    | (.ok ws, s) => s.finishWith f r q stDone res ws false

/-- A selector of QUERY_STATISTICS; RESULT bytes 16 to 23 hold the record's size. -/
def State.query (s : State) (f : FnId) (r : RingId) (q : PktSeq) (sel : Nat) (pfOnly : Bool) (rec : State → Pkt → Bytes) : Res :=
  s.packet f r q 0x71 (fun p => decide (p.byte 16 = sel)) (fun p s =>
    if pfOnly && decide (f.val ≠ 0) then s.finish f r q stDenied []
    else s.giveRecord f r q p (p.field 32 8) (rec s p) (natLe (rec s p).length 8))

/-- The sequences of a context, in slot order. -/
def State.seqsOf (s : State) (tag : Nat) : List (Nat × Sequence) := s.srv.seqs.filter (fun x => x.2.ctx = tag)

/-- SELECTOR 0: eight counts of 8 bytes. -/
def execQuerySequenceCounts (f : FnId) (r : RingId) (q : PktSeq) (s : State) : Res :=
  s.query f r q 0 false (fun s p => (List.range 8).flatMap (fun i =>
    natLe ((s.seqsOf p.ctx).filter (fun x => x.2.st.code = i)).length 8))

/-- SELECTOR 1: 16 bytes for each open sequence. -/
def execQuerySequences (f : FnId) (r : RingId) (q : PktSeq) (s : State) : Res :=
  s.query f r q 1 false (fun s p => (s.seqsOf p.ctx).flatMap (fun x =>
    natLe (seqHandle x.1 x.2) 4 ++ natLe x.2.st.code 1 ++ [0, 0, 0] ++ natLe x.2.history.length 4 ++ natLe x.2.stored 4))

/-- The 64-byte record of a Finder (R166). -/
def Finder.record (x : Finder) : Bytes :=
  [x.predictions, x.latePredictions, x.stagedCount, x.stagedRead, x.hits, x.lateChunks, x.misses, x.discarded].flatMap
    (fun n => natLe (min n (2 ^ 64 - 1)) 8)

/-- SELECTOR 2: a record for each die. -/
def execQueryFinder (f : FnId) (r : RingId) (q : PktSeq) (s : State) : Res :=
  s.query f r q 2 true (fun s _ => (List.range 16).flatMap (fun d => (s.finder d).record))

/-- SELECTOR 3: for each quadrant, bytes at guaranteed and at spare priority, and windows held, 8 bytes each; R317 gives no
layout (log entry 46). -/
def execQueryRegulators (f : FnId) (r : RingId) (q : PktSeq) (s : State) : Res :=
  s.query f r q 3 false (fun s p => (List.range 4).flatMap (fun h =>
    let x := mapGet Regulator.reset s.regulators (64 * h + (s.ctx p.ctx).part)
    natLe x.guaranteed 8 ++ natLe x.spare 8 ++ natLe x.heldWindows 8))

/-- SELECTOR 4: for each hub, hits and misses, 8 bytes each; R317 gives no layout (log entry 46). -/
def execQueryTranslationCaches (f : FnId) (r : RingId) (q : PktSeq) (s : State) : Res :=
  s.query f r q 4 true (fun s _ => (List.range 4).flatMap (fun h =>
    natLe (mapGet 0 s.xlt.hits h) 8 ++ natLe (mapGet 0 s.xlt.misses h) 8))

/-- CMD_RING_COUNTS (R280). -/
def Ring.counts (x : Ring) : Nat := x.dbAhead.toNat + 2 ^ 32 * x.rereads.toNat

/-- SELECTOR 5: CMD_RING_COUNTS of rings 0 to 63. -/
def execQueryRingCounts (f : FnId) (r : RingId) (q : PktSeq) (s : State) : Res :=
  s.query f r q 5 false (fun s _ => (List.range 64).flatMap (fun i => natLe (s.ring f i).counts 8))

/-- DIAGNOSE with TEST 0: bytes 24 to 39 come back. -/
def execDiagnoseEcho (f : FnId) (r : RingId) (q : PktSeq) (s : State) : Res :=
  s.packet f r q 0x7E (fun p => decide (p.byte 16 = 0)) (fun p s => s.finish f r q stDone (sliceBytes p.bytes 24 16))

/-- DIAGNOSE with TEST 1: the Night Log (R446). -/
def execDiagnoseNightLog (f : FnId) (r : RingId) (q : PktSeq) (s : State) : Res :=
  s.packet f r q 0x7E (fun p => decide (p.byte 16 = 1)) (fun p s =>
    s.giveRecord f r q p s.flt.dump.length s.flt.dump [])

end Sys2Proof.Machine
end

