-- ==== Sys2Proof/Machine/Endpoint.lean ====
section
/-! DEFINITION. The host endpoint: the Portcullis (R343 to R345), resets and function-level reset (R332 to R335, R500), power
states and bus mastering (R338, R339), removal (R347, R348), and completions of the device's own reads (R341). -/

namespace Sys2Proof.Machine

/-! ### The Portcullis (R343 to R345) -/

/-- The host port enters the Portcullis with a cause; while it holds, a cause is only added to CAUSE_SEEN. Every entry raises
Uncorrectable Internal Error (R330) and moves each locked interface to ERROR (R377). -/
def State.enterPc (s : State) (cause : Nat) : State :=
  let p := s.port
  let b : BitVec 5 := 1 <<< (cause - 1)
  if p.frozen then { s with port := { p with causeSeen := p.causeSeen ||| b } }
  else
    let p := { p with frozen := true, cause := BitVec.ofNat 3 cause, causeSeen := b,
                      entries := BitVec.ofNat 16 (satAdd 0xFFFF p.entries.toNat 1) }
    let s := State.aerUncor { s with port := p } 0 aerInternal
    s.fns.foldl (fun s x => s.tdiError x.1) s

/-- The Portcullis is entered for a fault of the host link (causes 1 to 3), which source 31 records (R434). -/
def State.linkFault (s : State) (cause : Nat) : State :=
  let s' := s.enterPc cause
  if s.port.frozen && decide (cause ≠ 3) then s' else s'.report (event 31 unitHost cause)

/-- Messages of a function that were held are sent: pending MSI-X vectors, and for the PF the INTx level. -/
def State.flushFn (s : State) (f : Nat) : State :=
  let s := s.flushMsix f
  if f = 0 then s.driveIntx else s

/-- The functions that are there. -/
def State.fnsUp (s : State) : List Nat := (s.fns.filter (fun x => x.2.enabled)).map (·.1)

/-- Messages of every function that were held are sent. -/
def State.flushAll (s : State) : State := s.fnsUp.foldl (fun s f => s.flushFn f) s

/-- The Portcullis lifts (R344, R345): held readiness messages go in order, then held interrupts. -/
def State.liftPc (s : State) : State :=
  let held := s.port.heldMsgs
  let s := { s with port := { s.port with frozen := false, heldMsgs := [] } }
  (held.foldl (fun s m => s.sendReady m) s).flushAll

/-- HOST_LINK_ERROR (R343 cause 1). cleared says that the link has already retrained free of the condition. -/
def execHostLinkError (cleared : Bool) (s : State) : Res :=
  if !s.port.linkUp then .next s
  else
    let s := s.linkFault 1
    .next { s with port := { s.port with linkBad := !cleared } }

/-- POISONED_REQUEST (R330, R342, R343 cause 2): not performed. -/
def execPoisonedRequest (f : FnId) (s : State) : Res :=
  if !s.port.linkUp then .next s else .next ((s.linkFault 2).aerUncor f aerPoisoned)

/-- PC_FORCE (R343 cause 5). -/
def execPcForce (s : State) : Res := .next (s.cfgAccess 0 (fun s => s.enterPc 5))

/-- PC_CLEAR (R345): nothing unless FROZEN; refused with the link bad or cause 3 or 4 seen. -/
def execPcClear (s : State) : Res :=
  .next (s.cfgAccess 0 (fun s =>
    let p := s.port
    if !p.frozen then s
    else if p.linkUp && !p.linkBad && !bit p.causeSeen.toNat 2 && !bit p.causeSeen.toNat 3 then s.liftPc
    else { s with port := { p with clearRefused := true } }))

/-! ### The end of a Coelostat pairing (R457, R458) -/

/-- The Coelostat state changes; HST_INT_STATUS.MIRROR tells the host (R337). -/
def State.setMirSt (s : State) (st : MirSt) : State :=
  if s.mir.st = st then s else State.hostInt { s with mir := { s.mir with st := st } } 3

/-- Output that waited for the mirror is released: nothing is mirrored any more. -/
def State.freeHolds (s : State) : State :=
  let hs := s.mir.holds
  let s := { s with mir := { s.mir with holds := [] } }
  hs.foldl (fun s h =>
    if (s.fn h.f).quiescing then s
    else
      let s := s.carryAll h.f (some h.tag) h.writes
      match h.c with
      | some c => s.produce h.f h.r c
      | none => s) s

/-- The pairing ends: held output is released, keys and counts are forgotten; MIR_CFG, the mode, OVERRUN and the port stay. -/
def State.unpair (s : State) : State :=
  let s := s.freeHolds.setMirSt .unpaired
  let m := s.mir
  { s with mir := { Mir.reset with winGib := m.winGib, syncFail := m.syncFail, lagMib := m.lagMib,
                                   async := m.async, overrun := m.overrun, lanesDown := m.lanesDown,
                                   portUp := m.portUp, lanePair := m.lanePair } }

/-! ### Function-level reset and VF removal (R333 to R335, R500) -/

/-- A function begins to quiesce; a locked interface moves to ERROR (R334, R377). -/
def State.quiesce (s : State) (f : Nat) : State :=
  let x := s.fn f
  let locked := decide (x.tdi = .locked) || decide (x.tdi = .run)
  s.setFn f { x with quiescing := true, tdi := if locked then .error else x.tdi, barred := x.barred || locked }

/-- The VFs that are there. -/
def State.vfsUp (s : State) : List Nat := s.fnsUp.filter (· ≠ 0)

/-- INITIATE_FLR (R334): the function quiesces, and on the PF every VF with it. -/
def execInitiateFlr (f : FnId) (s : State) : Res :=
  .next (s.cfgAccess f (fun s => ((if f.val = 0 then s.fnsUp else [f.val]).foldl (fun s f => s.quiesce f) s).boundary))

/-- The function's sequences and programs are gone (R334 step 4). -/
def State.quiet (s : State) (f : Nat) : Bool :=
  s.srv.seqs.all (fun x => (s.ctx x.2.ctx).func ≠ f) && s.srv.programs.all (fun p => p.f ≠ f)

/-- Steps 5 and 6 of R334, and the invalidations that then complete (R335). -/
def State.tearFn (s : State) (f : Nat) : State :=
  let s := s.endFn f
  let s := (s.ctxs.filter (fun c => c.2.valid && decide (c.2.func = f))).foldl (fun s c => s.teardown c.1) s
  let mine := s.xlt.invals.filter (fun i => i.fn = f)
  if !s.invSends f then s
  else
    let s := { s with xlt := { s.xlt with invals := s.xlt.invals.filter (fun i => i.fn ≠ f) } }
    mine.foldl (fun s i => s.sendInvDone f i.itag) s

/-- A function's configuration space at its reset values (R334 step 7). An interface in ERROR stays so (R377). -/
def State.resetFn (s : State) (f : Nat) (there : Bool) : State :=
  let tdi := if (s.fn f).tdi = .error then Tdi.error else .unlocked
  s.setFn f { Fn.reset with enabled := there, tdi := tdi, barred := (s.fn f).barred }

/-- What a reset of the PF ends beside its contexts (R333, R477): the images, DETERMINISTIC, the pairing, and the HST_INT and
XLT registers. -/
def State.resetPf (s : State) : State :=
  let s := (s.dropImage false).unpair
  let p := s.port
  { s with
    boot := { s.boot with deterministic := false, writeIgnored := false, fpatomRefused := 0 },
    port := { p with intStatus := 0, intEnable := 0, intVector := 0, removeRequest := false, removeReady := false,
                     removeCancelled := false, clearRefused := false },
    xlt := { s.xlt with overflow := 0, events := 0, eventFn := 0, uprgiCount := 0, invCompleted := 0 } }

/-- FLR_QUIESCE_DONE (R334, R335, R500): once nothing of the function is left in the scheduler, its teardown ends, and it answers
again and says so; a VF under removal is gone, and after the last one the PF says so. A VF of a quiescing PF ends with it. -/
def execFlrQuiesceDone (f : FnId) (s : State) : Res :=
  if !(s.fn f).quiescing || s.port.hotResetPending || (decide (f.val ≠ 0) && (s.fn 0).quiescing) then .next s
  else if f.val = 0 then
    let fs := s.fnsUp
    if !fs.all s.quiet then .next s
    else
      let s := fs.foldl (fun s f => s.tearFn f) s
      let s := fs.foldl (fun s f => s.resetFn f (f = 0)) s.resetPf
      .next (s.sendReady (some 0))
  else if !s.quiet f then .next s
  else
    let gone := (s.fn f).removing
    let s := (s.tearFn f).resetFn f (!gone)
    if !gone then .next (s.sendReady (some f.val))
    else if s.removing then .next s
    else .next (s.sendReady (some 0))

/-- The doublewords of the SR-IOV capability at 0x160 that hold SR-IOV Control and NumVFs, and the bits VF Enable and VF MSE
(PCI Express, PRESUMED, log entry 7). -/
def sriovControl : Nat := 0x168
def sriovNumVfs : Nat := 0x170
def vfEnableBit : Nat := 0
def vfMseBit : Nat := 3

/-- A doubleword of a function's configuration space as last written. -/
def State.cfgWord (s : State) (f off : Nat) : Nat := (mapGet 0 (s.fn f).cfg off).toNat

/-- The state with a doubleword of configuration space replaced. -/
def State.setCfg (s : State) (f off v : Nat) : State :=
  s.setFn f { s.fn f with cfg := mapSet 0 (s.fn f).cfg off (BitVec.ofNat 32 v) }

/-- VF_ENABLE (R329, R332): NumVFs VFs come to be, fresh, and each reports readiness. -/
def execVfEnable (s : State) : Res :=
  .next (s.cfgAccess 0 (fun s =>
    let c := s.cfgWord 0 sriovControl
    if bit c vfEnableBit then s
    else
      let s := s.setCfg 0 sriovControl (putBits c vfEnableBit vfEnableBit 1)
      let n := min 63 (s.cfgWord 0 sriovNumVfs % 2 ^ 16)
      (List.range n).foldl (fun s i =>
        let f := i + 1
        (s.setFn f { Fn.reset with enabled := true, mse := bit c vfMseBit, tdi := (s.fn f).tdi,
                                   barred := (s.fn f).barred }).sendReady (some f)) s))

/-- VF_DISABLE (R500, R335): every VF quiesces and will be removed. -/
def execVfDisable (s : State) : Res :=
  if !(s.port.linkUp && s.port.ready) || (s.fn 0).quiescing || s.removing then .next (if s.port.linkUp then s.send (.retryStatus 0) else s)
  else
    let c := s.cfgWord 0 sriovControl
    if !bit c vfEnableBit then .next s
    else
      let s := s.setCfg 0 sriovControl (putBits c vfEnableBit vfEnableBit 0)
      .next ((s.vfsUp.foldl (fun s f =>
        let s := s.quiesce f
        s.setFn f { s.fn f with removing := true }) s).boundary)

/-! ### Power states and bus mastering (R338 to R340) -/

/-- D3HOT_ENTRY (R338). -/
def execD3hotEntry (s : State) : Res := .next (s.cfgAccess 0 (fun s => s.setFn 0 { s.fn 0 with d3hot := true }))

/-- D0_ENTRY (R332, R338, R340): what was held goes out; the PF reports readiness and its latency tolerance. -/
def execD0Entry (s : State) : Res :=
  .next (s.cfgAccess 0 (fun s =>
    if !(s.fn 0).d3hot then s
    else (((s.setFn 0 { s.fn 0 with d3hot := false }).sendReady (some 0)).sendLtr).flushAll))

/-- Bus Master Enable of a function is cleared (R339, R377). -/
def State.bmeOff (s : State) (f : Nat) : State :=
  if !(s.fn f).bme then s else (s.setFn f { s.fn f with bme := false }).tdiError f

/-- Bus Master Enable of a function is set (R339). -/
def State.bmeOn (s : State) (f : Nat) : State :=
  if (s.fn f).bme then s else (s.setFn f { s.fn f with bme := true }).flushFn f

/-- Memory Space Enable of the PF, or VF MSE for every VF (R324), is written (R342, R377). -/
def State.setMse (s : State) (f : Nat) (on : Bool) : State :=
  (if f = 0 then [0] else s.vfsUp).foldl (fun s f =>
    if (s.fn f).mse = on then s
    else
      let s := s.setFn f { s.fn f with mse := on }
      if on then s else s.tdiError f) s

/-- BUS_MASTER_DISABLE (R339). -/
def execBusMasterDisable (f : FnId) (s : State) : Res := .next (s.cfgAccess f (fun s => s.bmeOff f))

/-- BUS_MASTER_ENABLE (R339). -/
def execBusMasterEnable (f : FnId) (s : State) : Res := .next (s.cfgAccess f (fun s => s.bmeOn f))

/-- MEMORY_SPACE_ENABLE_CLEAR (R324, R342, R377): on a VF it is VF MSE in the PF that is cleared, for every VF. -/
def execMemorySpaceEnableClear (f : FnId) (s : State) : Res :=
  .next (s.cfgAccess f (fun s =>
    let s := if f.val = 0 then s else s.setCfg 0 sriovControl (putBits (s.cfgWord 0 sriovControl) vfMseBit vfMseBit 0)
    s.setMse f false))

/-- The function's translations go and its page requests are abandoned (R242); waiters for them fault again (R235). -/
def State.dropPri (s : State) (f : Nat) : State :=
  let s := s.dropXlt f none
  let again (w : XWait) : XWait :=
    if w.fn ≠ f ∨ w.phase = .failed then w
    else if w.phase = .ats then (if (s.fn f).atsEnable then w else { w with phase := .failed })
    else { w with phase := .faulted, successes := 0 }
  { s with xlt := { s.xlt with waits := s.xlt.waits.map again, reqs := s.xlt.reqs.filter (fun r => r.fn ≠ f) } }

/-- ATS_PRI_ENABLE_CLEAR (R235, R242). -/
def execAtsPriEnableClear (f : FnId) (what : AtsPri) (s : State) : Res :=
  .next (s.cfgAccess f (fun s =>
    let x := s.fn f
    let x := match what with
      | .atsClear => { x with atsEnable := false }
      | .priClear => { x with priEnable := false }
      | .priReset => { x with respFailure := false }
    (s.setFn f x).dropPri f))

/-! ### Resets and the link (R332, R333, R347 to R349, R477, R487) -/

/-- Modified host lines in the device cache are lost: the host reads poison for them (R348). -/
def Memory.loseDirty (m : Memory) (dc : List (Nat × DcSt)) : Memory :=
  (dc.filter (fun p => p.2 = .m)).foldl (fun m p => m.poisonLine (hostKey p.1)) m

/-- The part as a fundamental reset leaves it (R333): everything at reset but host memory, the counters in the package's flash
(R371), and the model's own records. -/
def State.fundamental (s : State) : State :=
  let m := s.mem.loseDirty s.coh.dc
  let mem : Memory := { cells := m.cells.filter (fun c => isHostKey c.1), poison := m.poison.filter (fun w => isHostKey (8 * w)),
                        scratch := [] }
  { State.reset with
    pending := s.pending, out := s.out, fresh := s.fresh, mem := mem,
    sec := { Sec.reset with antiRollback := s.sec.antiRollback, openCount := s.sec.openCount } }

/-- The device is off: it keeps nothing and answers nothing until a fundamental reset (R347, R420). -/
def State.powerOff (s : State) : State :=
  let s := s.fundamental
  { s with boot := { s.boot with powered := false }, port := { s.port with off := true } }

/-- FUNDAMENTAL_RESET (R333, R349, R423, R487): RST_N goes low; bring-up starts again when it rises. -/
def execFundamentalReset (s : State) : Res := .next s.fundamental

/-- HOT_RESET (R333, R335, R432, R438, R477): before bring-up is complete there is nothing to clear; afterwards every function quiesces, the Portcullis is cleared, and the device is not ready until the
teardown ends. It supersedes a quiesce. -/
def execHotReset (s : State) : Res :=
  if !s.port.linkUp || s.boot.next ≠ 7 then .next s
  else
    let p := s.port
    let p := { p with ready := false, hotResetPending := true, frozen := false, cause := 0, causeSeen := 0, clearRefused := false,
                      heldMsgs := [], linkBad := false, removeRequest := false, removeReady := false, removeCancelled := false,
                      intStatus := 0, intEnable := 0, intVector := 0, ioReads := [] }
    let f := s.flt
    let clear (x : FltSource) : FltSource := { x with timer := 0, count := 0, escalations := 0, total := 0 }
    let f := { f with sources := f.sources.map clear, reaction := none, firstOpen := false }
    let s := { s with port := p, flt := f, boot := { s.boot with noShutters := false }, sec := { s.sec with ideKeys := [], ideGo := none, spdm := [] } }
    .next ((s.fnsUp.foldl (fun s f => s.setFn f { s.fn f with quiescing := true, removing := false }) s).boundary)

/-- The ALV output toggles again after a hot reset that cleared the fatal state (R448); a closed HB0.S cannot. -/
def State.resumeAlv (s : State) : State :=
  let f := s.flt
  if f.alvState.toNat < 2 || !s.open 84 then s
  else { s with flt := { f with alvState := 1, alvLevel := true, alvRefreshed := false }, out := s.out ++ [.alv true] }

/-- HOT_RESET_READINESS (R332, R333, R477): once the scheduler holds nothing, images, contexts, rings and decoders are gone, the
carve is made again at its reset sizes, and the device is ready. -/
def execHotResetReadiness (s : State) : Res :=
  let fs := s.fnsUp
  if !s.port.hotResetPending || s.srv.step.isSome || !fs.all s.quiet then .next s
  else
    let s := fs.foldl (fun s f => s.tearFn f) s
    let s := s.resetPf.emptyCache
    let c := s.coh
    let s := s.remakeCarve
      { Coh.reset with
        dir := c.dir.filter (fun e => (c.carveOff e.1).isNone && (Coh.reset.carveOff e.1).isNone), clock := c.clock, held := c.held,
        wbuf := c.wbuf, reqs := c.reqs, nacks := c.nacks, resvs := c.resvs, dead := c.dead, deadAgent := c.deadAgent,
        deadValid := c.deadValid, evictions := c.evictions, reservations := c.reservations, timeouts := c.timeouts,
        memInfoValid := c.memInfoValid, memoryActive := c.memoryActive }
    let s := { s with fns := [(0, Fn.pf)], port := { s.port with ready := true, hotResetPending := false } }
    .next (s.resumeAlv.sendReady none)

/-- LINK_UP (R332, R348, R349, R366): the link trains, free of its uncorrectable condition; Memory_Info_Valid is 1 from then on. -/
def execLinkUp (s : State) : Res :=
  if s.port.off || !s.boot.powered || s.port.linkUp then .next s
  else
    let s := { s with port := { s.port with linkUp := true, linkBad := false }, coh := { s.coh with memInfoValid := true } }
    .next (if s.port.ready && !s.port.frozen then s.flushAll else s)

/-- LINK_DOWN (R347, R348, R432): after READY the device is off; before readiness it is no surprise; otherwise it is a surprise
removal. -/
def execLinkDown (s : State) : Res :=
  if !s.port.linkUp then .next s
  else if s.port.removeReady then .next s.powerOff
  else if s.boot.next ≠ 7 then .next { s with port := { s.port with linkUp := false } }
  else State.linkFault { s with port := { s.port with linkUp := false } } 3 |> .next

/-! ### Managed removal (R346, R347) -/

/-- REMOVE_REQUEST (R347 steps 1 and 2): every ring of every function drains. -/
def execRemoveRequest (s : State) : Res :=
  .next (s.cfgAccess 0 (fun s =>
    if s.port.removeRequest then s
    else
      let s := { s with port := { s.port with removeRequest := true } }
      s.rings.foldl (fun s x => s.drainRing (x.1 / 64) (x.1 % 64)) s))

/-- REMOVE_CANCEL (R346). -/
def execRemoveCancel (s : State) : Res :=
  .next (s.cfgAccess 0 (fun s =>
    let p := s.port
    if p.removeRequest && !p.removeReady then { s with port := { p with removeRequest := false, removeCancelled := true } } else s))

/-- REMOVE_READY (R347 steps 3 to 5): with every ring drained the contexts detach; with none left, images, device cache and
pairing end and READY is set. -/
def execRemoveReady (s : State) : Res :=
  let p := s.port
  if !p.removeRequest || p.removeReady || s.rings.any (fun r => decide (r.2.st ≠ .disabled)) then .next s
  else
    let live := s.ctxs.filter (fun c => c.2.valid)
    if !live.isEmpty then
      .next ((live.filter (fun c => !c.2.draining)).foldl (fun s c => s.startDetach c.1 none) s)
    else if s.srv.step.isSome || !s.srv.programs.isEmpty || s.srv.loading.isSome || s.coh.asks || p.frozen then .next s
    else
      let s := ((s.dropImage false).emptyCache).unpair
      .next { s with port := { s.port with removeReady := true } }

/-! ### The device's own reads (R330, R341) -/

/-- The read of a tag that is outstanding. -/
def State.openRead (s : State) (tag : BitVec 10) : Option IoRead :=
  s.port.ioReads.find? (fun r => decide (r.tag = tag) && decide (r.ended = none))

/-- The state with an outstanding read changed. -/
def State.setRead (s : State) (r r' : IoRead) : State :=
  { s with port := { s.port with ioReads := s.port.ioReads.map (fun x => if x = r then r' else x) } }

/-- CXLIO_COMPLETION (R341): a piece of a read arrives, or its failure. -/
def execCxlioCompletion (tag : BitVec 10) (status : IoStatus) (data : Bytes) (s : State) : Res :=
  if !s.port.linkUp then .next s
  else
    match s.openRead tag with
    | none => .next ((s.aerUncor 0 aerUnexpected).aerCor 0 aerAdvisory)
    | some r =>
      match status with
      | .ok =>
        let got := (r.got ++ data).take r.len
        .next (s.setRead r { r with got := got, ended := if got.length = r.len then some .ok else none })
      | .poisoned => .next ((s.setRead r { r with ended := some .poisoned }).aerUncor r.fn aerPoisoned)
      | st => .next (s.setRead r { r with ended := some st })

/-- COMPLETION_TIMEOUT (R341): never with Completion Timeout Disable. -/
def execCompletionTimeout (tag : BitVec 10) (s : State) : Res :=
  match s.openRead tag with
  | none => .next s
  | some r =>
    if (s.fn r.fn).noTimeout then .next s
    else .next ((s.setRead r { r with ended := some .abort }).aerUncor r.fn aerTimeout)

end Sys2Proof.Machine
end

