-- ==== Sys2Proof/Machine/Wicket.lean ====
section
/-! DEFINITION. The Wicket (R6, R419, R420, R428, R449 to R456, R497): units in and out of service, spares, retirements, link
repair. -/

namespace Sys2Proof.Machine

/-! ### Islands (R419, R420) -/

/-- Core SRAM of core g goes: a closed island keeps no state. -/
def Memory.loseCore (m : Memory) (g : Nat) : Memory :=
  { m.zero (coreSramPa g 0) (2 ^ 20) with scratch := mapDel m.scratch g }

/-- The cores gs lose everything they hold (R420): their SRAM, registers, queues and translations, and the requests that they have
outstanding elsewhere. What their data caches held is lost with them; the homes learn it when they get no answer (R179, R358). -/
def State.loseCores (s : State) (gs : List Nat) : State :=
  let gone (g : Nat) : Bool := gs.contains g
  let ask (w : Waiter) : Bool := (waiterCore w).any gone
  { s with
      cores := s.cores.filter (fun c => !gone c.1)
      mem := gs.foldl (fun m g => m.loseCore g) s.mem
      joins := s.joins.filter (fun j => !gone j.g)
      xlt := { s.xlt with l1 := s.xlt.l1.filter (fun e => !gone (e.1 / 3)), waits := s.xlt.waits.filter (fun w => !ask w.who) }
      port := { s.port with ioReads := s.port.ioReads.filter (fun r => !ask r.who) }
      coh := { s.coh with reqs := s.coh.reqs.filter (fun r => !gone r.1) } }

/-- A Shutter closes (R420): the island draws no power and keeps no state; with CDd.S go the stacked SRAM, the Finder and the exchange
buffer of the die. -/
def State.closeIsland (s : State) (i : Nat) : State :=
  let s := { s with boot := { s.boot with islandsOpen := setDel s.boot.islandsOpen i } }
  if i < 64 then s.loseCores ((List.range 8).map (8 * i + ·))
  else if i < 80 then
    ({ s with mem := s.mem.zero (ssramPa (i - 64) 0) 0x300_0000, finders := mapDel s.finders (i - 64) } : State).dropXbuf (i - 64)
  else s

/-- Shutters are to open: the request joins the queue of waves (R419). -/
def State.askOpen (s : State) (l : List Nat) : State :=
  { s with boot := { s.boot with
      shutterQueue := s.boot.shutterQueue ++ l.filter (fun i => !s.open i && !s.boot.shutterQueue.contains i) } }

/-- The islands of a die: CDd.S, then its clusters. -/
def dieIslands (d : Nat) : List Nat := (64 + d) :: (List.range 4).map (4 * d + ·)

/-! ### Units (R441, R449) -/

def unitKind (u : BitVec 16) : Nat := bits u.toNat 15 12
def unitIdx (u : BitVec 16) : Nat := bits u.toNat 11 0

/-- The cluster 4d + k and the slot that a core-slot unit names. -/
def slotUnit (u : BitVec 16) : Nat × Nat := (unitIdx u / 16, unitIdx u % 16)

/-- Slot number 36d + 9k + n of slot n of a cluster. -/
def slotNo (cl n : Nat) : Nat := 9 * cl + n

/-- The slot is in service. -/
def State.slotIn (s : State) (cl n : Nat) : Bool := s.clusterUp cl && (s.slots cl).contains n

/-- The die is in service with four clusters (R429, R449). -/
def State.dieIn (s : State) (d : Nat) : Bool := s.dieUp d && (List.range 4).all (fun k => s.clusterUp (4 * d + k))

/-- A usable slot of a cluster that is not in service: its spare. -/
def State.spareOf (s : State) (cl : Nat) : Option Nat :=
  (List.range 9).find? (fun n => !(s.slots cl).contains n && !s.wkt.unusable.contains (slotNo cl n))

/-- The quadrant of a die would keep fewer than 3 dies in the scheduler without it (R449, R456). -/
def State.fewDies (s : State) (d : Nat) : Bool := decide (((quadDies d).filter (fun x => x ≠ d && s.dieSched x)).length < 3)

/-- The dies of a mesh link of R441: 16 + 4q + j joins two positions of quadrant q. -/
def meshDies (i : Nat) : Nat × Nat :=
  let q := (i - 16) / 4 * 4
  match (i - 16) % 4 with
  | 0 => (q, q + 1)
  | 1 => (q + 2, q + 3)
  | 2 => (q, q + 2)
  | _ => (q + 1, q + 3)

/-- The islands that hold a unit of kind 1, 2 or 3. -/
def unitIslands (u : BitVec 16) : List Nat :=
  match unitKind u with
  | 1 => [64 + (slotUnit u).1 / 4, (slotUnit u).1]
  | 2 => [64 + unitIdx u / 4, unitIdx u]
  | _ => dieIslands (unitIdx u)

/-- The cores, as clusters, that a unit of kind 1, 2 or 3 covers. -/
def unitClusters (u : BitVec 16) : List Nat :=
  match unitKind u with
  | 1 => [(slotUnit u).1]
  | 2 => [unitIdx u]
  | _ => (List.range 4).map (4 * unitIdx u + ·)

/-- The unit is out of service. -/
def State.unitOut (s : State) (u : BitVec 16) : Bool :=
  match unitKind u with
  | 1 => !s.slotIn (slotUnit u).1 (slotUnit u).2
  | 2 => !s.clusterUp (unitIdx u)
  | 3 => !s.dieIn (unitIdx u)
  | _ => false

/-- The index names a unit that exists. -/
def unitExists (u : BitVec 16) : Bool :=
  let i := unitIdx u
  match unitKind u with
  | 1 => decide (i / 16 < 64) && decide (i % 16 < 9)
  | 2 => decide (i < 64)
  | 3 => decide (i < 16)
  | 4 => decide (i < 1024)
  | 6 => decide (i < 768)
  | 7 => decide (i < 38)
  | _ => true

/-! ### Results and refusals (R449, R450, R456) -/

def wktDone : Nat := 0
def wktBist : Nat := 1
def wktKind : Nat := 2
def wktUnmet : Nat := 3
def wktNoSpare : Nat := 4
def wktLink : Nat := 5

/-- A drain of a cluster is refused: it is not in service, or its die is and too few would stay. -/
def State.clusterStays (s : State) (cl : Nat) : Bool := !s.clusterUp cl || (s.dieIn (cl / 4) && s.fewDies (cl / 4))

/-- The result with which an operation is refused, if it is. -/
def State.wktRefused (s : State) (o : WktOp) : Option Nat :=
  let k := unitKind o.unit
  let i := unitIdx o.unit
  let kinds : List Nat := match o.op.toNat with
    | 1 | 2 | 3 => [1, 2, 3]
    | 4 => [1]
    | 5 => [4]
    | 6 | 7 => [6]
    | 8 => [7]
    | _ => []
  if !kinds.contains k then some wktKind
  else if !unitExists o.unit || (decide (o.op ≠ 7) && decide (o.arg ≠ 0)) || decide (16777216 ≤ o.arg.toNat) then some wktUnmet
  else
    let su := slotUnit o.unit
    match o.op.toNat with
    | 1 =>
      if k = 1 then (if s.slotIn su.1 su.2 && (s.spareOf su.1).isNone && s.clusterStays su.1 then some wktUnmet else none)
      else if k = 2 then (if s.clusterStays i then some wktUnmet else none)
      else if !s.dieIn i || s.fewDies i then some wktUnmet else none
    | 2 => if s.unitOut o.unit then none else some wktUnmet
    | 3 => if s.unitOut o.unit && s.wkt.tested.contains o.unit.toNat then none else some wktUnmet
    | 4 =>
      if !s.slotIn su.1 su.2 then some wktUnmet else if (s.spareOf su.1).isNone then some wktNoSpare else none
    | 5 => if ((mapGet [] s.wkt.banks (i / 64)).length) < 8 then none else some wktNoSpare
    | 6 => if ((mapGet [] s.wkt.pcs (i / 64)).length) < 4 then none else some wktNoSpare
    | 7 => if ((mapGet [] s.wkt.pages (i / 64)).length) < 4096 then none else some wktNoSpare
    | _ => if s.wkt.linksDown.contains i then some wktUnmet else none

/-! ### Starting an operation -/

/-- WKT_STATUS.BUSY: an operation runs, or a severe reaction waits to. -/
def Wkt.isBusy (w : Wkt) : Bool := w.busy.isSome || !w.waiting.isEmpty

/-- The result of an operation that has ended (WKT_STATUS). -/
def State.wktEnd (s : State) (o : WktOp) (result us : Nat) : State :=
  { s with wkt := { s.wkt with busy := none, result := BitVec.ofNat 4 result, lastOp := o.op, lastUnit := o.unit,
                               durationUs := BitVec.ofNat 32 (min us (2 ^ 32 - 1)) } }

/-- A started program holds cores of a unit. -/
def State.unitPrograms (s : State) (u : BitVec 16) : List Program :=
  s.srv.programs.filter (fun p => p.started && p.cores.any (fun c => (unitClusters u).contains (c.g / 8)))

/-- An operation starts, or ends at once with its refusal. A TEST opens its islands; a severe drain ends the programs on the unit
(R451 step 1). A severe reaction that is refused leaves the unit in service: SERVICE_DUE (R449). -/
def State.wktStart (s : State) (o : WktOp) : State :=
  match s.wktRefused o with
  | some r =>
    let s := s.wktEnd o r 0
    if o.fw then { s with flt := { s.flt with serviceDue := true, reaction := none, firstOpen := false } } else s
  | none =>
    let w := { s.wkt with busy := some o, lastOp := o.op, lastUnit := o.unit }
    let w := if o.op = 1 ∨ o.op = 2 ∨ o.op = 4 then { w with tested := setDel w.tested o.unit.toNat } else w
    let s := { s with wkt := w }
    if o.op = 2 then s.askOpen (unitIslands o.unit)
    else if o.op = 1 && o.fw then (s.unitPrograms o.unit).foldl (fun s p => s.cancelProg p) s
    else s

/-- A row of the Wicket: a write of WKT_CMD with GO by the host, or firmware's start of the severe reaction that waits first
(R435, R456) or of an operation of its own. A write while BUSY is ignored. -/
def State.wicket (s : State) (op : BitVec 4) (unit : BitVec 16) (arg : BitVec 32) (fw : Bool) : State :=
  let own (s : State) : State :=
    if s.wkt.isBusy then { s with wkt := { s.wkt with ignored := true } }
    else
      let s := { s with wkt := { s.wkt with cmdOp := op, cmdUnit := unit, cmdArg := arg } }
      s.wktStart { op := op, unit := unit, arg := arg, fw := false }
  if !fw then s.bar0Write false own
  else
    match s.wkt.waiting with
    | [] => own s
    | o :: rest =>
      if s.wkt.busy.isSome || decide (o.op ≠ op) || decide (o.unit ≠ unit) || decide (o.arg ≠ arg) then own s
      else ({ s with wkt := { s.wkt with waiting := rest } } : State).wktStart o

/-- DRAIN (R449, R451). -/
def execDrain (unit : BitVec 16) (arg : BitVec 32) (fw : Bool) (s : State) : Res := .next (s.wicket 1 unit arg fw)

/-- TEST (R449, R497). -/
def execTest (unit : BitVec 16) (arg : BitVec 32) (fw : Bool) (s : State) : Res := .next (s.wicket 2 unit arg fw)

/-- RETURN (R449, R454). -/
def execReturnUnit (unit : BitVec 16) (arg : BitVec 32) (fw : Bool) (s : State) : Res := .next (s.wicket 3 unit arg fw)

/-- SPARE (R449). -/
def execSpare (unit : BitVec 16) (arg : BitVec 32) (fw : Bool) (s : State) : Res := .next (s.wicket 4 unit arg fw)

/-- RETIRE_BANK (R455). -/
def execRetireBank (unit : BitVec 16) (arg : BitVec 32) (fw : Bool) (s : State) : Res := .next (s.wicket 5 unit arg fw)

/-- SPARE_PC (R455). -/
def execSparePc (unit : BitVec 16) (arg : BitVec 32) (fw : Bool) (s : State) : Res := .next (s.wicket 6 unit arg fw)

/-- RETIRE_PAGE (R455). -/
def execRetirePage (unit : BitVec 16) (arg : BitVec 32) (fw : Bool) (s : State) : Res := .next (s.wicket 7 unit arg fw)

/-- REPAIR_LINK (R455). -/
def execRepairLink (unit : BitVec 16) (arg : BitVec 32) (fw : Bool) (s : State) : Res := .next (s.wicket 8 unit arg fw)

/-! ### What an operation does when it ends -/

/-- The harvest map of a cluster from its usable slots (R428). -/
def State.harvest (s : State) (cl : Nat) : List Nat :=
  let ok := (List.range 9).filter (fun n => !s.wkt.unusable.contains (slotNo cl n))
  if ok.length < 8 then [] else ok.take 8

/-- A cluster's harvest map is set. -/
def State.setSlots (s : State) (cl : Nat) (l : List Nat) : State :=
  { s with wkt := { s.wkt with inService := mapSet [] s.wkt.inService cl l } }

/-- The logical core of a core-slot unit in service (R6, R441). -/
def State.coreOfUnit (s : State) (u : BitVec 16) : Option Nat :=
  if unitKind u ≠ 1 then none
  else ((s.slots (slotUnit u).1).findIdx? (· = (slotUnit u).2)).map (8 * (slotUnit u).1 + ·)

/-- The logical core that a core of a cluster becomes when the harvest map changes (R5, R6). -/
def newCore (cl : Nat) (old new : List Nat) (g : Nat) : Option Nat :=
  (old[g - 8 * cl]?).bind (fun n => ((new.take 8).findIdx? (· = n)).map (8 * cl + ·))

/-- The core whose SRAM a key names. -/
def sramCore (k : Nat) : Option Nat :=
  if 0x10 ≤ paTarget k && decide (paTarget k ≤ 0x1F) && decide (k < 2 ^ 52) then some ((paTarget k - 0x10) * 32 + bits (paOffset k) 24 20)
  else none

/-- What lies in the core SRAM of a cluster follows its slots to their new logical names. -/
def Memory.renameCores (m : Memory) (cl : Nat) (old new : List Nat) : Memory :=
  let mine (k : Nat) : Bool := (sramCore k).any (fun g => g / 8 = cl)
  let rename (k : Nat) : Option Nat :=
    ((sramCore k).bind (newCore cl old new)).map (fun h => coreSramPa h (paOffset k % 2 ^ 20))
  let scratch := m.scratch.foldr (fun x l =>
    if x.1 / 8 ≠ cl then mapPut l x.1 x.2
    else
      match newCore cl old new x.1 with
      | some h => mapPut l h x.2
      | none => l) []
  let rest : Memory := { cells := m.cells.filter (fun c => !mine c.1)
                         poison := m.poison.filter (fun w => !mine (8 * w))
                         scratch := scratch
                         lost := m.lost }
  let moved := m.cells.filterMap (fun c => if mine c.1 then (rename c.1).map (fun k => (k, c.2)) else none)
  let hurt := m.poison.filterMap (fun w => if mine (8 * w) then (rename (8 * w)).map (· / 8) else none)
  { moved.foldl (fun (m : Memory) c => m.put c.1 c.2) rest with poison := hurt.foldl setAdd rest.poison }

/-- The cores of a cluster start from core reset, with the main image's codebooks (R35, R420). -/
def State.freshCores (s : State) (gs : List Nat) : State :=
  gs.foldl (fun s g => s.setCore g { Core.reset with cb := (s.srv.main.map (fun i => codebookSlots i.codebooks)).getD [] }) s

/-- Slot n of a cluster leaves and its spare enters (R6): logical names follow in ascending slot order; the spare's core is
fresh. -/
def State.doSpare (s : State) (cl n : Nat) : State :=
  match s.spareOf cl with
  | none => s
  | some sp =>
    let old := s.slots cl
    let new := setAdd (setDel old n) sp
    let cores := (List.range 8).foldl (fun (l : List (Nat × Core)) i =>
      match newCore cl old new (8 * cl + i) with
      | some h => mapSet Core.reset l h (s.core (8 * cl + i))
      | none => l) (s.cores.filter (fun c => c.1 / 8 ≠ cl))
    let spareCore := (new.findIdx? (· = sp)).map (8 * cl + ·)
    let s := { s.setSlots cl new with cores := cores, mem := s.mem.renameCores cl old new }
    let s := { s with wkt := { s.wkt with unusable := setAdd s.wkt.unusable (slotNo cl n) } }
    s.freshCores spareCore.toList

/-- A cluster goes out of service (R451): its die leaves the scheduler and its Shutter closes. -/
def State.outCluster (s : State) (cl : Nat) : State :=
  let s := { s with wkt := { s.wkt with clusterOut := setAdd s.wkt.clusterOut cl } }
  (s.leaveDie (cl / 4)).closeIsland cl

/-- A die goes out of service (R451): its five Shutters close. -/
def State.outDie (s : State) (d : Nat) : State :=
  let s := { s with wkt := { s.wkt with dieOut := setAdd s.wkt.dieOut d } }
  (dieIslands d).foldl (fun s i => s.closeIsland i) (s.leaveDie d)

/-- A drain takes effect. A slot with a spare is spared, one without takes its cluster out, one not in service becomes
unusable (R449). -/
def State.doDrain (s : State) (u : BitVec 16) : State :=
  match unitKind u with
  | 1 =>
    let su := slotUnit u
    if !s.slotIn su.1 su.2 then { s with wkt := { s.wkt with unusable := setAdd s.wkt.unusable (slotNo su.1 su.2) } }
    else if (s.spareOf su.1).isSome then s.doSpare su.1 su.2
    else
      let s := s.outCluster su.1
      { s with wkt := { s.wkt with unusable := setAdd s.wkt.unusable (slotNo su.1 su.2) } }
  | 2 => s.outCluster (unitIdx u)
  | _ => s.outDie (unitIdx u)

/-- Clusters come back into service: harvest maps are recomputed and the cores start afresh (R420, R454). -/
def State.inClusters (s : State) (cls : List Nat) : State :=
  let s := cls.foldl (fun s cl => s.setSlots cl (s.harvest cl)) s
  s.freshCores (cls.flatMap (fun cl => (List.range 8).map (8 * cl + ·)))

/-- A return takes effect (R449, R454): the unit rejoins, its dead agents are reinstated, and expert homes and partitions go
home. -/
def State.doReturn (s : State) (u : BitVec 16) : State :=
  let w := s.wkt
  let s := match unitKind u with
    | 1 =>
      let su := slotUnit u
      let s := { s with wkt := { w with unusable := setDel w.unusable (slotNo su.1 su.2), clusterOut := setDel w.clusterOut su.1 } }
      if s.clusterUp su.1 && !w.clusterOut.contains su.1 then s else s.inClusters [su.1]
    | 2 => ({ s with wkt := { w with clusterOut := setDel w.clusterOut (unitIdx u) } } : State).inClusters [unitIdx u]
    | _ =>
      let d := unitIdx u
      let mine := (List.range 4).map (4 * d + ·)
      let w := { w with dieOut := setDel w.dieOut d, heldOut := setDel w.heldOut d,
                        clusterOut := w.clusterOut.filter (fun c => !mine.contains c) }
      ({ s with wkt := w } : State).inClusters mine
  let back (a : Nat) : Bool := decide (a < 512) && (unitClusters u).contains (a / 8)
  ({ s with coh := { s.coh with dead := s.coh.dead.filter (fun a => !back a) } }).rejoin

/-- A slot's BIST result is kept in DEV_SLOTFAIL. -/
def State.slotTested (s : State) (u : BitVec 16) (pass : Bool) : State :=
  if unitKind u ≠ 1 then s
  else
    let n := slotNo (slotUnit u).1 (slotUnit u).2
    { s with wkt := { s.wkt with failed := if pass then setDel s.wkt.failed n else setAdd s.wkt.failed n } }

/-- What an operation waits for before it ends (R451, R454, R456, R497): the step boundary, programs on the unit, a load; for a
TEST, open islands. -/
def State.wktReady (s : State) (o : WktOp) : Bool :=
  match o.op.toNat with
  | 1 => s.srv.step.isNone && s.srv.loading.isNone && (s.unitPrograms o.unit).isEmpty
  | 2 => (unitIslands o.unit).all s.open
  | 3 => s.srv.step.isNone
  | 4 => s.srv.step.isNone && (s.unitPrograms o.unit).isEmpty
  | _ => true

/-- WICKET_OPERATION_DONE (R449 to R456, R497): the operation in progress takes effect and ends. pass is the result of its BIST or
of its link training, us its duration. -/
def execWicketOperationDone (pass : Bool) (us : Nat) (s : State) : Res :=
  match s.wkt.busy with
  | none => .next s
  | some o =>
    if !s.wktReady o then .next s
    else
      let i := unitIdx o.unit
      let w := s.wkt
      match o.op.toNat with
      | 1 => .next ((s.doDrain o.unit).wktEnd o wktDone us)
      | 2 =>
        let s := if pass then { s with wkt := { w with tested := setAdd w.tested o.unit.toNat } } else s
        .next ((s.slotTested o.unit pass).wktEnd o (if pass then wktDone else wktBist) us)
      | 3 => .next (((s.doReturn o.unit).wktEnd o wktDone us).boundaryPrograms)
      | 4 => .next ((s.doSpare (slotUnit o.unit).1 (slotUnit o.unit).2).wktEnd o wktDone us)
      | 5 => .next (({ s with wkt := { w with banks := mapPut w.banks (i / 64) (mapGet [] w.banks (i / 64) ++ [i % 64]) } } : State).wktEnd o wktDone us)
      | 6 => .next (({ s with wkt := { w with pcs := mapPut w.pcs (i / 64) (mapGet [] w.pcs (i / 64) ++ [i % 64]) } } : State).wktEnd o wktDone us)
      | 7 => .next (({ s with wkt := { w with pages := mapPut w.pages (i / 64) (mapGet [] w.pages (i / 64) ++ [o.arg.toNat]) } } : State).wktEnd o wktDone us)
      | _ =>
        if pass then .next (({ s with wkt := { w with repaired := setAdd w.repaired i } } : State).wktEnd o wktDone us)
        else
          let s := ({ s with wkt := { w with linksDown := setAdd w.linksDown i } } : State).wktEnd o wktLink us
          .next (s.report (event 11 o.unit (Config.unstated 455 i)))

/-- TEST_TIMEOUT (R497): a TEST without a result after 2^31 HB0.S cycles ends with RESULT 1. -/
def execTestTimeout (s : State) : Res :=
  match s.wkt.busy with
  | some o => if o.op = 2 then .next (s.wktEnd o wktBist 2147483) else .next s
  | none => .next s

end Sys2Proof.Machine
end

