-- ==== Sys2Proof/Machine/Collector.lean ====
section
/-! DEFINITION. The fault collector, its reactions, the Night Log and the ALV signal (R433 to R448). -/

namespace Sys2Proof.Machine

/-! ### Classes (R434) -/

/-- The island of a unit of kind 10 belongs to a unit that the Wicket holds out of service (R418). -/
def State.islandOut (s : State) (i : Nat) : Bool :=
  if i < 64 then s.wkt.dieOut.contains (i / 4) || s.wkt.clusterOut.contains i
  else if i < 80 then s.wkt.dieOut.contains (i - 64)
  else false

/-- The class of one event (R434): 0 corrected, 1 recoverable, 2 severe, 3 fatal. -/
def State.classOf (s : State) (e : FaultEvent) : Nat :=
  let i := unitIdx e.unit
  match e.src.val with
  | 0 | 2 | 4 | 6 | 9 | 10 | 17 | 18 | 20 | 21 => 0
  | 1 | 3 | 5 | 7 | 8 | 14 | 15 | 16 | 26 | 27 => 1
  | 11 => if i < 32 then 2 else 3
  | 19 => if s.islandOut i then 2 else 3
  | 22 => if i < 80 then 2 else 3
  | 24 | 28 => 3
  | 25 => if e.ctx.isSome then 0 else 2
  | 29 => if unitKind e.unit = 1 then 0 else 2
  | 30 => if e.lost then 2 else 0
  | 31 => if e.detail = 3 then 3 else 2
  | _ => 2

/-! ### Windows (R437, R438) -/

/-- N and W of a source; values outside the fields' ranges are the nearer limits. -/
def FltSource.n (x : FltSource) : Nat := max 1 (bits x.cfg.toNat 7 0)
def FltSource.w (x : FltSource) : Nat := clampNat 10 32 (bits x.cfg.toNat 13 8)

/-- A source's timer advances by n cycles; a roll clears its count. -/
def FltSource.advance (x : FltSource) (n : Nat) : FltSource :=
  if x.timer + n < 2 ^ x.w then { x with timer := x.timer + n } else { x with timer := (x.timer + n) % 2 ^ x.w, count := 0 }

/-- n HB0.S cycles pass at the collector. -/
def Flt.advance (f : Flt) (n : Nat) : Flt := { f with time := f.time + n, sources := f.sources.map (fun x => x.advance n) }

/-- A source of the collector. -/
def Flt.source (f : Flt) (i : Nat) : FltSource := f.sources.getD i (FltSource.reset i)

/-! ### The reactions (R435, R436, R448) -/

/-- Every command of a context whose completion is not yet written completes ABORTED (R186): a GENERATE at the next boundary, a
program as by CANCEL. -/
def State.abortCtx (s : State) (tag : Nat) : State :=
  let c := s.ctx tag
  if !c.valid then s
  else
    let f := c.func
    let mine (p : Pkt) : Bool := decide (3 ≤ p.opcode) && decide (p.ctx = tag)
    let s := (s.ringsOf f).foldl (fun (s : State) x =>
      let done := (x.2.pkts.filter (fun p => mine p && decide (p.phase = .done))).map (·.seq)
      let stop (k : Completion) : Completion :=
        if k.final && done.contains k.seq then { k with status := BitVec.ofNat 8 stAborted, result := List.replicate 16 0 } else k
      let s := s.setRing f x.1 { s.ring f x.1 with held := (s.ring f x.1).held.map stop }
      let holds := s.mir.holds.map (fun h => if h.f = f ∧ h.r = x.1 then { h with c := h.c.map stop } else h)
      { s with mir := { s.mir with holds := holds } }) s
    let s := (s.ctxPkts tag).foldl (fun s x =>
      match s.genOf f x.1 x.2.seq with
      | some slot => s.markCancel slot
      | none =>
        match s.progOf f x.1 x.2.seq with
        | some g => s.cancelProg g
        | none =>
          let s := if s.srv.loading.any (fun l => l.f = f && l.r = x.1 && decide (l.q = x.2.seq)) then
            { s with srv := { s.srv with loading := none } } else s
          s.finish f x.1 x.2.seq stAborted []) s
    s.boundary

/-- The Wicket operation with which a severe reaction isolates a unit (R434, R435, R449); none for a unit that cannot be
isolated. -/
def severeOp (u : BitVec 16) : Option WktOp :=
  let i := unitIdx u
  let die (d : Nat) : Option WktOp := some { op := 1, unit := unitDie d, arg := 0, fw := true }
  match unitKind u with
  | 1 | 2 | 3 => some { op := 1, unit := u, arg := 0, fw := true }
  | 4 => some { op := 5, unit := u, arg := 0, fw := true }
  | 6 => some { op := 6, unit := u, arg := 0, fw := true }
  | 7 => if i < 16 then die i else if i < 32 then die (max (meshDies i).1 (meshDies i).2) else none
  | 10 => if i < 64 then die (i / 4) else if i < 80 then die (i - 64) else none
  | _ => none

/-- The ALV output stops (R448): 2 by a fatal reaction, 3 by a missed refresh. -/
def State.stopAlv (s : State) (why : BitVec 2) : State :=
  let f := s.flt
  if f.alvState ≠ 1 then s
  else
    let s' := { s with flt := { f with alvState := why, alvLevel := false } }
    if f.alvLevel then s'.send (.alv false) else s'

/-- The fatal reaction (R435): the log freezes, the Portcullis is entered with cause 4, ALV stops, and no further Shutter
opens. -/
def State.fatal (s : State) : State :=
  let s := { s with flt := { s.flt with frozen := true }, boot := { s.boot with noShutters := true } }
  (s.stopAlv 2).enterPc 4

/-- The severe reaction (R435, R436, R456): the Wicket is to isolate the unit; nothing for a unit already out of service; a unit
that cannot be isolated sets SERVICE_DUE. -/
def State.severe (s : State) (e : FaultEvent) (seqno : BitVec 32) (slot : Option Nat) : State :=
  match severeOp e.unit with
  | none => { s with flt := { s.flt with serviceDue := true, firstOpen := false } }
  | some o =>
    if s.unitOut o.unit then { s with flt := { s.flt with firstOpen := false } }
    else
      let r : Reaction := { fatal := false, source := BitVec.ofNat 5 e.src.val, seqno := seqno, slot := slot, unit := e.unit,
                            began := s.flt.time }
      { s with flt := { s.flt with reaction := some r }, wkt := { s.wkt with waiting := s.wkt.waiting ++ [o] } }

/-! ### Records (R439 to R444) -/

/-- The log with an entry written at NEXT. -/
def Flt.write (f : Flt) (e : NightEntry) : Flt :=
  { f with log := mapPut f.log f.next e, next := (f.next + 1) % 64, wrapped := f.wrapped || decide (f.next = 63),
           seqno := f.seqno + 1 }

/-- An entry with an event merged in (R444). -/
def NightEntry.merge (n : NightEntry) (e : FaultEvent) : NightEntry :=
  { n with mergedSources := n.mergedSources ||| (1 <<< e.src.val), mergedCount := satAdd 0xFFFF n.mergedCount e.events }

/-- An entry raised from severe to fatal (R444). -/
def NightEntry.upgrade (n : NightEntry) : NightEntry := { n with cls := 3, upgraded := true }

/-- The open entry and its copy in FLT_FIRST are changed. -/
def Flt.modOpen (f : Flt) (r : Reaction) (g : NightEntry → NightEntry) : Flt :=
  { f with log := match r.slot with
             | some i => (match mapFind f.log i with | some n => mapPut f.log i (g n) | none => f.log)
             | none => f.log
           first := if f.firstOpen then f.first.map g else f.first }

/-- An event is merged into the open entry of the reaction r; one of fatal class raises a severe reaction to fatal (R444). -/
def State.mergeEvent (s : State) (r : Reaction) (e : FaultEvent) (cls : Nat) : State :=
  let f := s.flt.modOpen r (fun n => n.merge e)
  if cls = 3 && !r.fatal then
    let f := f.modOpen r NightEntry.upgrade
    State.fatal { s with flt := { f with reaction := some { r with fatal := true } } }
  else { s with flt := f }

/-- An event that is not merged is recorded and reacted to (R435, R437, R442, R443). own is its class, esc that its source's
threshold was reached, logged that it gets an entry whatever its class. -/
def State.record (s : State) (e : FaultEvent) (own : Nat) (esc logged : Bool) : State :=
  let cls := if esc then max 2 own else own
  let f := s.flt
  let due := logged || decide (1 ≤ cls) || bit (f.source e.src.val).cfg.toNat 15
  let written := due && !f.frozen
  let n : NightEntry :=
    { seqno := if written then f.seqno else 0xFFFF_FFFF, source := BitVec.ofNat 5 e.src.val, cls := BitVec.ofNat 2 cls,
      escalated := esc, upgraded := false, unit := e.unit, mergedSources := 0, mergedCount := 0, ctx := e.ctx,
      detail := e.detail, time := BitVec.ofNat 48 f.time, events := e.events }
  let slot := if written then some f.next else none
  let seqno := if written then f.seqno else BitVec.ofNat 32 (Config.unstated 443 f.time)
  let f := if written then f.write n
    else if due then { f with lost := BitVec.ofNat 32 (satAdd (2 ^ 32 - 1) f.lost.toNat 1) } else f
  let f := if 1 ≤ cls && !f.firstValid then { f with first := some n, firstValid := true, firstOpen := decide (2 ≤ cls) } else f
  let s := { s with flt := f }
  let s := if own = 0 then s.aerCor 0 aerCorrectedInternal else s
  let s := if 1 ≤ cls then s.hostInt 1 else s
  let s := if own = 1 then (match e.ctx with | some t => s.abortCtx t.toNat | none => s) else s
  if cls = 2 then s.severe e seqno slot
  else if cls = 3 then
    let r : Reaction := { fatal := true, source := BitVec.ofNat 5 e.src.val, seqno := seqno, slot := slot, unit := e.unit,
                          began := s.flt.time }
    State.fatal { s with flt := { s.flt with reaction := some r } }
  else s

/-- An arrival at the collector (R437): counted, then merged into the reaction in progress, or recorded. -/
def State.arrivalAt (s : State) (e : FaultEvent) (injected : Bool) : State :=
  let f := s.flt
  let x := f.source e.src.val
  let own := if injected then 0 else s.classOf e
  let count := min (x.count + e.events) 255
  let esc := bit x.cfg.toNat 14 && decide (x.n ≤ count)
  let x := { x with total := satAdd (2 ^ 32 - 1) x.total e.events, count := if esc then 0 else count,
                    escalations := if esc && f.reaction.isNone then satAdd 255 x.escalations 1 else x.escalations }
  let s := { s with flt := { f with sources := f.sources.set e.src.val x } }
  match f.reaction with
  | some r => s.mergeEvent r e own
  | none => s.record e own esc injected

/-- The collector runs: HB0.S is powered. -/
def State.collects (s : State) : Bool := s.boot.powered && s.open 84

/-- The oldest arrival of an agent: the head of its queue, then what its pending counters hold, in source order (R433). -/
def FltAgent.next (a : FltAgent) : Option (FaultEvent × FltAgent) :=
  match a.queue with
  | e :: q => some (e, { a with queue := q })
  | [] =>
    match a.pending with
    | (_, e) :: l => some (e, { a with pending := l })
    | [] => none

/-- The double-bit error that an event of source 1, 3, 5 or 7 reports has made its word poison, or its accumulator entry (R66, R103,
R193, R499). -/
def State.spoil (s : State) (e : FaultEvent) : State :=
  let d := e.detail.toNat
  if !([1, 3, 5, 7] : List Nat).contains e.src.val then s
  else if d < 2 ^ 52 then { s with mem := { s.mem with poison := setAdd s.mem.poison (d / 8) } }
  else
    let i := bits d 14 6 * 64 + bits d 5 0
    match s.coreOfUnit e.unit with
    | some g => if bit d 63 && decide (e.src.val = 1) then s.modCore g (fun c => { c with accPoison := setAdd c.accPoison i }) else s
    | none => s

/-- FAULT_ARRIVAL (R433 to R444): cycles pass, an event that hardware has detected may reach the port's agent, and the agent
delivers its oldest. An uncorrected error that hardware detects here leaves its word poisoned. -/
def execFaultArrival (p : HubId) (ext : Option FaultEvent) (cycles : Nat) (s : State) : Res :=
  if !s.collects then .next s
  else
    let f := s.flt.advance cycles
    let a := mapGet { queue := [], pending := [] } f.agents p.val
    let s := match ext with
      | some e => s.spoil e
      | none => s
    let a := match ext with
      | some e => a.take e
      | none => a
    match a.next with
    | none => .next { s with flt := f }
    | some (e, a) => .next (State.arrivalAt { s with flt := { f with agents := mapPut f.agents p.val a } } e false)

/-- WINDOW_ROLL (R437): the cycles left in a source's window pass, and its count clears. -/
def execWindowRoll (src : Fin 32) (s : State) : Res :=
  if !s.collects then .next s
  else
    let x := s.flt.source src.val
    .next { s with flt := s.flt.advance (2 ^ x.w - x.timer % 2 ^ x.w) }

/-- REACTION_END (R436): the Wicket has finished with the unit. -/
def execReactionEnd (s : State) : Res :=
  match s.flt.reaction with
  | some r =>
    if r.fatal || !s.wkt.waiting.isEmpty || s.wkt.busy.any (·.fw) then .next s
    else .next { s with flt := { s.flt with reaction := none, firstOpen := false } }
  | none => .next s

/-- REACTION_OVERDUE (R436): after 2^28 cycles without REACTION_END, WDT_HUB of HB0.S is merged and the reaction is fatal. -/
def execReactionOverdue (cycles : Nat) (s : State) : Res :=
  if !s.collects then .next s
  else
    let s := { s with flt := s.flt.advance cycles }
    match s.flt.reaction with
    | some r => if r.fatal || decide (s.flt.time < r.began + 2 ^ 28) then .next s else .next (s.arrivalAt (event 24 (unitHub 4 0) 0) false)
    | none => .next s

/-- The sources that R434 gives no escalation ("—"). -/
def noEscalation : List Nat := [11, 12, 13, 19, 22, 23, 24, 28, 29, 31]

/-- FLT_SRC_CFG_WRITE (R438, R476): the new configuration holds and the window starts afresh. ESC_EN of a source without escalation
stays 0. -/
def execFltSrcCfgWrite (src : Fin 32) (v : BitVec 64) (s : State) : Res :=
  .next (s.bar0Write true (fun s =>
    let f := s.flt
    let n := v.toNat % 2 ^ 16
    let n := if noEscalation.contains src.val then putBits n 14 14 0 else n
    let x := { f.source src.val with cfg := BitVec.ofNat 16 n, timer := 0, count := 0 }
    { s with flt := { f with sources := f.sources.set src.val x } }))

/-- INJECT (R445): one corrected event of source INJECT_SRC with unit none. -/
def execInject (s : State) : Res :=
  .next (s.bar0Write true (fun s =>
    if !s.collects then s else s.arrivalAt (event (Fin.ofNat 32 s.flt.injectSrc.toNat) unitNone 0) true))

/-- UNFREEZE (R442): no effect while FATAL. -/
def execUnfreeze (s : State) : Res :=
  .next (s.bar0Write true (fun s =>
    if s.flt.reaction.any (·.fatal) then s else { s with flt := { s.flt with frozen := false } }))

/-- ALV_TOGGLE (R447): the end of a half-period; without a refresh the output stops and WDT_HUB is raised. -/
def execAlvToggle (s : State) : Res :=
  let f := s.flt
  if f.alvState ≠ 1 || !s.collects then .next s
  else if f.alvRefreshed then
    let f := { f with alvLevel := !f.alvLevel, alvRefreshed := false,
                      alvToggles := BitVec.ofNat 32 (satAdd (2 ^ 32 - 1) f.alvToggles.toNat 1) }
    .next ({ s with flt := f }.send (.alv f.alvLevel))
  else .next ((s.stopAlv 3).report (event 24 (unitHub 4 0) 0))

/-- ALV_REFRESH (R447). -/
def execAlvRefresh (s : State) : Res :=
  if s.flt.alvState = 1 && s.boot.fwRunning then .next { s with flt := { s.flt with alvRefreshed := true } } else .next s

end Sys2Proof.Machine
end

