-- ==== Sys2Proof/Machine/Power.lean ====
section
/-! DEFINITION. Power caps, steering, Louvre, Occulter, hints, temperature and Shutters (R396 to R422), rails and input (R480 to
R486), and the management sideband (R488 to R490). Averages over a period are taken as the latest reports (log entry 47). -/

namespace Sys2Proof.Machine

/-! ### Settings as they act: values outside a field's range are the nearer limit (R410, R413, R418) -/

def Pwr.step (p : Pwr) : Nat := p.helioStep
def Pwr.floor (p : Pwr) : Nat := clampNat 20 60 p.floorW
def Pwr.ceil (p : Pwr) : Nat := clampNat 100 240 p.ceilW
def Pwr.margin (p : Pwr) : Nat := clampNat 0 200 p.marginW
def Pwr.throttleAt (p : Pwr) : Int := clampNat 80 100 p.throttleC
def Pwr.hysteresis (p : Pwr) : Int := clampNat 2 20 p.hystC

/-- The effective cap in W (R399). -/
def Pwr.cap (p : Pwr) : Nat := min p.packageW p.hostW

/-! ### Rails (R397, R398, R482) -/

/-- Rated maximum of a rail in mW (R482). Rails 0 to 99 feed the islands, 100 + n stack Mn. -/
def ratedMw (r : Nat) : Nat :=
  if r < 64 then 60000
  else if r < 80 then 25000
  else if r < 100 then [20000, 45000, 30000, 15000, 10000].getD ((r - 80) % 5) 0
  else 30000

/-- A rail has power: its island is open, or, for a stack, its memory island is. -/
def State.railOn (s : State) (r : Nat) : Bool :=
  if r < 100 then s.open r else s.open (80 + 5 * ((r - 100) / 3) + 2) && !s.boot.stackFailed.contains (r - 100)

/-- A rail as the power manager knows it. -/
def Pwr.rail (p : Pwr) (r : Nat) : Rail := mapGet { mw := 0, lost := false, good := 0 } p.rails r

/-- The power at which a rail counts: measured, or rated while its telemetry is lost (R397). -/
def State.railMw (s : State) (r : Nat) : Nat :=
  if !s.railOn r then 0 else if (s.pwr.rail r).lost then ratedMw r else (s.pwr.rail r).mw

/-- The state with a rail's record replaced. -/
def State.setRail (s : State) (r : Nat) (x : Rail) : State :=
  { s with pwr := { s.pwr with rails := mapPut s.pwr.rails r x } }

/-- Device power and fixed power in mW (R398). -/
def State.deviceMw (s : State) : Nat := ((List.range 112).map s.railMw).sum
def State.fixedNow (s : State) : Nat := (((List.range 112).drop 64).map s.railMw).sum

/-- What a die's share covers: its four cluster rails (R398, R409). -/
def State.dieMw (s : State) (d : Nat) : Nat := ((List.range 4).map (fun k => s.railMw (4 * d + k))).sum

/-- RAIL_REPORT (R397): a lost rail counts again at its second report in succession. -/
def execRailReport (rail : RailId) (mw : Nat) (s : State) : Res :=
  let x := s.pwr.rail rail
  if !s.railOn rail then .next s
  else if x.lost && decide (x.good = 0) then .next (s.setRail rail { x with mw := mw, good := 1 })
  else .next (s.setRail rail { mw := mw, lost := false, good := 0 })

/-- TELEMETRY_TIMEOUT (R397): the rail counts at its rated maximum; source 21 records it, without a unit for a stack. -/
def execTelemetryTimeout (rail : RailId) (s : State) : Res :=
  let x := s.pwr.rail rail
  if !s.railOn rail then .next s
  else if x.lost then .next (s.setRail rail { x with good := 0 })
  else .next ((s.setRail rail { x with lost := true, good := 0 }).report
    (event 21 (if rail.val < 100 then unitIsland rail else unitNone) 0))

/-! ### Shares (R409) -/

/-- The power record of die d is replaced. -/
def State.setDie (s : State) (d : Nat) (x : DiePwr) : State :=
  { s with pwr := { s.pwr with dies := mapSet DiePwr.reset s.pwr.dies d x } }

/-- The dies in service, ascending. -/
def State.diesIn (s : State) : List Nat := (List.range 16).filter s.dieIn

/-- The steerable budget b in W under a cap (R409). -/
def Pwr.budget (p : Pwr) (cap : Nat) : Rat := (cap : Rat) - (p.fixedMw : Rat) / 1000 - p.margin

/-- The lower of the ceiling and a die's thermal ceiling (R409). -/
def State.dieCeil (s : State) (d : Nat) : Rat := min (s.pwr.ceil : Rat) (s.diePwr d).therm

/-- The transfer of R409 in variable mode on shares by die: w gives each die's wait fraction. -/
def State.transfer (s : State) (ds : List Nat) (w share : Nat → Rat) : Nat → Rat :=
  let p := s.pwr
  let wmin := (ds.map w).foldl min ((ds.map w).headD 0)
  let donors := ds.filter (fun d => wmin + (p.deadband : Rat) / 64 < w d)
  let crit := ds.filter (fun d => !donors.contains d)
  let t (d : Nat) : Rat := min (share d * p.step / 64) (share d - p.floor)
  let pool := (donors.map t).sum
  let part := pool / max 1 crit.length
  let up (d : Nat) : Rat := min (share d + part) (s.dieCeil d)
  let left := pool - (crit.map (fun d => up d - share d)).sum
  fun d => if donors.contains d then share d - t d + left / max 1 donors.length else up d

/-- The scaling of R409. Where the shares sum to nothing the rule states no result: the share is an open value within its limits
(log entry 4). -/
def State.scaleShares (s : State) (ds : List Nat) (b : Rat) (share : Nat → Rat) : Nat → Rat :=
  let p := s.pwr
  let sum := (ds.map share).sum
  let n : Rat := ds.length
  if b < p.floor * n then fun _ => max b 0 / max 1 n
  else fun d =>
    let x := if 0 < sum then share d * b / sum else (Config.unstated 409 (16 * s.fresh + d) : Rat)
    max (p.floor : Rat) (min x (s.dieCeil d))

/-! ### The cap (R399, R401, R405) -/

/-- REP_STEP of a cap (R405). -/
def repStepOf (cap : Nat) : Nat :=
  if cap < 1500 then 20 else if cap < 1900 then 36 else if cap < 2300 then 52 else if cap < 2700 then 64 else if cap < 3000 then 72 else 80

/-- What follows a change of the effective cap from old (R401, R405): UPDATED, the count, the interrupt, the repeatable clock, and
for a reduction the shares at once. -/
def State.capChanged (s : State) (old : Nat) : State :=
  let p := s.pwr
  if p.cap = old then s
  else
    let b0 := p.budget old
    let ratio := if p.cap < old ∧ 0 < b0 then max (p.budget p.cap) 0 / b0 else 1
    let p := { p with updated := true, capChanges := BitVec.ofNat 16 (satAdd 0xFFFF p.capChanges.toNat 1),
                      repStep := if p.repAuto then repStepOf p.cap else p.repStep,
                      dies := p.dies.map (fun d => (d.1, { d.2 with share := d.2.share * ratio })) }
    State.hostInt { s with pwr := p } 4

/-- A package cap arrives (R399): 0 is no update; a value outside 1,200 to 3,300 is clamped. -/
def State.setPackageCap (s : State) (w : Nat) : State :=
  if w = 0 then s
  else
    let v := clampNat 1200 3300 w
    let p := s.pwr
    ({ s with pwr := { p with packageW := v, clamped := p.clamped || decide (v ≠ w) } } : State).capChanged p.cap

/-- PWR_CAP_WRITE (R399, R401): HOST_W, and the two W1C bits. -/
def execPwrCapWrite (v : BitVec 64) (s : State) : Res :=
  .next (s.bar0Write false (fun s =>
    let p := s.pwr
    let p' := { p with hostW := clampNat 1200 3300 (bits v.toNat 31 16), clamped := p.clamped && !bit v.toNat 48,
                       updated := p.updated && !bit v.toNat 49 }
    ({ s with pwr := p' } : State).capChanged p.cap))

/-- PWR_MODE_WRITE (R408). REP_STEP is taken only when the write leaves REP_AUTO at 0. -/
def execPwrModeWrite (v : BitVec 64) (s : State) : Res :=
  .next (s.bar0Write false (fun s =>
    let n := v.toNat
    let p := s.pwr
    { s with pwr := { p with varMode := bit n 0, repAuto := bit n 1, hostHints := bit n 2, imageHints := bit n 3,
                             repStep := if bit n 1 then p.repStep else bits n 14 8 } }))

/-! ### Thermal throttling (R416 to R418) -/

/-- The last reading of a sensor: islands 0 to 99, stacks 100 + n. -/
def Pwr.temp (p : Pwr) (i : Nat) : Int := mapGet 0 p.sensors i

/-- The highest reading of a list of sensors. -/
def Pwr.hottest (p : Pwr) (l : List Nat) : Int := (l.map p.temp).foldl max ((l.map p.temp).headD 0)

/-- The islands of hub h. -/
def hubIslands (h : Nat) : List Nat := (List.range 5).map (80 + 5 * h + ·)

/-- The unit and reading for which a die throttles (R416, R417): its own sensor, a sensor of its hub, or the alert of a stack of
its quadrant, which is reported for the memory island. -/
def State.hotCause (s : State) (d : Nat) : Option (BitVec 16 × Int) :=
  let p := s.pwr
  let h := d / 4
  if p.throttleAt ≤ p.hottest (dieIslands d) then some (unitDie d, p.hottest (dieIslands d))
  else
    match (hubIslands h).find? (fun i => decide (p.throttleAt ≤ p.temp i)) with
    | some i => some (unitHub ((i - 80) % 5) h, p.temp i)
    | none =>
      ((List.range 3).find? (fun j => p.alerts.contains (3 * h + j))).map (fun j => (unitHub 2 h, p.temp (100 + 3 * h + j)))

/-- One period of R417 for a die: its ceiling falls while it is hot and rises once every sensor of it is cool. -/
def State.thermDie (s : State) (d : Nat) : State :=
  let p := s.pwr
  let x := s.diePwr d
  match s.hotCause d with
  | some (u, t) =>
    let s' := s.setDie d { x with therm := max (p.floor : Rat) (x.therm - (p.ceil : Rat) / 10), throttled := true }
    if x.throttled then s'
    else
      let s' := { s' with pwr := { s'.pwr with throttleEntries := BitVec.ofNat 16 (satAdd 0xFFFF p.throttleEntries.toNat 1) } }
      (s'.hostInt 4).report { event 18 u 0 with detail := BitVec.ofInt 64 t }
  | none =>
    if (dieIslands d).all (fun i => decide (p.temp i ≤ p.throttleAt - p.hysteresis)) then
      let therm := min (p.ceil : Rat) (x.therm + (p.ceil : Rat) / 20)
      s.setDie d { x with therm := therm, throttled := x.throttled && decide (therm < p.ceil) }
    else s

/-- SENSOR_READ (R416, R417): a reading of an island's sensors, or of a stack with its alert; 5 °C above the threshold the die's
Louvre goes to 8 at once. -/
def execSensorRead (r : RailId) (temp : Int) (alert : Bool) (s : State) : Res :=
  if !s.railOn r then .next s
  else
    let p := s.pwr
    let p := { p with sensors := mapPut p.sensors r temp,
                      alerts := if 100 ≤ r.val then (if alert then setAdd p.alerts (r - 100) else setDel p.alerts (r - 100)) else p.alerts }
    let s := { s with pwr := p }
    let d := if r.val < 64 then r.val / 4 else r.val - 64
    if r.val < 80 ∧ p.throttleAt + 5 ≤ temp then
      let x := s.diePwr d
      let s := s.setDie d { x with louvre := x.louvre.map (min 8), thermLouvre := min 8 x.thermLouvre }
      .next { s with pwr := { s.pwr with louvreSeen := true } }
    else .next s

/-- THERMAL_TRIP (R418): the comparator closes its own island's Shutter and signals the collector and HB0.P; but for an island held
out of service the Portcullis is entered with cause 4. A trip of HB0.S stops ALV; one under TEST fails the test (R456). -/
def execThermalTrip (i : IslandId) (temp : Int) (s : State) : Res :=
  if !s.open i then .next s
  else
    let out := s.islandOut i
    let testing := s.wkt.busy.any (fun o => decide (o.op = 2) && (unitIslands o.unit).contains i)
    let s := if i.val < 80 then
        let d := if i.val < 64 then i.val / 4 else i.val - 64
        s.setDie d { s.diePwr d with tripped := true }
      else s
    let s := if i.val = 84 then s.stopAlv 2 else s
    let s := (s.closeIsland i).report { event 19 (unitIsland i) 0 with detail := BitVec.ofInt 64 temp }
    let s := match s.wkt.busy with
      | some o => if testing then s.wktEnd o wktBist 0 else s
      | none => s
    if out then .next s
    else .next (State.enterPc { s with boot := { s.boot with noShutters := true } } 4)

/-! ### The Heliostat and the die agents (R404, R409, R410) -/

/-- Clock in MHz and voltage in microvolt of a clock step (R402, R482). -/
def stepMhz (n : Nat) : Nat := 1000 + 25 * n
def stepUv (n : Nat) : Nat := 550000 + 3125 * n

/-- The maximum step of a cluster (R402, R428): the lowest certified step among its slots in service, at most 96. -/
def State.maxStep (s : State) (cl : Nat) : Nat :=
  (s.slots cl).foldl (fun m n => min m (mapGet 0 s.wkt.steps (slotNo cl n))) 96

/-- The power of a cluster at step n with the Louvre open, estimated from P at step m and Louvre l (R410). -/
def estimate (p : Rat) (l m n : Nat) : Rat :=
  p * (32 / max 1 (l : Rat)) * ((stepMhz n : Rat) * (stepUv n : Rat) ^ 2) / ((stepMhz m : Rat) * (stepUv m : Rat) ^ 2)

/-- The highest step up to lim whose estimate fits a part of the share; 0 if none does. -/
def chooseStep (p : Rat) (l m lim : Nat) (part : Rat) : Nat :=
  (((List.range (lim + 1)).filter (fun n => decide (estimate p l m n ≤ part))).getLast?).getD 0

/-- A die's clocks are asked for (R403): a fall is in force at once, a rise waits for the rail. -/
def DiePwr.ask (x : DiePwr) (want : List Nat) : DiePwr :=
  { x with steps := x.steps.zipIdx.map (fun a => min a.1 (want.getD a.2 a.1))
           wants := (x.steps.zipIdx.filter (fun a => decide (a.1 < want.getD a.2 a.1))).map (fun a => (a.2, want.getD a.2 0)) }

/-- The lowest Louvre setting of a die. -/
def DiePwr.lowest (x : DiePwr) : Nat := x.louvre.foldl min 32

/-- A die agent at the period (R404, R409, R410). In variable mode it chooses its clocks within its share and opens the Louvre;
below the floor (held) every die takes 1.0 GHz and Louvre 4. -/
def State.dieClocks (s : State) (d : Nat) (held : Bool) : State :=
  let p := s.pwr
  let x := s.diePwr d
  let mw := (List.range 4).map (fun k => s.railMw (4 * d + k))
  let total := mw.sum
  let x := { x with powerMw := total + s.railMw (64 + d), perStep := total / max 1 x.lowest }
  if !p.variableActive then s.setDie d (x.ask (List.replicate 4 p.repStepActive))
  else if held then s.setDie d { x.ask [0, 0, 0, 0] with louvre := [4, 4, 4, 4] }
  else
    let part (k : Nat) : Rat :=
      if total = 0 then x.share / 4 else x.share * (mw.getD k 0 : Rat) / total
    let want := (List.range 4).map (fun k =>
      chooseStep ((mw.getD k 0 : Rat) / 1000) (x.louvre.getD k 32) (x.steps.getD k 0) (s.maxStep (4 * d + k)) (part k))
    s.setDie d { x.ask want with louvre := List.replicate 4 (min 32 x.thermLouvre) }

/-- The power manager runs: bring-up is complete, firmware runs and HB0.S has power. -/
def State.steers (s : State) : Bool := decide (s.boot.next = 7) && s.boot.fwRunning && s.open 84

/-- Some cluster in service has its Louvre below 32. -/
def State.louvreLow (s : State) : Bool := s.diesIn.any (fun d => decide ((s.diePwr d).lowest < 32))

/-- HELIOSTAT_PERIOD (R398, R402 to R410, R417): the mode and clock of PWR_MODE take effect, thermal ceilings move, shares are
computed from each die's (wait, total) cycles, and the die agents set their clocks. -/
def execHeliostatPeriod (waits : List (Nat × Nat)) (s : State) : Res :=
  if !s.steers then .next s
  else
    let p := s.pwr
    let rep := if p.repAuto then repStepOf p.cap else p.repStep
    let low := p.louvreSeen || s.louvreLow
    let s := { s with
      fresh := s.fresh + 1,
      pwr := { p with variableActive := p.varMode, repStep := rep, repStepActive := min 80 rep, fixedMw := s.fixedNow,
                      louvreEngaged := low, louvreSeen := false,
                      louvrePeriods := if low then BitVec.ofNat 16 (satAdd 0xFFFF p.louvrePeriods.toNat 1) else p.louvrePeriods } }
    let s := (List.range 16).foldl (fun s d => if s.dieIn d || (s.diePwr d).throttled then s.thermDie d else s) s
    let p := s.pwr
    let ds := s.diesIn
    let w (d : Nat) : Rat := let x := waits.getD d (0, 0); (x.1 : Rat) / max 1 (x.2 : Rat)
    let b := p.budget p.cap
    let share (d : Nat) : Rat := (s.diePwr d).share
    let moved := if p.variableActive then s.transfer ds w share else share
    let final := s.scaleShares ds b moved
    let held := decide (b < (p.floor : Rat) * (ds.length : Rat))
    let s := (List.range 16).foldl (fun s d => s.setDie d { s.diePwr d with share := if ds.contains d then final d else 0 }) s
    .next (ds.foldl (fun s d => s.dieClocks d held) s)

/-- The thermal Louvre of a die moves by one step (R404, R417): down while the die draws more than its thermal ceiling, else up; 8 at
most while a sensor is 5 °C above the threshold (log entry 48). -/
def State.thermStep (s : State) (d : Nat) : DiePwr :=
  let x := s.diePwr d
  let p := s.pwr
  let hot := decide (p.throttleAt + 5 ≤ p.hottest (dieIslands d))
  let above := x.throttled && decide (x.therm * 1000 < (s.dieMw d : Rat))
  let l := if above then max 4 (x.thermLouvre - 1) else min 32 (x.thermLouvre + 1)
  { x with thermLouvre := if hot then min 8 l else l }

/-- REPEATABLE_LOUVRE_TICK (R404): the common Louvre goes one step down above the cap less the margin, one up below it; a die under
its thermal ceiling may hold a lower setting. -/
def execRepeatableLouvreTick (s : State) : Res :=
  let p := s.pwr
  if !s.steers || p.variableActive then .next s
  else
    let lim := (p.cap - p.margin) * 1000
    let now := s.deviceMw
    let l := if lim < now then max 4 (p.commonLouvre - 1) else if now < lim then min 32 (p.commonLouvre + 1) else p.commonLouvre
    let s := { s with pwr := { p with commonLouvre := l } }
    let s := s.diesIn.foldl (fun s d =>
      let x := s.thermStep d
      s.setDie d { x with louvre := List.replicate 4 (min l x.thermLouvre) }) s
    .next { s with pwr := { s.pwr with louvreSeen := s.pwr.louvreSeen || s.louvreLow } }

/-- DIE_AGENT_TICK (R410): above its share a die lowers its Louvre by enough steps, never below 4; below it, one step up. -/
def execDieAgentTick (d : DieId) (s : State) : Res :=
  if !s.steers || !s.pwr.variableActive || !s.dieIn d then .next s
  else
    let x := s.thermStep d
    let mw : Rat := s.dieMw d
    let share := x.share * 1000
    let steps : Nat := ((mw - share) / max 1 x.perStep).ceil.toNat
    let move (l : Nat) : Nat := if share < mw then max 4 (l - steps) else if mw < share then min 32 (l + 1) else l
    let s := s.setDie d { x with louvre := x.louvre.map (fun l => min (move l) x.thermLouvre) }
    .next { s with pwr := { s.pwr with louvreSeen := s.pwr.louvreSeen || s.louvreLow } }

/-- VOLTAGE_REACHED (R403): the rise that a cluster waits for takes effect. -/
def execVoltageReached (d : DieId) (k : Fin 4) (s : State) : Res :=
  let x := s.diePwr d
  match mapFind x.wants k with
  | none => .next s
  | some n => .next (s.setDie d { x with steps := x.steps.set k n, wants := mapDel x.wants k })

/-! ### The Occulter (R413) -/

/-- DROOP_DETECT (R413): the cluster's clock is stretched, the event is counted and reported. -/
def execDroopDetect (d : DieId) (k : Fin 4) (s : State) : Res :=
  let cl := 4 * d.val + k.val
  let p := s.pwr
  if !s.open cl || p.stretched.contains cl then .next s
  else .next (State.report { s with pwr := { p with stretched := setAdd p.stretched cl,
                                                    droop := BitVec.ofNat 16 (satAdd 0xFFFF p.droop.toNat 1) } }
    (event 20 (unitCluster d k) 0))

/-- DROOP_RECOVER (R413): after HOLD cycles above the threshold the stretch ends. -/
def execDroopRecover (d : DieId) (k : Fin 4) (s : State) : Res :=
  .next { s with pwr := { s.pwr with stretched := setDel s.pwr.stretched (4 * d.val + k.val) } }

/-! ### Hints and phase marks (R314, R414, R415) -/

/-- POWER_HINT of one kind: it supersedes the hint in force in variable mode with HOST_HINTS, and completes DONE at once. -/
def State.powerHint (s : State) (f : FnId) (r : RingId) (q : PktSeq) (kind : Nat) : Res :=
  s.packet f r q 0x50 (fun p => p.byte 16 = kind) (fun p s =>
    let acts := s.pwr.variableActive && s.pwr.hostHints
    let h : Hint := { kind := kind, lead := min 1000 (p.field 20 4), dur := max 1 (min 100000 (p.field 24 4)) }
    let s := if acts then { s with pwr := { s.pwr with hint := if kind = 2 then none else some h } } else s
    s.finish f r q stDone [])

/-- POWER_HINT heavy (R415). -/
def execPowerHintHeavy (f : FnId) (r : RingId) (q : PktSeq) (s : State) : Res := s.powerHint f r q 0

/-- POWER_HINT light (R415). -/
def execPowerHintLight (f : FnId) (r : RingId) (q : PktSeq) (s : State) : Res := s.powerHint f r q 1

/-- POWER_HINT clear (R415). -/
def execPowerHintClear (f : FnId) (r : RingId) (q : PktSeq) (s : State) : Res := s.powerHint f r q 2

/-- HINT_EXPIRY (R415): the hint in force ends. -/
def execHintExpiry (s : State) : Res := .next { s with pwr := { s.pwr with hint := none } }

/-- PHASE_MARK (R414): in force only in variable mode with IMAGE_HINTS and a step in flight. -/
def execPhaseMark (heavy : Bool) (s : State) : Res :=
  let p := s.pwr
  if p.variableActive && p.imageHints && s.srv.step.isSome then .next { s with pwr := { p with phaseHeavy := some heavy } } else .next s

/-! ### Shutters, regulators and the input (R419, R480, R483, R486) -/

/-- SHUTTER_WAVE (R419): at most eight queued Shutters open, none after a fatal fault. -/
def execShutterWave (s : State) : Res :=
  let b := s.boot
  if !b.powered || b.noShutters || !s.open 84 then .next s
  else .next { s with boot := { b with islandsOpen := (b.shutterQueue.take 8).foldl setAdd b.islandsOpen,
                                       shutterQueue := b.shutterQueue.drop 8 } }

/-- REG_FAIL (R434, R483): UV, OV or OC switches the rail off, as a closed Shutter does. -/
def execRegFail (rail : RailId) (word : BitVec 32) (s : State) : Res :=
  if !s.railOn rail then .next s
  else
    let r := rail.val
    let off := decide (bits word.toNat 2 0 ≠ 0)
    let s := s.report (event 22 (if r < 100 then unitIsland r else unitNone) word.toNat)
    if !off then .next s
    else if r < 100 then .next ((if r = 84 then s.stopAlv 2 else s).closeIsland r)
    else
      let n := r - 100
      .next { s with mem := s.mem.zero (hbmPa n 0) (2 ^ 36), boot := { s.boot with stackFailed := setAdd s.boot.stackFailed n } }

/-- REFCLK_LOSS (R486, R495): before firmware the boot ROM stops; afterwards a fatal REG_FAIL of HB0.S with REF. -/
def execRefclkLoss (s : State) : Res :=
  if !s.open 84 then .next s
  else if !s.boot.fwRunning then .next { s with boot := { s.boot with romStopped := true } }
  else .next (s.report (event 22 (unitIsland 84) 16))

/-- INPUT_VOLTAGE_WARN (R480): outside 40 to 60 V a warning; below 36 V or above 64 V the device is off. -/
def execInputVoltageWarn (mv : Nat) (s : State) : Res :=
  if mv < 36000 ∨ 64000 < mv then .next s.powerOff
  else if 40000 ≤ mv ∧ mv ≤ 60000 then .next s
  else if !s.open 84 then .next s
  else .next (s.report (event 21 unitNone mv))

/-- POWER_REMOVED (R432, R480, R495): Azoigon is off; no fault is recorded. -/
def execPowerRemoved (s : State) : Res := .next s.powerOff

/-! ### Status registers (R398, R430) -/

/-- PWR_STATUS (R398). -/
def State.pwrStatus (s : State) : Nat :=
  let p := s.pwr
  b2n p.variableActive + 2 * b2n p.louvreEngaged + 4 * b2n (p.dies.any (fun d => d.2.throttled)) +
    8 * b2n (p.hint.any (fun h => h.kind = 0)) + 16 * b2n (p.rails.any (fun r => r.2.lost && s.railOn r.1)) +
    2 ^ 8 * p.repStepActive + 2 ^ 16 * min 65535 (s.deviceMw / 1000) + 2 ^ 32 * min 65535 (p.fixedMw / 1000)

/-- DEV_BRINGUP (R430): written by firmware in B6. -/
def State.devBringup (s : State) : Nat :=
  let b := s.boot
  let live := decide (b.next = 7)
  let dies := if live then ((List.range 16).map (fun d => if s.dieUp d then 2 ^ d else 0)).sum else 0
  b.state.toNat + 4 * b.stage.toNat + 2 ^ 5 * b.failStage.toNat + 2 ^ 8 * b.failUnit.toNat + 2 ^ 16 * dies +
    2 ^ 32 * b.timeMs.toNat + 2 ^ 48 * (if live then s.coresUp.length else 0)

/-! ### The management sideband (R488 to R490) -/

/-- A sideband request (R488, R490): no answer without HB0.S; k gives the results, none for BAD_REQUEST. A nonzero byte 2 or 3 is
BAD_REQUEST; before firmware only early commands are answered with OK. -/
def State.sideband (s : State) (cmd : Nat) (tag b2 b3 : BitVec 8) (early : Bool) (k : State → Option Bytes × State) : Res :=
  if !s.boot.powered || !s.open 84 then .next s
  else
    let head (st : Nat) : Bytes := [BitVec.ofNat 8 (cmd + 0x80), tag, BitVec.ofNat 8 st, 0]
    if !s.boot.fwRunning && !early then .next (s.send (.sideband (head 1)))
    else if b2 ≠ 0 ∨ b3 ≠ 0 then .next (s.send (.sideband (head 2)))
    else
      match k s with
      | (some bs, s) => .next (s.send (.sideband (head 0 ++ bs)))
      | (none, s) => .next (s.send (.sideband (head 2)))

/-- SET_CAP (R399, R432, R489, R490): held until firmware runs. -/
def execSetCap (tag b2 b3 : BitVec 8) (capW : BitVec 16) (s : State) : Res :=
  s.sideband 1 tag b2 b3 true (fun s =>
    let w := capW.toNat
    let s := if s.boot.fwRunning then s.setPackageCap w
      else if w = 0 then s else { s with pwr := { s.pwr with heldCap := some w } }
    (some (natLe s.pwr.cap 2), s))

/-- GET_STATUS (R489). -/
def execGetStatus (tag b2 b3 : BitVec 8) (s : State) : Res :=
  s.sideband 2 tag b2 b3 false (fun s =>
    (some (natLe s.flt.status 8 ++ natLe s.flt.alv 8 ++ natLe s.pwrStatus 8 ++ natLe s.devBringup 8), s))

/-- READ_NIGHT_LOG (R489). -/
def execReadNightLog (tag b2 b3 : BitVec 8) (first count : BitVec 8) (s : State) : Res :=
  s.sideband 3 tag b2 b3 false (fun s =>
    let n := count.toNat
    if 64 ≤ first.toNat ∨ n = 0 ∨ 16 < n then (none, s)
    else (some (natLe s.flt.nlStatus 8 ++ (List.range n).flatMap (fun i => s.flt.slot ((first.toNat + i) % 64))), s))

/-- A temperature as a signed byte. -/
def tempByte (t : Int) : Byte := BitVec.ofInt 8 t

/-- GET_THERMAL (R489): dies, hubs and stacks; 0x80 for what is out of service. -/
def execGetThermal (tag b2 b3 : BitVec 8) (s : State) : Res :=
  s.sideband 4 tag b2 b3 false (fun s =>
    let p := s.pwr
    let die (d : Nat) : Byte := if s.dieUp d then tempByte (p.hottest (dieIslands d)) else 0x80
    let stack (n : Nat) : Byte := if s.boot.stackFailed.contains n then 0x80 else tempByte (p.temp (100 + n))
    (some ((List.range 16).map die ++ (List.range 4).map (fun h => tempByte (p.hottest (hubIslands h))) ++
      (List.range 12).map stack), s))

end Sys2Proof.Machine
end

