-- ==== Sys2Proof/Machine/Bringup.lean ====
section
/-! DEFINITION. Bring-up, stages B0 to B6 (R370 to R373, R423 to R432). The command of a stage is its completion; Shutters open by
waves between. -/

namespace Sys2Proof.Machine

/-- Stage n may complete now: it is next, the device has power, and neither the boot ROM nor a fatal fault has stopped bring-up. -/
def State.atStage (s : State) (n : Nat) : Bool :=
  s.boot.powered && decide (s.boot.next = n) && !s.boot.romStopped && !s.boot.noShutters && (decide (n = 0) || s.open 84)

/-- The next stage begins, with Shutters to open. -/
def State.nextStage (s : State) (n : Nat) (shutters : List Nat) : State :=
  ({ s with boot := { s.boot with next := n } } : State).askOpen shutters

/-- Bring-up stops for good (R370, R372, R427, R431). -/
def State.romStop (s : State) : State := { s with boot := { s.boot with romStopped := true } }

/-- The first unit failure is kept in DEV_BRINGUP (R430). -/
def State.unitFailed (s : State) (stage unit : Nat) : State :=
  if s.boot.failStage ≠ 7 then s
  else { s with boot := { s.boot with failStage := BitVec.ofNat 3 stage, failUnit := BitVec.ofNat 8 unit } }

/-- The hub islands in the order of R424: P, H, M, D of HB0; S of HB1 to HB3; P, H, M, D of HB1 to HB3. -/
def hubOrder : List Nat :=
  [80, 81, 82, 83] ++ [89, 94, 99] ++ [85, 86, 87, 88, 90, 91, 92, 93, 95, 96, 97, 98]

/-- The compute islands in the order of R425: per quadrant the four CDd.S, then the sixteen clusters. -/
def computeOrder : List Nat :=
  (List.range 4).flatMap (fun q => (List.range 4).map (64 + 4 * q + ·) ++ (List.range 16).map (16 * q + ·))

/-- A die identity word names the die that is expected (R426). -/
def identityOk (w : BitVec 32) (typ pos : Nat) : Bool := decide (bits w.toNat 7 0 = typ) && decide (bits w.toNat 11 8 = pos)

/-- STAGE_B0 (R423): the Shutter of HB0.S opens. -/
def execStageB0 (s : State) : Res :=
  if !s.atStage 0 then .next s
  else .next (({ s with boot := { s.boot with islandsOpen := setAdd s.boot.islandsOpen 84 } } : State).nextStage 1 hubOrder)

/-- STAGE_B1 (R423, R424): every hub island is open, and the host link comes up. -/
def execStageB1 (s : State) : Res :=
  if !s.atStage 1 || !hubOrder.all s.open then .next s
  else .next (({ s with port := { s.port with linkUp := true } } : State).nextStage 2 [])

/-- The hubs whose identity words reach hub h, in port order; ids lists those of HB0 to HB3. -/
def hubPeers (h : Nat) : List Nat := (List.range 4).filter (· ≠ h)

/-- STAGE_B2 (R423, R426, R431): the hub mesh trains; a failure before firmware starts stops bring-up. -/
def execStageB2 (ok : Bool) (ids : List (BitVec 32)) (s : State) : Res :=
  if !s.atStage 2 then .next s
  else
    let want := (List.range 4).flatMap hubPeers
    let all := ok && decide (ids.length = 12) && (ids.zip want).all (fun x => identityOk x.1 2 x.2)
    if all then .next (s.nextStage 3 []) else .next s.romStop

/-- The firmware bundle that boots (R372, R491): A, else B; none where both fail. -/
def bootBundle (s : State) (r : BootRecord) : Option Bundle :=
  let ok (b : Bundle) : Bool := r.flashOk && b.sigOk && decide (s.sec.antiRollback.toNat ≤ b.svn.toNat)
  if ok r.bundleA then some r.bundleA else if ok r.bundleB then some r.bundleB else none

/-- A private scalar that the boot ROM derives from the device secret (R370): the same at every boot, and open (log entry 4). -/
def derivedKey (label : Nat) : Nat := Config.unstated 370 label % (p384N - 1) + 1

/-- What is retired, by stack. -/
def retiredOf (l : List (Nat × Nat)) : List (Nat × List Nat) :=
  (List.range 12).foldl (fun m n => mapSet [] m n ((l.filter (fun p => p.1 = n)).map (·.2)).eraseDups) []

/-- STAGE_B3 (R370 to R374, R402, R427, R432, R447): keys, record, firmware. Firmware starts with the measurements made, the ALV output
goes high, and the cap that the boot ROM held is applied. -/
def execStageB3 (rec : BootRecord) (s : State) : Res :=
  if !s.atStage 3 then .next s
  else if !rec.secretsOk || !rec.recordOk then .next s.romStop
  else
    match bootBundle s rec with
    | none => .next s.romStop
    | some b =>
      let slots := List.range 576
      let bad := slots.filter (fun i => !rec.good.getD i false || decide (rec.steps.getD i 0 < 80))
      let s := { s with
        sec := { s.sec with keysReady := true, devPriv := derivedKey 1, sealPriv := derivedKey 2, romDigest := rec.romDigest,
                            fwDigest := b.digest, svn := b.svn }
        boot := { s.boot with fwRunning := true, fwVersion := b.version }
        flt := { s.flt with alvState := 1, alvLevel := true, alvRefreshed := false }
        wkt := { s.wkt with pages := retiredOf rec.pages, pcs := retiredOf rec.pcs, unusable := bad, failed := slots.filter (fun i => !rec.good.getD i false),
                            steps := slots.map (fun i => (i, min 96 (rec.steps.getD i 0))) }
        out := s.out ++ [OutMsg.alv true] }
      let s := match s.pwr.heldCap with
        | some w => ({ s with pwr := { s.pwr with heldCap := none } } : State).setPackageCap w
        | none => s
      .next (s.nextStage 4 [])

/-- STAGE_B4 (R423, R427, R430): the stacks train, and spares replace the pseudo-channels lost at manufacture or in the test; a stack
fails that did not train or has lost more than its four spares cover (R449). -/
def execStageB4 (res : B4Result) (s : State) : Res :=
  if !s.atStage 4 then .next s
  else
    let pcs := (List.range 12).foldl (fun m n =>
      mapSet [] m n (mapGet [] m n ++ (res.lost.filter (fun p => p.1 = n)).map (·.2)).eraseDups) s.wkt.pcs
    let bad := (List.range 12).filter (fun n => res.failed.contains n || decide (4 < (mapGet [] pcs n).length))
    let s := { s with wkt := { s.wkt with pcs := pcs } }
    let s := { s with boot := { s.boot with stackFailed := bad.foldl setAdd s.boot.stackFailed } }
    .next ((bad.foldl (fun s n => s.unitFailed 4 (0x20 + n)) s).nextStage 5 computeOrder)

/-- A die is held out of service (R429): its Shutters close and a severe fault is recorded. -/
def State.holdOut (s : State) (d : Nat) : State :=
  if s.wkt.heldOut.contains d then s
  else
    let w := { s.wkt with heldOut := setAdd s.wkt.heldOut d, dieOut := setAdd s.wkt.dieOut d }
    let s := (({ s with wkt := w } : State).unitFailed 5 d)
    let s := { s with boot := { s.boot with shutterQueue := s.boot.shutterQueue.filter (fun i => !(dieIslands d).contains i) } }
    ((dieIslands d).foldl (fun s i => s.closeIsland i) s).report (event 29 (unitDie d) 5)

/-- The dies that B5 holds out (R425 to R429): no trained link with a right identity, a mesh link lost to a lower die, a cluster without
a harvest map, or more than 8 retired banks. -/
def State.b5Fails (s : State) (res : B5Result) (d : Nat) : Bool :=
  let linked (x : Nat) : Bool := identityOk (res.ids.getD x 0) 1 x && !res.linkFail.contains x
  !linked d || res.meshFail.any (fun m => linked m.1 && linked m.2 && decide (max m.1 m.2 = d)) ||
    (List.range 4).any (fun k => (s.harvest (4 * d + k)).isEmpty) || decide (8 < res.banks.getD d 0)

/-- STAGE_B5 (R425 to R429): the compute islands are open; slots that failed BIST are harvested, each with a corrected fault, and the
harvest maps of the dies in service are built. -/
def execStageB5 (res : B5Result) (s : State) : Res :=
  if !s.atStage 5 || !s.boot.shutterQueue.isEmpty then .next s
  else
    let w := s.wkt
    let s := { s with
      wkt := { w with unusable := res.slotFail.foldl setAdd w.unusable, failed := res.slotFail.foldl setAdd w.failed,
                      banks := (List.range 16).foldl (fun m d => mapSet [] m d (List.range (res.banks.getD d 0))) [] }
      boot := { s.boot with dieIds := (List.range 16).map (fun d => (d, res.ids.getD d 0)) } }
    let s := ((List.range 576).filter s.wkt.unusable.contains).foldl (fun s i =>
      s.report (event 29 (unitSlot (i / 36) (i / 9 % 4) (i % 9)) 5)) s
    let s := ((List.range 16).filter (fun d => s.b5Fails res d)).foldl (fun s d => s.holdOut d) s
    let live := (List.range 16).filter (fun d => !s.wkt.dieOut.contains d)
    let s := (live.flatMap (fun d => (List.range 4).map (4 * d + ·))).foldl (fun s cl => s.setSlots cl (s.harvest cl)) s
    .next (s.nextStage 6 [])

/-- The state that B6 finds (R430): 1 READY, 2 DEGRADED, 3 FAILED. -/
def State.outcome (s : State) : Nat :=
  let up := (List.range 16).filter s.dieUp
  if up.length = 16 ∧ s.boot.stackFailed = [] then 1
  else if s.boot.stackFailed = [] ∧ (List.range 4).all (fun q => decide (3 ≤ (up.filter (fun d => d / 4 = q)).length)) then 2
  else 3

/-- STAGE_B6 (R364, R365, R373, R430, R431): firmware writes its tables and the carve, raises the anti-rollback counter, sets Memory_Active
unless FAILED, and reports readiness. ms is the time since reset release. -/
def execStageB6 (ms : Nat) (s : State) : Res :=
  if !s.atStage 6 then .next s
  else
    let st := s.outcome
    let key := s.draw
    let s := key.2
    let s := { s with
      boot := { s.boot with next := 7, state := BitVec.ofNat 2 st, stage := 6, timeMs := BitVec.ofNat 16 (min 65535 ms) }
      coh := { s.coh with memoryActive := decide (st ≠ 3), memInfoValid := true }
      sec := { s.sec with antiRollback := if s.sec.antiRollback.toNat ≤ s.sec.svn.toNat then s.sec.svn else s.sec.antiRollback,
                          partKeys := mapPut s.sec.partKeys 0 key.1 }
      port := { s.port with ready := true } }
    let s := if st = 3 then s.report (event 29 unitNone 6) else s
    .next (s.sendReady none)

/-- STAGE_BOUND_EXPIRY (R423, R431, R432): a unit that misses its stage's bound has failed. Before firmware runs that stops bring-up; a
stack (0x20 + n) fails in B4, a die is held out in B5. -/
def execStageBoundExpiry (stage : Fin 7) (unit : Nat) (s : State) : Res :=
  if !s.atStage stage.val then .next s
  else if stage.val < 4 then .next s.romStop
  else if stage.val = 4 ∧ 0x20 ≤ unit ∧ unit < 0x2C then
    .next (({ s with boot := { s.boot with stackFailed := setAdd s.boot.stackFailed (unit - 0x20) } } : State).unitFailed 4 unit)
  else if stage.val = 5 ∧ unit < 16 then .next (s.holdOut unit)
  else .next s

end Sys2Proof.Machine
end

