-- ==== Sys2Proof/Machine/Mirror.lean ====
section
/-! DEFINITION. The Coelostat pair: MIRROR_CONTROL, the pairing frames, the journal as the standby applies it, acknowledgement,
silence, promotion and takeover (R457 to R464, R494). -/

namespace Sys2Proof.Machine

/-! ### The status that the host reads (R458, R464) -/

/-- MIR_STATUS.STATE. -/
def MirSt.code : MirSt → Nat
  | .unpaired => 0
  | .pairing => 1
  | .resync => 2
  | .mirroring => 3
  | .broken => 4
  | .promoted => 5

/-- A pairing whose handshake is over and whose devices still exchange frames. -/
def Mir.linked (m : Mir) : Bool := decide (m.st = .resync) || decide (m.st = .mirroring) || decide (m.st = .broken)

/-- RESULT of the status operation. -/
def Mir.result (m : Mir) : Bytes :=
  natLe m.st.code 1 ++ natLe (b2n m.async) 1 ++ natLe (b2n m.role) 1 ++ natLe m.binds.length 1 ++ natLe 0 4 ++ natLe m.acked 8

/-- The MIRROR event of R434: frames resent, or the loss of the mirror link. -/
def State.mirrorEvent (s : State) (resent : Nat) (lost : Bool) : State :=
  s.report { src := 30, unit := unitMirror, detail := BitVec.ofNat 64 resent, lost := lost }

/-- Held output goes out as far as R461 allows. -/
def State.letGo (s : State) : State := s.releaseHolds s.mir.holds.length

/-! ### Pairing (R457) -/

/-- What this device says of itself in HELLO. -/
def State.ownHello (s : State) : HelloBody :=
  { role := s.mir.role, nonce := s.mir.nonce, ephPub := ecPub s.mir.ephPriv,
    meas := [s.measurement 1, s.measurement 2, s.measurement 3, s.measurement 6], winGib := clampNat 1 64 s.mir.winGib,
    chainOk := true, draftDigest := s.measurement 7, arithRev := 1, deterministic := s.boot.deterministic }

/-- The pairing ends at a failed check, or is called off: UNPAIRED, and the operation completes DENIED. -/
def State.pairFail (s : State) : State :=
  let w := s.mir.pairPkt
  let s := s.unpair
  match w with
  | some (f, r, q) => s.finish f r q stDenied []
  | none => s

/-- The peer's HELLO agrees with this device (R392, R457). -/
def State.agrees (s : State) (b : HelloBody) : Bool :=
  let me := s.ownHello
  b.chainOk && decide (b.role ≠ me.role) && decide (b.meas = me.meas) && decide (b.draftDigest = me.draftDigest) &&
    decide (b.arithRev = me.arithRev) && decide (b.deterministic = me.deterministic)

/-- The HELLO received is judged; FINISH answers it. -/
def State.judgeHello (s : State) : State :=
  match s.mir.peer with
  | none => s
  | some b =>
    if !s.agrees b then s.pairFail
    else
      let m := s.mir
      ({ s with mir := { m with peerWin := clampNat 1 64 b.winGib, nextSend := 2, sent := m.sent + frameBytes (payloadLen 1) } }
        : State).send .finish

/-! ### Copying a context to the standby (R458, R462) -/

/-- The longest run of first page sets that two sequences share. -/
def sharedPages : List Nat → List Nat → Nat
  | a :: l, b :: k => if a = b then sharedPages l k + 1 else 0
  | _, _ => 0

/-- The frames that copy a sequence: its table entry, its sampler key and its pages. -/
def State.copySeq (s : State) (i : Image) (slot : Nat) (x : Sequence) : List JPayload :=
  let mates := (s.srv.seqs.takeWhile (fun y => y.1 ≠ slot)).filter (fun y => y.2.ctx = x.ctx)
  let share := (mates.find? (fun y => decide (0 < sharedPages x.pages y.2.pages))).map (fun y =>
    (BitVec.ofNat 15 y.1, sharedPages x.pages y.2.pages))
  [.sequence (BitVec.ofNat 15 slot) (x.mirror share), .sampler (BitVec.ofNat 15 slot) x.key] ++
    s.kvParts i slot x ((share.map (·.2)).getD 0)

/-- The RESYNC frames of a bound context: its keys, the slots that are FREE, its sequences. -/
def State.copyFrames (s : State) (tag : Nat) : List JPayload :=
  let keys := (s.sec.sessions.filter (fun k => k.2.ctx = tag)).map (fun k => JPayload.session (k.2.mirror k.1)) ++
    (s.sec.imageKeys.filter (fun k => k.2.ctx = tag)).map (fun k =>
      JPayload.imageKey (BitVec.ofNat 32 k.1) k.2.key k.2.digest k.2.signer)
  let gone := (s.srv.gens.filter (fun g => ((s.seq g.1).map (·.ctx)) ≠ some tag)).map (fun g =>
    JPayload.sequence (BitVec.ofNat 15 g.1) freeMirror)
  let seqs := match s.srv.main with
    | none => []
    | some i => (s.srv.seqs.filter (fun x => x.2.ctx = tag)).flatMap (fun x => s.copySeq i x.1 x.2)
  keys ++ gone ++ seqs

/-- The primary copies a bound context. -/
def State.copyCtx (s : State) (tag : Nat) : State :=
  match s.peerTag tag with
  | some t => (s.copyFrames tag).foldl (fun s p => s.sendFrame 10 t p) s
  | none => s

/-- A context is bound; on a pairing whose handshake is over the peer hears of it, and the primary copies the context. -/
def State.bindCtx (s : State) (tag peer : Nat) : State :=
  let s := { s with mir := { s.mir with binds := mapPut s.mir.binds tag peer } }
  if s.mir.st = .broken then s
  else
    let s := (s.setMirSt .resync).sendFrame 3 peer (.bind (BitVec.ofNat 12 tag))
    if s.mir.role then s else (s.copyCtx tag).letGo

/-! ### MIRROR_CONTROL (R316, R458) -/

/-- An operation of MIRROR_CONTROL. -/
def State.mirOp (s : State) (f : FnId) (r : RingId) (q : PktSeq) (op : Nat) (k : Pkt → State → State) : Res :=
  s.packet f r q 0x70 (fun p => decide (p.byte 16 = op)) k

/-- MIRROR_STATUS. -/
def execMirrorStatus (f : FnId) (r : RingId) (q : PktSeq) (s : State) : Res :=
  s.mirOp f r q 0 (fun _ s => s.finish f r q stDone s.mir.result)

/-- PAIR (R457, R458): the first operation starts the handshake and completes with it; a later one binds its context. -/
def execPair (f : FnId) (r : RingId) (q : PktSeq) (s : State) : Res :=
  s.mirOp f r q 1 (fun p s =>
    let m := s.mir
    let peer := p.field 20 2 % 2 ^ 12
    if m.pairPkt = some (f.val, r.val, q) then s
    else if m.st = .pairing then s.finish f r q stBusy []
    else if m.st = .promoted ∨ (s.peerTag p.ctx).isSome then s.finish f r q stDenied []
    else if m.st = .unpaired then
      let n := s.drawBytes 32
      let e := n.2.drawBytes 48
      let s := { e.2 with mir := { m with
        role := decide (p.byte 18 = 1), nonce := n.1, ephPriv := fieldLe e.1 0 48 % (p384N - 1) + 1,
        binds := [(p.ctx, peer)], pairPkt := some (f.val, r.val, q), nextSend := 1, sent := frameBytes (payloadLen 0) } }
      let s := s.setMirSt .pairing
      (s.send (.hello s.ownHello)).judgeHello
    else if 64 ≤ m.binds.length then s.finish f r q stNoResource []
    else
      let s := s.bindCtx p.ctx peer
      s.finish f r q stDone (natLe s.mir.st.code 1))

/-- Output of one context that waited for the mirror goes out. -/
def State.freeHoldsOf (s : State) (tag : Nat) : State :=
  let hs := s.mir.holds.filter (fun h => h.tag = tag)
  let s := { s with mir := { s.mir with holds := s.mir.holds.filter (fun h => h.tag ≠ tag) } }
  hs.foldl (fun s h =>
    if (s.fn h.f).quiescing then s
    else
      let s := s.carryAll h.f (some h.tag) h.writes
      match h.c with
      | some c => s.produce h.f h.r c
      | none => s) s

/-- UNPAIR (R458): the context is unbound; the last one ends the pairing. -/
def execUnpair (f : FnId) (r : RingId) (q : PktSeq) (s : State) : Res :=
  s.mirOp f r q 2 (fun p s =>
    if (s.peerTag p.ctx).isNone then s.finish f r q stDenied []
    else if s.mir.st = .pairing then (s.pairFail).finish f r q stDone []
    else
      let s := s.freeHoldsOf p.ctx
      let s := { s with mir := { s.mir with binds := mapDel s.mir.binds p.ctx } }
      (if s.mir.binds.isEmpty then s.unpair else s).finish f r q stDone [])

/-- SET_MODE (R316, R461). -/
def execSetMode (f : FnId) (r : RingId) (q : PktSeq) (s : State) : Res :=
  s.mirOp f r q 3 (fun p s =>
    let s := { s with mir := { s.mir with async := decide (p.byte 17 = 1) } }
    s.letGo.finish f r q stDone [])

/-- RESYNC (R462): on the primary, every bound context is copied while serving continues. -/
def execResync (f : FnId) (r : RingId) (q : PktSeq) (s : State) : Res :=
  s.mirOp f r q 4 (fun _ s =>
    if s.mir.role || !s.mir.linked then s.finish f r q stDenied []
    else
      let s := s.setMirSt .resync
      ((s.mir.binds.foldl (fun s b => s.copyCtx b.1) s).letGo).finish f r q stDone [])

/-- A mirrored sequence goes live: IDLE with its applied history; KV that the standby does not hold is not stored (R463). -/
def Sequence.takenOver (i : Option Image) (x : Sequence) : Sequence :=
  let full := match i with
    | some i => i.fullLayers.isEmpty || decide (i.setsFor x.stored ≤ x.pages.length)
    | none => false
  let rings := match i with
    | some i => i.slidingLayers.isEmpty || x.ring.isSome
    | none => false
  { x with st := .idle, back := .idle, generate := none, stored := if full && rings then x.stored else 0, rebuilt := 0, late := none }

/-- PROMOTE (R463): on the standby, which is then the primary's heir. -/
def execPromote (f : FnId) (r : RingId) (q : PktSeq) (s : State) : Res :=
  s.mirOp f r q 5 (fun _ s =>
    let m := s.mir
    if !m.role || !(decide (m.st = .mirroring) || decide (m.st = .broken)) then s.finish f r q stDenied []
    else
      let bound (tag : Nat) : Bool := (s.peerTag tag).isSome
      let s := if m.portUp then s.sendFrame 12 ((m.binds.head?.map (·.2)).getD 0) .takeover else s
      let mine := s.srv.seqs.filter (fun x => bound x.2.ctx)
      let raise (k : Nat × SessionKey) : Nat × SessionKey :=
        if bound k.2.ctx then (k.1, { k.2 with epoch := (k.2.epoch + 1) % 2 ^ 16 }) else k
      let live (x : Nat × Sequence) : Nat × Sequence := if bound x.2.ctx then (x.1, x.2.takenOver s.srv.main) else x
      let s := { s with sec := { s.sec with sessions := s.sec.sessions.map raise },
                        srv := { s.srv with seqs := s.srv.seqs.map live } }
      (s.setMirSt .promoted).finish f r q stDone (natLe 0 4 ++ res4 mine.length))

/-! ### Receiving frames (R459, R460) -/

/-- The header of a frame of a type, as R459 lays it out. -/
def headerOk (h : FrameHdr) (typ : Nat) : Bool :=
  decide (h.magic = 0x4A435A41) && decide (h.typ.toNat = typ) && decide (h.version = 1) && decide (h.ctx.toNat < 2 ^ 12) &&
    decide (h.length.toNat ≤ 65440) && h.zero

/-- The receiver moves past a frame: its number, and the byte count that the offset rule of R460 runs on. -/
def Mir.took (m : Mir) (h : FrameHdr) : Mir :=
  { m with nextRecv := m.nextRecv + 1, acked := if m.role then h.fseq.toNat else m.acked,
           received := placeFrame m.received (clampNat 1 64 m.winGib * 2 ^ 30) + frameBytes h.length.toNat }

/-- A journal frame: discarded unless its header and tag are right and it is the next in order (R460); k answers none where it
cannot be applied yet, and the frame is then as one not received. -/
def State.frame (s : State) (h : FrameHdr) (typ : Nat) (tagOk : Bool) (k : State → Option State) : Res :=
  if !s.mir.portUp || !s.mir.linked || !headerOk h typ || !tagOk || decide (h.fseq.toNat ≠ s.mir.nextRecv) then .next s
  else
    match k { s with mir := s.mir.took h } with
    | some s => .next s
    | none => .next s

/-- A frame that only a standby applies, for a context that is bound. -/
def State.applied (s : State) (h : FrameHdr) (typ : Nat) (tagOk : Bool) (k : Nat → State → Option State) : Res :=
  s.frame h typ tagOk (fun s =>
    if s.mir.role && (s.peerTag (h.ctx.toNat % 2 ^ 12)).isSome then k (h.ctx.toNat % 2 ^ 12) s else some s)

/-- HELLO (R457): kept until this device pairs, and judged then. -/
def execHello (h : FrameHdr) (b : HelloBody) (s : State) : Res :=
  let m := s.mir
  if !m.portUp || !headerOk h 1 || decide (h.fseq ≠ 0) || decide (m.nextRecv ≠ 0) || !(decide (m.st = .unpaired) || decide (m.st = .pairing))
  then .next s
  else
    let s := { s with mir := { m with peer := some b, nextRecv := 1, received := frameBytes h.length.toNat } }
    .next (if m.st = .pairing then s.judgeHello else s)

/-- The journal keys of a pairing (R457): primary to standby, standby to primary. -/
def journalKeys (z noncePrimary nonceStandby : Bytes) : Bytes × Bytes :=
  let okm := hkdf384 (noncePrimary ++ nonceStandby) z (ascii "AZG-JRNL-1") 64
  (okm.take 32, okm.drop 32)

/-- FINISH (R457): the signature is checked and the journal keys are derived; the pairing's first context is then bound. -/
def execFinish (h : FrameHdr) (sigOk : Bool) (s : State) : Res :=
  let m := s.mir
  match m.peer with
  | none => .next s
  | some b =>
    if !m.portUp || decide (m.st ≠ .pairing) || !headerOk h 2 || decide (h.fseq ≠ 1) || decide (m.nextRecv ≠ 1) then .next s
    else if !sigOk then .next s.pairFail
    else
      match ecdhX m.ephPriv b.ephPub with
      | none => .next s.pairFail
      | some z =>
        let ks := if m.role then journalKeys z b.nonce m.nonce else journalKeys z m.nonce b.nonce
        let m' := { m.took h with
          keyOut := if m.role then ks.2 else ks.1, keyIn := if m.role then ks.1 else ks.2, pairPkt := none }
        let s := ({ s with mir := m' } : State).setMirSt .resync
        let s := m.binds.foldl (fun s x => s.bindCtx x.1 x.2) s
        .next (match m.pairPkt with
          | some (f, r, q) => s.finish f r q stDone (natLe s.mir.st.code 1)
          | none => s)

/-- BIND (R459): the peer has bound a context to one of this device's. -/
def execBind (h : FrameHdr) (tagOk : Bool) (p : JPayload) (s : State) : Res :=
  s.frame h 3 tagOk (fun s =>
    match p with
    | .bind peer =>
      let tag := h.ctx.toNat
      if (s.peerTag tag).isSome || decide (64 ≤ s.mir.binds.length) || decide (s.mir.st = .broken) || !s.mir.role then some s
      else some (({ s with mir := { s.mir with binds := mapPut s.mir.binds tag peer.toNat } } : State).setMirSt .resync)
    | _ => some s)

/-! ### What the standby applies (R459, R463) -/

/-- The state of a code of R250. -/
def seqStOf (n : Nat) : SeqSt :=
  match n with
  | 1 => .idle
  | 2 => .prefill
  | 3 => .decode
  | 4 => .evicted
  | 5 => .failed
  | _ => .closing

/-- A slot's sequence and its pages leave the standby's table. -/
def State.dropMirrored (s : State) (slot : Nat) : State :=
  let s := s.freePages slot
  { s with srv := { s.srv with seqs := mapDel s.srv.seqs slot } }

/-- A SEQUENCE record is applied: the slot mirrors the primary's, so handles are equal (R463). -/
def State.mirrorSeq (s : State) (tag slot : Nat) (m : MirSeq) : State :=
  let old := s.seq slot
  if m.state = 0 then (if old.any (fun x => decide (x.ctx = tag)) then s.dropMirrored slot else s)
  else
    let same := old.any (fun x => decide (x.ctx = tag) && decide (x.gen % 2 ^ 17 = m.gen.toNat))
    let s := if same then s else s.dropMirrored slot
    let kept := if same then old else none
    let shared := if same then [] else
      match m.share with
      | some (y, k) => (((s.seq y.toNat).map (·.pages)).getD []).take k
      | none => []
    let s := { s with srv := { shared.foldl Srv.sharePage s.srv with gens := mapPut s.srv.gens slot m.gen.toNat } }
    let t := s.tick
    let st := seqStOf m.state.toNat
    let x : Sequence :=
      { gen := m.gen.toNat, ctx := tag, seqId := m.seqId, prio := m.prio.toNat, session := m.session.map (·.toNat), st := st,
        back := .idle, history := m.history, stored := m.stored, params := m.params, mask := m.mask, bias := biasOf m.bias,
        key := m.key, keyRng := m.keyRng, home := (kept.map (·.home)).getD s.homeDie, served := 0, entered := 0,
        opened := (kept.map (·.opened)).getD t.1, committed := t.1, generate := none,
        pages := (kept.map (·.pages)).getD shared, ring := kept.bind (·.ring), rebuilt := 0, late := none }
    let s := t.2.putSeq slot x
    if st = .evicted then s.freePages slot else s

/-- The place of a page set or of the rings of a mirrored sequence; a new one is taken from the places that firmware found
free. -/
def State.mirrorPlace (s : State) (slot : Nat) (ring : Bool) (page : Nat) (avail : List Nat) : Option (Nat × Nat × State) :=
  match s.srv.main, s.seq slot with
  | some i, some x =>
    if ring then
      match x.ring with
      | some p => some (p, i.ringBytes, s)
      | none => (s.takePlace x.ctx x.home avail i.ringBytes).map (fun t => (t.1, i.ringBytes, t.2.2.putSeq slot { x with ring := some t.1 }))
    else
      let grow := (List.range (page + 1 - x.pages.length)).foldl (fun (a : Option (List Nat × List Nat × State)) _ =>
        a.bind (fun a => (a.2.2.takePlace x.ctx x.home a.2.1 i.setBytes).map (fun t => (a.1 ++ [t.1], t.2.1, t.2.2))))
        (some (x.pages, avail, s))
      grow.map (fun a => (a.1.getD page 0, i.setBytes, a.2.2.putSeq slot { x with pages := a.1 }))
  | _, _ => none

/-- A KV part is applied; it waits where no page is free. -/
def State.mirrorKv (s : State) (tag slot : Nat) (ring : Bool) (page off : Nat) (data : Bytes) (avail : List Nat) : Option State :=
  if !(s.seq slot).any (fun x => decide (x.ctx = tag)) then some s
  else
    (s.mirrorPlace slot ring page avail).map (fun t =>
      if t.2.1 < off + data.length then t.2.2
      else (linesOf (t.1 + off) data.length).foldl (fun s q =>
        s.storeLine q.1 (sliceBytes data (q.1 - (t.1 + off)) q.2) none) t.2.2)

/-- A seed key is applied. -/
def State.mirrorKey (s : State) (tag slot : Nat) (key : Bytes) : State :=
  match s.seq slot with
  | some x => if x.ctx = tag then s.putSeq slot { x with key := key } else s
  | none => s

/-- An installation or an image key is applied. -/
def State.mirrorSession (s : State) (tag : Nat) (p : JPayload) : State :=
  match p with
  | .session m =>
    let k : SessionKey := { ctx := tag, key := m.key, inst := m.inst, high := m.high, seen := m.seen, counter := m.counter, epoch := m.epoch }
    { s with sec := { s.sec with sessions := mapPut s.sec.sessions m.handle.toNat k,
                                 nextHandle := max s.sec.nextHandle (m.handle.toNat + 1) } }
  | .imageKey h key digest signer =>
    let k : ImageKey := { ctx := tag, key := key, digest := digest, signer := signer }
    { s with sec := { s.sec with imageKeys := mapPut s.sec.imageKeys h.toNat k,
                                 nextHandle := max s.sec.nextHandle (h.toNat + 1) } }
  | _ => s

/-- The tokens of a commit are applied: the history grows, and all but the last position are stored (R256, R257). -/
def State.mirrorCommit (s : State) (tag : Nat) (l : List (BitVec 15 × List Nat)) : State :=
  l.foldl (fun (s : State) e =>
    match s.seq e.1.toNat with
    | some x =>
      if x.ctx ≠ tag ∨ e.2.isEmpty then s
      else s.putSeq e.1.toNat { x with history := x.history ++ e.2, stored := x.history.length + e.2.length - 1 }
    | none => s) s

/-- COMMAND_FRAME (R459). What the packet did to sequences and installations comes in frames of their own; a SEAL_SESSION destroy
takes its key here. -/
def execCommandFrame (h : FrameHdr) (tagOk : Bool) (p : JPayload) (s : State) : Res :=
  s.applied h 4 tagOk (fun tag s =>
    match p with
    | .command b =>
      let key := fieldLe b 20 4
      if fieldLe b 0 1 = 0x60 ∧ fieldLe b 16 1 = 1 then
        some { s with sec := { s.sec with
          sessions := s.sec.sessions.filter (fun k => !(decide (k.1 = key) && decide (k.2.ctx = tag)))
          imageKeys := s.sec.imageKeys.filter (fun k => !(decide (k.1 = key) && decide (k.2.ctx = tag))) } }
      else some s
    | _ => some s)

/-- SEQUENCE_FRAME (R459). -/
def execSequenceFrame (h : FrameHdr) (tagOk : Bool) (p : JPayload) (s : State) : Res :=
  s.applied h 5 tagOk (fun tag s =>
    match p with
    | .sequence slot m => some (s.mirrorSeq tag slot.toNat m)
    | _ => some s)

/-- KV_FRAME (R459). -/
def execKvFrame (h : FrameHdr) (tagOk : Bool) (p : JPayload) (avail : List Nat) (s : State) : Res :=
  s.applied h 6 tagOk (fun tag s =>
    match p with
    | .kv slot ring page off data => s.mirrorKv tag slot.toNat ring page off data avail
    | _ => some s)

/-- SAMPLER_FRAME (R459). -/
def execSamplerFrame (h : FrameHdr) (tagOk : Bool) (p : JPayload) (s : State) : Res :=
  s.applied h 7 tagOk (fun tag s =>
    match p with
    | .sampler slot key => some (s.mirrorKey tag slot.toNat key)
    | _ => some s)

/-- SESSION_FRAME (R386, R459). -/
def execSessionFrame (h : FrameHdr) (tagOk : Bool) (p : JPayload) (s : State) : Res :=
  s.applied h 8 tagOk (fun tag s => some (s.mirrorSession tag p))

/-- COMMIT_FRAME (R459). -/
def execCommitFrame (h : FrameHdr) (tagOk : Bool) (p : JPayload) (s : State) : Res :=
  s.applied h 9 tagOk (fun tag s =>
    match p with
    | .commit l => some (s.mirrorCommit tag l)
    | _ => some s)

/-- RESYNC_FRAME (R462): the copy of a bound context, while STATE is RESYNC. -/
def execResyncFrame (h : FrameHdr) (tagOk : Bool) (p : JPayload) (avail : List Nat) (s : State) : Res :=
  s.applied h 10 tagOk (fun tag s =>
    let s := s.setMirSt .resync
    match p with
    | .sequence slot m => some (s.mirrorSeq tag slot.toNat m)
    | .kv slot ring page off data => s.mirrorKv tag slot.toNat ring page off data avail
    | .sampler slot key => some (s.mirrorKey tag slot.toNat key)
    | p => some (s.mirrorSession tag p))

/-! ### Acknowledgement, resending, silence (R460 to R462) -/

/-- ACK (R460, R461): on the primary it frees window and releases output. -/
def execAck (h : FrameHdr) (tagOk : Bool) (p : JPayload) (s : State) : Res :=
  s.frame h 11 tagOk (fun s =>
    match p with
    | .ack n =>
      if s.mir.role then some s
      else
        let m := s.mir
        let m := { m with acked := max m.acked n.toNat, unacked := m.unacked.filter (fun x => n.toNat < x.fseq) }
        some ((({ s with mir := m } : State).pushFrames m.queued.length).letGo)
    | _ => some s)

/-- ACK_TIMER (R460). -/
def execAckTimer (s : State) : Res :=
  let m := s.mir
  if !m.linked || !m.portUp then .next s
  else .next (s.sendFrame 11 ((m.binds.head?.map (·.2)).getD 0) (.ack (BitVec.ofNat 64 (m.nextRecv - 1))))

/-- JOURNAL_RESEND (R460): from the first unacknowledged frame. -/
def execJournalResend (s : State) : Res :=
  let m := s.mir
  if m.role || !m.portUp || !(decide (m.st = .resync) || decide (m.st = .mirroring)) || m.unacked.isEmpty then .next s
  else
    let s := { s with out := s.out ++ m.unacked.map (fun (x : JFrame) => OutMsg.frame x.typ x.tag x.fseq x.offset x.payload) }
    .next (s.mirrorEvent m.unacked.length false)

/-- MIRROR_SILENCE (R462). -/
def execMirrorSilence (s : State) : Res :=
  if s.mir.st = .resync ∨ s.mir.st = .mirroring then .next (((s.setMirSt .broken).mirrorEvent 0 true).letGo) else .next s

/-- RESYNC_COMPLETE (R462): the copy is over, and the mode's release rule holds again. -/
def execResyncComplete (s : State) : Res :=
  let m := s.mir
  let done := m.role || (m.queued.isEmpty && m.unacked.all (fun x => decide (x.typ ≠ 10)))
  if m.st = .resync ∧ done then .next ((s.setMirSt .mirroring).letGo) else .next s

/-- FRAME_TAG_FAILURE (R459, R460): the frame is discarded. -/
def execFrameTagFailure (_h : FrameHdr) (s : State) : Res := .next s

/-- RECEIVE_WINDOW_OVERRUN (R460). -/
def execReceiveWindowOverrun (s : State) : Res :=
  if s.mir.linked then .next (({ s with mir := { s.mir with overrun := true } } : State).mirrorEvent 0 false) else .next s

/-- LANE_LOCK_LOSS (R494): the port retrains on a pair of lanes without a failed one, or stays down. -/
def execLaneLockLoss (lane : Fin 4) (s : State) : Res :=
  let down := setAdd s.mir.lanesDown lane.val
  let pair01 := !down.contains 0 && !down.contains 1
  let pair23 := !down.contains 2 && !down.contains 3
  .next { s with mir := { s.mir with
    lanesDown := down, portUp := s.mir.portUp && (pair01 || pair23), lanePair := if pair01 then 1 else if pair23 then 2 else 0 } }

/-! ### Takeover (R463) -/

/-- What a held completion becomes when the standby has taken over: a GENERATE ends FAULTED, and no output of it is written. -/
def State.fenceHold (s : State) (h : Hold) : Hold :=
  let isGen := (h.c.bind (fun c => ((s.ring h.f h.r).pkts.find? (fun p => decide (p.seq = c.seq))))).any
    (fun p => decide (p.opcode = 0x22))
  if !isGen then h
  else
    { h with writes := [], c := h.c.bind (fun c =>
        if c.final then some { c with status := BitVec.ofNat 8 stFaulted } else none) }

/-- TAKEOVER (R463): the old primary fails every sequence of the bound contexts and is unpaired. -/
def execTakeover (h : FrameHdr) (tagOk : Bool) (_p : JPayload) (s : State) : Res :=
  s.frame h 12 tagOk (fun s =>
    if s.mir.role then some s
    else
      let tags := s.mir.binds.map (·.1)
      let s := { s with mir := { s.mir with holds := s.mir.holds.map s.fenceHold } }
      let s := s.unpair
      some (s.srv.seqs.foldl (fun s x => if tags.contains x.2.ctx then s.failSeq x.1 7 else s) s))

end Sys2Proof.Machine
end

