-- ==== Sys2Proof/Machine/Security.lean ====
section
/-! DEFINITION. Trust: the DOE mailbox, SPDM, IDE and TDISP (R331, R375 to R377), the Eyepiece (R393, R394), and
DEV_ARITH (R56). The message layouts of the standards are outside the spec: a row gives what a message asks for, and OutMsg what
the answer grants. -/

namespace Sys2Proof.Machine

/-! ### The mailbox and SPDM (R331, R375) -/

/-- The data object protocols of the mailbox: (vendor, type). -/
def doeTypes : List (Nat × Nat) := [(0x0001, 0), (0x0001, 1), (0x0001, 2), (0x1E98, 2)]

/-- DOE_REQUEST (R331): an object of a supported protocol, at most 1 MiB, is answered; another completes by the Error bit. -/
def execDoeRequest (vendor : BitVec 16) (typ : BitVec 8) (len : Nat) (s : State) : Res :=
  .next (s.cfgAccess 0 (fun s =>
    s.send (.doe (doeTypes.contains (vendor.toNat, typ.toNat) && decide (len ≤ 2 ^ 20)) vendor typ)))

/-- A message arrives in a secured session that exists. -/
def State.secured (s : State) (n : Option Nat) : Bool := n.any (fun n => mapFind s.sec.spdm n = some true)

/-- What a measurement answer reports: block i, or every block for 0xFF. -/
def State.measured (s : State) (i : Nat) : Option Bytes :=
  if i = 0 then some [7]
  else if i ≤ 7 then some (s.measurement i)
  else if i = 0xFF then some ((List.range 7).flatMap (fun i => s.measurement (i + 1)))
  else none

/-- An SPDM request answered: the responder's state, and the answer's contents or none for an error (R375). -/
def State.spdmAnswer (s : State) (m : SpdmMsg) : Option Bytes × State :=
  let c := s.sec
  let inside := s.secured m.session
  let clear := m.session.isNone
  let ok (b : Bool) : Option Bytes := if b then some [] else none
  match m.code with
  | .getVersion => (if clear then some [0x12, 0x13] else none, s)
  | .getCapabilities | .negotiateAlgorithms => (ok clear, s)
  | .getDigests => (ok (clear || inside), s)
  | .getCertificate slot => (ok ((clear || inside) && decide (slot = 0)), s)
  | .challenge slot => (ok (clear && decide (slot = 0)), s)
  | .getMeasurements i => (if clear || inside then s.measured i else none, s)
  | .keyExchange =>
    if clear && decide (c.spdm.length < 4) then
      (some [], { s with sec := { c with spdm := mapPut c.spdm c.spdmNext false, spdmNext := c.spdmNext + 1 } })
    else (none, s)
  | .finish =>
    match m.session with
    | some n =>
      if mapFind c.spdm n = some false then (some [], { s with sec := { c with spdm := mapPut c.spdm n true } }) else (none, s)
    | none => (none, s)
  | .heartbeat | .keyUpdate => (ok inside, s)
  | .endSession =>
    if inside then (some [], { s with sec := { c with spdm := c.spdm.filter (fun x => some x.1 ≠ m.session) } }) else (none, s)
  | .chunk => (ok (clear || inside), s)
  | .other _ => (none, s)

/-- SPDM_REQUEST (R375). -/
def execSpdmRequest (m : SpdmMsg) (s : State) : Res :=
  .next (s.cfgAccess 0 (fun s =>
    let a := s.spdmAnswer m
    a.2.send (.spdm a.1.isSome m.code (a.1.getD []))))

/-! ### IDE and TDISP (R376, R377) -/

/-- Link IDE is active: SEC_STATE.IDE_ACTIVE. -/
def Sec.ideActive (c : Sec) : Bool := c.ideGo.isSome

/-- IDE_KM_REQUEST (R375, R376): over a secured session, keys of either set are programmed, put in use, or taken out of use. -/
def execIdeKmRequest (m : IdeMsg) (s : State) : Res :=
  .next (s.cfgAccess 0 (fun s =>
    let c := s.sec
    if !s.secured m.session then s.send (.ide false)
    else
      match m.op with
      | .keyProg set key =>
        ({ s with sec := { c with ideKeys := c.ideKeys.filter (fun k => k.1 ≠ set) ++ [(set, key)] } } : State).send (.ide true)
      | .keySetGo set =>
        if c.ideKeys.any (fun k => k.1 = set) then ({ s with sec := { c with ideGo := some set } } : State).send (.ide true)
        else s.send (.ide false)
      | .keySetStop => ({ s with sec := { c with ideGo := none } } : State).send (.ide true)
      | .query => s.send (.ide true)))

/-- LOCK_INTERFACE_REQUEST (R376, R377): accepted only while IDE is active, for an unlocked interface; the function serves packets
again. -/
def execLockInterfaceRequest (f : FnId) (session : Option Nat) (s : State) : Res :=
  .next (s.cfgAccess 0 (fun s =>
    let x := s.fn f
    if !s.secured session || !s.sec.ideActive || !x.enabled || decide (x.tdi ≠ .unlocked) then s.send (.tdisp false f x.tdi 0)
    else
      let d := s.draw
      let n := d.1 % 2 ^ 256
      (d.2.setFn f { x with tdi := .locked, barred := false, tdiNonce := n }).send (.tdisp true f .locked n)))

/-- TDISP_REQUEST (R377): every other message, over a secured session. -/
def execTdispRequest (f : FnId) (m : TdispMsg) (s : State) : Res :=
  .next (s.cfgAccess 0 (fun s =>
    let x := s.fn f
    let say (ok : Bool) : State := s.send (.tdisp ok f x.tdi 0)
    if !s.secured m.session || !x.enabled then say false
    else
      match m.op with
      | .getVersion | .getCapabilities | .getState => say true
      | .getReport => say (decide (x.tdi = .locked) || decide (x.tdi = .run))
      | .startInterface n =>
        if x.tdi = .locked ∧ n = x.tdiNonce then (s.setFn f { x with tdi := .run }).send (.tdisp true f .run 0) else say false
      | .stopInterface => (s.setFn f { x with tdi := .unlocked }).send (.tdisp true f .unlocked 0)
      | .other => say false))

/-! ### The Eyepiece (R393, R394) -/

/-- A REQUEST is refused: REFUSED and REASON are set, and the nonce is consumed. -/
def State.refuseToken (s : State) (reason : Nat) : State :=
  { s with sec := { s.sec with busy := false, refused := true, reason := BitVec.ofNat 3 reason, nonce := none } }

/-- NEW_NONCE (R394 T0). -/
def execNewNonce (s : State) : Res :=
  .next (s.bar0Write false (fun s =>
    let d := s.drawBytes 32
    { d.2 with sec := { d.2.sec with nonce := some d.1 } }))

/-- DEBUG_TOKEN_REQUEST (R394 T1, T2): ignored while BUSY. Without a nonce it is refused; where the device may not read host
memory the token is unreadable. -/
def State.requestToken (s : State) : State :=
  if s.sec.busy then s
  else
    let c := { s.sec with attempts := BitVec.ofNat 16 (satAdd 0xFFFF s.sec.attempts.toNat 1), refused := false, reason := 0 }
    let s := { s with sec := c }
    if c.nonce.isNone then s.refuseToken 1
    else if !s.sends 0 then s.refuseToken 2
    else ({ s with sec := { c with busy := true } } : State).send (.ioRead 0 none 0x3FF c.tokenAddr.toNat 192)

def execDebugTokenRequest (s : State) : Res := .next (s.bar0Write false State.requestToken)

/-- The REASON for which a token is refused, 0 for none, in the order of SEC_DBG_STATUS.REASON (R393, R394). -/
def State.tokenReason (s : State) (token : Option Bytes) (sigOk : Bool) : Nat :=
  match token with
  | none => 2
  | some b =>
    if b.length ≠ 192 then 2
    else if fieldLe b 0 4 ≠ 0x4B545A41 ∨ fieldLe b 4 1 ≠ 1 ∨ 8 ≤ fieldLe b 5 1 ∨ ¬ allZero (sliceBytes b 6 2) ∨
      ¬ allZero (sliceBytes b 88 8) then 3
    else if sliceBytes b 8 48 ≠ sha384 (ecPub s.sec.devPriv) then 4
    else if s.sec.nonce ≠ some (sliceBytes b 56 32) then 5
    else if !sigOk then 6
    else 0

/-- T3 (R394): every context ends as by DETACH_CONTEXT. True once nothing is left to wait for. -/
def State.endAll (s : State) : Bool × State :=
  let tags := (s.ctxs.filter (fun c => c.2.valid)).map (·.1)
  let s := tags.foldl (fun s t => if (s.ctx t).draining then s else s.startDetach t none) s
  (s.srv.step.isNone && s.srv.programs.isEmpty && s.srv.loading.isNone && tags.all s.detachReady, s)

/-- The key of the HDM partition is gone (R391): what the carve holds decrypts to open values (R195). -/
def State.loseCarve (s : State) : State :=
  let d := s.draw
  { d.2 with mem := (List.range (s.coh.carveBytes / 2 ^ 21)).foldl (fun m i => m.loseGranule (carvePa (i * 2 ^ 21)) (d.1 + i)) s.mem }

/-- T3 to T5 (R394): contexts, images and the pairing are gone, keys and sessions are zeroised, and the Eyepiece is open. -/
def State.openEyepiece (s : State) (scope : BitVec 8) : State :=
  let tags := (s.ctxs.filter (fun c => c.2.valid)).map (·.1)
  let s := (((tags.foldl (fun s t => s.teardown t) s).dropImage false).unpair).loseCarve
  { s with sec := { s.sec with
      sessions := [], imageKeys := [], partKeys := [], spdm := [], nonce := none, busy := false, opening := none,
      openCount := s.sec.openCount + 1, eyepiece := true, scope := scope } }

/-- DEBUG_TOKEN_READ (R394 T2 to T5): the token is checked; one that passes opens the Eyepiece as soon as the contexts have
ended. -/
def execDebugTokenRead (token : Option Bytes) (sigOk : Bool) (s : State) : Res :=
  if !s.sec.busy then .next s
  else
    let go (s : State) (scope : BitVec 8) : State :=
      let e := s.endAll
      if e.1 then e.2.openEyepiece scope else e.2
    match s.sec.opening with
    | some scope => .next (go s scope)
    | none =>
      let why := s.tokenReason token sigOk
      if why ≠ 0 then .next (s.refuseToken why)
      else
        let scope := BitVec.ofNat 8 (fieldLe (token.getD []) 5 1)
        .next (go { s with sec := { s.sec with nonce := none, opening := some scope } } scope)

/-! ### DEV_ARITH (R56) -/

/-- DEV_ARITH.LOCKED: a main image is loaded or a raw program runs. -/
def State.arithLocked (s : State) : Bool := s.srv.main.isSome || s.srv.programs.any (·.started)

/-- A write reaches the low half of DEV_ARITH (R56): WRITE_IGNORED is cleared by 1, and DETERMINISTIC takes the bit written, or while
LOCKED ignores it, which sets WRITE_IGNORED (log entry 79). -/
def State.writeArith (s : State) (v : Nat) : State :=
  let b := s.boot
  if s.arithLocked then { s with boot := { b with writeIgnored := true } }
  else { s with boot := { b with writeIgnored := b.writeIgnored && !bit v 2, deterministic := bit v 0 } }

/-- DEV_ARITH_WRITE (R56, R470). -/
def execDevArithWrite (v : BitVec 32) (s : State) : Res := .next (s.bar0Write true (fun s => s.writeArith v.toNat))

end Sys2Proof.Machine
end

