-- ==== Sys2Proof/Machine/Registers.lean ====
section
/-! DEFINITION. The management registers as they read and are written (R13, R280, R336, R337, R346, R465 to R479), and configuration
space (R324 to R332). -/

namespace Sys2Proof.Machine

/-! ### What a management register reads (R471 to R475) -/

/-- The junction temperature of a die as a byte. -/
def State.dieTemp (s : State) (d : Nat) : Nat := (tempByte (s.pwr.hottest (dieIslands d))).toNat

/-- PWR_DIE_d (R410). -/
def State.pwrDie (s : State) (d : Nat) : Nat :=
  let x := mapGet DiePwr.reset s.pwr.dies d
  min 65535 (x.share * 8).floor.toNat + 2 ^ 16 * min 65535 (x.powerMw / 125) + 2 ^ 32 * x.lowest + 2 ^ 38 * b2n x.throttled +
    2 ^ 39 * b2n x.tripped + 2 ^ 40 * s.dieTemp d + 2 ^ 48 * (x.steps.foldl max 0 % 128) + 2 ^ 55 * b2n (s.wkt.dieOut.contains d)

/-- The bits of four clusters, nine slots each. -/
def slotBits (d : Nat) (up : Nat → Nat → Bool) : Nat :=
  ((List.range 36).map (fun i => if up (4 * d + i / 9) (i % 9) then 2 ^ i else 0)).sum

/-- CMD_FN_ACTIVE_f and CMD_FN_STOPPED_f (R475). -/
def State.fnRings (s : State) (f : Nat) (want : RingSt → Bool) : Nat :=
  if !(s.fn f).enabled then 0
  else ((List.range 64).map (fun r => if want (s.ring f r).st then 2 ^ r else 0)).sum

def RingSt.running (x : RingSt) : Bool := decide (x = .active) || decide (x = .doorbellAhead)

/-- DEV_ARITH (R56), and its view from a VF (R479). -/
def State.devArith (s : State) (pf : Bool) : Nat :=
  b2n s.boot.deterministic + 2 * b2n s.arithLocked + 2 ^ 8 +
    (if pf then 4 * b2n s.boot.writeIgnored + 2 ^ 16 * s.boot.fpatomRefused.toNat else 0)

/-- SEC_ registers (R394). -/
def State.secReg (s : State) (off : Nat) : Nat :=
  let c := s.sec
  if off = 0 then
    b2n c.eyepiece + 2 * b2n c.ideActive + 4 * b2n (c.spdm.any (·.2)) + 2 ^ 16 * min 0xFFFF c.sessions.length +
      2 ^ 32 * min 0xFFFF c.imageKeys.length
  else if off = 8 then c.antiRollback.toNat + 2 ^ 32 * c.svn.toNat
  else if off < 0x30 then fieldLe (c.nonce.getD []) (off - 0x10) 8
  else if off = 0x30 then c.tokenAddr.toNat
  else if off = 0x40 then
    b2n c.busy + 2 * b2n c.refused + 4 * c.reason.toNat + 32 * b2n c.eyepiece + 2 ^ 16 * c.attempts.toNat
  else 0

/-- A register of the DEV_ block. -/
def State.devReg (s : State) (off : Nat) : Nat :=
  if off = 0 then 0x0000_0101_A240_1F5C
  else if off = 8 then s.boot.fwVersion.toNat
  else if off = 0x10 then s.devArith true
  else if off = 0x20 then s.devBringup
  else if 0x40 ≤ off ∧ off < 0xC0 then slotBits ((off - 0x40) / 8) (fun cl n => (s.slots cl).contains n)
  else if 0xC0 ≤ off ∧ off < 0x140 then slotBits ((off - 0xC0) / 8) (fun cl n => s.wkt.failed.contains (9 * cl + n))
  else 0

/-- A register of the HST_ block (R337, R474). -/
def State.hstReg (s : State) (off : Nat) : Nat :=
  if off = 0 then s.port.intStatus.toNat
  else if off = 8 then s.port.intEnable.toNat
  else if off = 0x10 then s.port.intVector.toNat
  else if off = 0x18 then ((List.range 64).map (fun f => if f ≠ 0 ∧ (s.fn f).quiescing then 2 ^ f else 0)).sum
  else 0

/-- A register of the XLT_ block (08). -/
def State.xltReg (s : State) (off : Nat) : Nat :=
  let x := s.xlt
  if off = 0 then
    min 0xFFFF x.reqs.length + 2 ^ 16 * min 0xFFFF (x.waits.filter (fun w => w.phase = .stalled)).length + 2 ^ 32 * x.overflow.toNat
  else if off = 8 then x.events.toNat + 2 ^ 16 * x.eventFn.toNat + 2 ^ 32 * x.uprgiCount.toNat
  else if off = 0x10 then
    min 0xFFFF x.invals.length + 2 ^ 16 * min 0xFFFF (x.ats.filter (·.stale)).length + 2 ^ 32 * x.invCompleted.toNat
  else 0

/-- A register of the COH_ block (R363, R369). -/
def State.cohReg (s : State) (off : Nat) : Nat :=
  let c := s.coh
  if off = 0 then c.ways.toNat + 2 ^ 8 * b2n c.waysIgnored
  else if off = 8 then c.cohGib.toNat + 2 ^ 16 * c.bulkGib.toNat + 2 ^ 30 * b2n c.hdmBusy + 2 ^ 31 * b2n c.hdmIgnored
  else if off = 0x10 then c.evictions.toNat + 2 ^ 32 * c.reservations.toNat + 2 ^ 48 * c.timeouts.toNat
  else if off = 0x18 then c.deadAgent.toNat + 2 ^ 11 * b2n c.deadValid + 2 ^ 16 * min 0xFFFF c.dead.length
  else 0

/-- A register of the PWR_ block (R398, R401, R408, R410, R413, R418). -/
def State.pwrReg (s : State) (off : Nat) : Nat :=
  let p := s.pwr
  if off = 0 then s.pwrStatus
  else if off = 8 then
    p.packageW + 2 ^ 16 * p.hostW + 2 ^ 32 * p.cap + 2 ^ 48 * b2n p.clamped + 2 ^ 49 * b2n p.updated
  else if off = 0x10 then b2n p.varMode + 2 * b2n p.repAuto + 4 * b2n p.hostHints + 8 * b2n p.imageHints + 2 ^ 8 * p.repStep
  else if off = 0x18 then
    p.helioStep + 2 ^ 4 * p.deadband + 2 ^ 8 * p.floorW + 2 ^ 16 * p.ceilW + 2 ^ 24 * p.marginW
  else if off = 0x20 then p.threshMv + 2 ^ 8 * p.hold
  else if off = 0x28 then
    p.droop.toNat + 2 ^ 16 * p.capChanges.toNat + 2 ^ 32 * p.throttleEntries.toNat + 2 ^ 48 * p.louvrePeriods.toNat
  else if off = 0x30 then p.throttleC + 2 ^ 8 * p.hystC
  else if 0x80 ≤ off ∧ off < 0x100 then s.pwrDie ((off - 0x80) / 8)
  else if 0x100 ≤ off ∧ off < 0x180 then
    let d := (off - 0x100) / 8
    s.maxStep (4 * d) + 2 ^ 8 * s.maxStep (4 * d + 1) + 2 ^ 16 * s.maxStep (4 * d + 2) + 2 ^ 24 * s.maxStep (4 * d + 3)
  else 0

/-- A register of the FLT_ block (R438, R440, R443, R445 to R447). -/
def State.fltReg (s : State) (off : Nat) : Nat :=
  let f := s.flt
  if off = 0 then f.status
  else if off = 8 then 2 ^ 8 * f.injectSrc.toNat
  else if off = 0x10 then f.nlStatus
  else if off = 0x20 then f.time % 2 ^ 64
  else if off = 0x28 then f.alv
  else if 0x40 ≤ off ∧ off < 0x60 then fieldLe ((f.first.map (·.bytes)).getD []) (off - 0x40) 8
  else if 0x100 ≤ off ∧ off < 0x200 then (f.source ((off - 0x100) / 8)).cfg.toNat
  else if 0x200 ≤ off ∧ off < 0x300 then (f.source ((off - 0x200) / 8)).cnt
  else if 0x800 ≤ off ∧ off < 0x1000 then fieldLe (f.slot ((off - 0x800) / 32)) ((off - 0x800) % 32) 8
  else 0

/-- A register of the WKT_ block (R456). -/
def State.wktReg (s : State) (off : Nat) : Nat :=
  let w := s.wkt
  if off = 0 then w.cmdOp.toNat + 2 ^ 16 * w.cmdUnit.toNat + 2 ^ 32 * w.cmdArg.toNat
  else if off = 8 then
    b2n w.isBusy + 2 * b2n w.ignored + 2 ^ 4 * w.result.toNat + 2 ^ 8 * w.lastOp.toNat + 2 ^ 16 * w.lastUnit.toNat +
      2 ^ 32 * w.durationUs.toNat
  else 0

/-- A register of the MIR_ block (R464). -/
def State.mirReg (s : State) (off : Nat) : Nat :=
  let m := s.mir
  if off = 0 then m.winGib + 2 ^ 7 * b2n m.syncFail + 2 ^ 8 * m.lagMib
  else if off = 8 then
    m.st.code + 2 ^ 3 * b2n m.role + 2 ^ 4 * b2n m.async + 2 ^ 5 * b2n m.overrun + 2 ^ 6 * m.binds.length +
      2 ^ 32 * min (2 ^ 32 - 1) (m.lag / 1024)
  else if off = 0x10 then m.acked % 2 ^ 64
  else 0

/-- The 64-bit slot at an offset of the PF's management space (R465, R466, R471); after a FAILED bring-up only the DEV_ and FLT_
blocks read (R470). -/
def State.mgmtReg (s : State) (off : Nat) : Nat :=
  let o := off % 0x1000
  match off / 0x1000 with
  | 0x10 => s.devReg o
  | 0x15 => s.fltReg o
  | b =>
    if s.boot.state = 3 then 0
    else
      match b with
      | 0x11 => s.hstReg o
      | 0x12 => s.xltReg o
      | 0x13 => s.cohReg o
      | 0x14 => s.pwrReg o
      | 0x16 => s.wktReg o
      | 0x17 => s.mirReg o
      | 0x18 => s.secReg o
      | 0x19 =>
        if o < 0x200 then s.fnRings (o / 8) RingSt.running
        else if o < 0x400 then s.fnRings ((o - 0x200) / 8) (fun x => decide (x = .stopped)) else 0
      | _ => 0

/-- The VF register page (R478, R479). -/
def State.vfReg (s : State) (f off : Nat) : Nat :=
  let code : Tdi → Nat
    | .unlocked => 0
    | .locked => 1
    | .run => 2
    | .error => 3
  if off = 0 then 0x0000_0101_A241_1F5C
  else if off = 8 then s.boot.fwVersion.toNat
  else if off = 0x10 then s.devArith false
  else if off = 0x18 then
    s.boot.state.toNat + 2 ^ 8 * f + 2 ^ 16 * min 0xFFFF (s.ctxs.filter (fun c => c.2.valid && decide (c.2.func = f))).length +
      2 ^ 32 * code (s.fn f).tdi
  else if off = 0x20 then s.fnRings f RingSt.running
  else if off = 0x28 then s.fnRings f (fun x => decide (x = .stopped))
  else 0

/-- A doubleword of an MSI-X table entry, or of the pending bits (R336). -/
def Fn.msixWord (x : Fn) (i w : Nat) : Nat :=
  let e := mapGet MsixEntry.reset x.msix i
  match w with
  | 0 => e.addr.toNat % 2 ^ 32
  | 1 => e.addr.toNat / 2 ^ 32
  | 2 => e.data.toNat
  | _ => b2n e.masked

def Fn.pbaSlot (x : Fn) (i : Nat) : Nat := ((List.range 64).map (fun b => if x.pba.contains (64 * i + b) then 2 ^ b else 0)).sum

/-- Base and vector count of a function's MSI-X table, and base of its PBA, in BAR0 (R325, R336). -/
def msixAt (f : Nat) : Nat × Nat × Nat := if f = 0 then (0xF0_0000, 2048, 0xF1_0000) else (0x8000, 64, 0x9000)

/-- The slot at an offset of BAR0 of a function. Component registers of CXL read as the standard lays them out, which the model does
not: an open value (log entry 4). -/
def State.bar0Slot (s : State) (f off : Nat) : Nat :=
  let m := msixAt f
  if m.1 ≤ off ∧ off < m.1 + 16 * m.2.1 then
    let i := (off - m.1) / 16
    let w := (off - m.1) % 16 / 4
    (s.fn f).msixWord i w + 2 ^ 32 * (s.fn f).msixWord i (w + 1)
  else if m.2.2 ≤ off ∧ off < m.2.2 + m.2.1 / 8 then (s.fn f).pbaSlot ((off - m.2.2) / 8)
  else if f ≠ 0 then (if off < 0x8000 then s.vfReg f off else 0)
  else if off < 0x1_0000 then Config.unstated 366 off % 2 ^ 64
  else s.mgmtReg off

/-- A Transom register (R280). -/
def Ring.reg (x : Ring) (off : Nat) : Nat :=
  let code : RingSt → Nat
    | .disabled => 0
    | .active => 1
    | .doorbellAhead => 2
    | .stopped => 3
    | .draining => 4
  if off = 0x100 then x.sqBase.toNat
  else if off = 0x108 then x.cqBase.toNat
  else if off = 0x110 then
    x.sqLog.toNat + 2 ^ 8 * x.cqLog.toNat + 2 ^ 16 * b2n x.sqHdm + 2 ^ 17 * b2n x.cqHdm + 2 ^ 20 * x.vec.toNat
  else if off = 0x118 then b2n x.enable
  else if off = 0x120 then
    code x.st + 2 ^ 3 * x.stopCause.toNat + 2 ^ 16 * x.sqHead + 2 ^ 32 * x.nextSeq.toNat + 2 ^ 48 * b2n x.sqPhase
  else if off = 0x128 then x.dbAhead.toNat + 2 ^ 32 * x.rereads.toNat
  else 0

/-! ### Configuration space as it reads (R324 to R329, R332, R346) -/

/-- The capability offsets of a function in the order of its lists: (offset, ID, version) (R326, R327). -/
def extCaps (f : Nat) : List (Nat × Nat × Nat) :=
  if f = 0 then
    [(0x100, 0x0001, 2), (0x150, 0x000E, 1), (0x160, 0x0010, 1), (0x1A0, 0x000F, 1), (0x1B0, 0x001B, 1), (0x1C0, 0x0013, 1),
     (0x1D0, 0x0018, 1), (0x1E0, 0x0022, 1), (0x1F0, 0x002E, 2), (0x210, 0x0030, 1), (0x230, 0x0023, 1), (0x270, 0x0023, 1),
     (0x2A0, 0x0023, 1), (0x2C0, 0x0023, 1), (0x2D0, 0x0023, 1)]
  else
    [(0x100, 0x0001, 2), (0x150, 0x000E, 1), (0x1A0, 0x000F, 1), (0x1B0, 0x001B, 1), (0x1C0, 0x0013, 1), (0x1E0, 0x0022, 1)]

/-- Header of an extended capability: ID, version, next pointer. -/
def extHeader : List (Nat × Nat × Nat) → Nat → Option Nat
  | [], _ => none
  | c :: l, off =>
    if c.1 = off then some (c.2.1 + 2 ^ 16 * c.2.2 + 2 ^ 20 * ((l.head?.map (·.1)).getD 0)) else extHeader l off

/-- A time of Readiness Time Reporting: value, scale. -/
def rtrTime (v sc : Nat) : Nat := v + 2 ^ 9 * sc

/-- A doubleword of configuration space that software reads as fixed bits and bits that it wrote: (fixed bits, writable bits, value
before the first write). Values are those of R324 to R331, R338, R346, R360 and R363; the places of the fields, and the values that those
rules leave to the standard, are those of PCI Express and CXL (PRESUMED, log entry 7). Every other bit is reserved and reads 0 (R14). -/
def cfgRow (pf : Bool) (off : Nat) : Nat × Nat × Nat :=
  let p (n : Nat) : Nat := if pf then n else 0
  match off with
  | 0x10 => (p 4, p 0xFF00_0000, 0)
  | 0x14 => (0, p 0xFFFF_FFFF, 0)
  | 0x18 => (p 4, p 0xFC00_0000, 0)
  | 0x1C => (0, p 0xFFFF_FFFF, 0)
  | 0x3C => (p 0x100, p 0xFF, 0)
  | 0x40 => (p 0x0003_5001, 0, 0)
  | 0x50 => (0x0002_9010, 0, 0)
  | 0x54 => (0x5000_8022, 0, 0)
  | 0x58 => (0, p 0x7FFF, p 0x2810)
  | 0x5C => (0x0040_0106, 0, 0)
  | 0x60 => (0x0106_0000, p 0xCB, 0)
  | 0x74 => (0x8073_001F + p 0x800, 0, 0)
  | 0x78 => (0, if pf then 0x141F else 0x1F, 0)
  | 0x94 => (if pf then 0xF0_0000 else 0x8000, 0, 0)
  | 0x98 => (if pf then 0xF1_0000 else 0x9000, 0, 0)
  | 0x108 => (0, 0x55_5000, 0x40_0000)
  | 0x10C => (0, 0x55_5000, 0x44_0000)
  | 0x114 => (0, 0x6000, 0x6000)
  | 0x16C => (p 0x003F_003F, 0, 0)
  | 0x174 => (p 0x0001_0001, 0, 0)
  | 0x178 => (p 0xA241_0000, 0, 0)
  | 0x17C => (p 0x1F, 0, 0)
  | 0x180 => (0, p 0x1F, p 1)
  | 0x184 => (p 4, p 0xFFFF_0000, 0)
  | 0x188 => (0, p 0xFFFF_FFFF, 0)
  | 0x18C => (p 4, p 0xFFF0_0000, 0)
  | 0x190 => (0, p 0xFFFF_FFFF, 0)
  | 0x1A4 => (0x20, 0x1F_0000, 0)
  | 0x1B4 => (0x1400, 0x1_0000, 0)
  | 0x1C8 => (512, 0, 0)
  | 0x1D4 => (0, p 0x1FFF_1FFF, 0)
  | 0x1E4 => (rtrTime 179 5 + 2 ^ 12 * rtrTime 179 5 + 2 ^ 31, 0, 0)
  | 0x1E8 => (rtrTime 15 5 + 2 ^ 12 * rtrTime 1 4, 0, 0)
  | 0x234 => (p 0x03C3_1E98, 0, 0)
  | 0x238 => (p 0x0067_0000, 0, 0)
  | 0x23C => (p 2, p 4, 0)
  | 0x250 => (0, p 0xFFFF_FFFF, 0)
  | 0x254 => (0, p 0xF000_0000, 0)
  | 0x260 => (0, p 0xFFFF_FFFF, 0)
  | 0x264 => (0, p 0xF000_0000, 0)
  | 0x274 => (p 0x01C0_1E98, 0, 0)
  | 0x278 => (p 0x0008, 0, 0)
  | 0x27C => (p 0x0000_0100, 0, 0)
  | 0x284 => (p 0x0001_FF00, 0, 0)
  | 0x2A4 => (p 0x0202_1E98, 0, 0)
  | 0x2A8 => (p 0x2027_0007, 0, 0)
  | 0x2C4 => (p 0x0100_1E98, 0, 0)
  | 0x2C8 => (p 0x0000_0005, 0, 0)
  | 0x2D4 => (p 0x0200_1F5C, 0, 0)
  | 0x2D8 => (p 1, 0, 0)
  | _ => (0, 0, 0)

/-- Doublewords of standard structures whose contents neither the spec nor its named fields give: link control 2 and link capabilities
2, the AER header and prefix logs, SR-IOV capabilities, the mailbox registers, IDE, and the rest of the Flex Bus DVSEC. They read open
values (log entry 4). -/
def cfgOpen (pf : Bool) (off : Nat) : Bool :=
  [0x7C, 0x80].contains off || (decide (0x11C ≤ off) && decide (off < 0x148)) ||
    (pf && ((decide (0x1F4 ≤ off) && decide (off < 0x208)) || (decide (0x214 ≤ off) && decide (off < 0x230)) || decide (off = 0x164) ||
      (decide (0x2AC ≤ off) && decide (off < 0x2C0))))

/-- A size of a DVSEC range in GiB: its high doubleword, and the high bits of its low one. -/
def rangeSize (gib : Nat) : Nat × Nat := (gib / 4, gib % 4 * 2 ^ 30)

/-- A doubleword of configuration space (R324 to R332, R338, R346, R363, R366). -/
def State.cfgRead (s : State) (f off : Nat) : Nat :=
  let x := s.fn f
  let p := s.port
  let c := s.coh
  let pf := decide (f = 0)
  let row := cfgRow pf off
  let held := ((((mapFind x.cfg off).map (·.toNat)).getD row.2.2) &&& row.2.1) ||| row.1
  let info := b2n c.memInfoValid + 2 * b2n c.memoryActive
  match extHeader (extCaps f) off with
  | some h => h
  | none =>
    match off with
    | 0x00 => if pf then 0xA240_1F5C else 0xFFFF_FFFF
    | 0x04 =>
      2 * b2n (x.mse && pf) + 4 * b2n x.bme + 2 ^ 10 * b2n x.intDisable + 2 ^ 20 +
        ((((mapFind x.cfg 0x04).map (·.toNat)).getD 0) &&& 0x140)
    | 0x08 => 0x1200_0001
    | 0x2C => if pf then 0x0040_1F5C else 0x0041_1F5C
    | 0x34 => if pf then 0x40 else 0x50
    | 0x44 => if pf then 8 + 3 * b2n x.d3hot else 0
    | 0x90 => 0x11 + 2 ^ 16 * ((msixAt f).2.1 - 1) + 2 ^ 30 * b2n x.msixMask + 2 ^ 31 * b2n x.msixEnable
    | 0x104 => x.aerUncor.toNat
    | 0x110 => x.aerCor.toNat
    | 0x118 => x.aerFirst.toNat
    | 0x168 => if pf then s.cfgWord 0 sriovControl else 0
    | 0x170 => if pf then min 63 (s.cfgWord 0 sriovNumVfs % 2 ^ 16) else 0
    | 0x1A4 => held + 2 ^ 31 * b2n x.atsEnable
    | 0x1C4 =>
      b2n x.priEnable + 2 ^ 16 * b2n x.respFailure + 2 ^ 17 * b2n x.uprgi + 2 ^ 24 * b2n (!x.priEnable && s.xlt.reqs.all (fun r => r.fn ≠ f)) + 2 ^ 31
    | 0x1CC => x.priAlloc.toNat
    | 0x23C => held + b2n (pf && c.cacheEnable)
    | 0x240 => if pf then 2 ^ 16 * b2n c.cacheInvalid else 0
    | 0x244 => if pf then 2 ^ 16 * (2 + 2 ^ 8 * (4 * c.ways.toNat)) else 0
    | 0x248 => if pf then (rangeSize c.cohGib.toNat).1 else 0
    | 0x24C => if pf then info + (rangeSize c.cohGib.toNat).2 else 0
    | 0x258 => if pf then (rangeSize c.bulkGib.toNat).1 else 0
    | 0x25C => if pf then info + (rangeSize c.bulkGib.toNat).2 else 0
    | 0x2DC =>
      if pf then
        b2n p.frozen + 2 * p.cause.toNat + 2 ^ 4 * p.causeSeen.toNat + 2 ^ 9 * b2n p.clearRefused + 2 ^ 16 * p.entries.toNat
      else 0
    | 0x2E4 => if pf then b2n p.removeRequest + 2 * b2n p.removeReady + 4 * b2n p.removeCancelled else 0
    | _ => if cfgOpen pf off then Config.unstated 326 (f * 4096 + off) % 2 ^ 32 else held

/-! ### Reading with RC fields (R467 to R469) -/

/-- The RC fields of a BAR0 slot clear; lo and hi say which halves are read. -/
def State.clearRc (s : State) (off : Nat) (lo hi : Bool) : State :=
  let z {w : Nat} (h : Bool) (v : BitVec w) : BitVec w := if h then 0 else v
  if off = 0x1_0010 then { s with boot := { s.boot with fpatomRefused := z lo s.boot.fpatomRefused } }
  else if off / 0x1000 = 0x15 then
    if off = 0x1_5010 then { s with flt := { s.flt with lost := z hi s.flt.lost } }
    else if 0x1_5200 ≤ off ∧ off < 0x1_5300 then
      let i := (off - 0x1_5200) / 8
      let x := s.flt.source i
      let x := { x with escalations := if lo then 0 else x.escalations, total := if hi then 0 else x.total }
      { s with flt := { s.flt with sources := s.flt.sources.set i x } }
    else s
  else if s.boot.state = 3 then s
  else if off = 0x1_2000 then { s with xlt := { s.xlt with overflow := z hi s.xlt.overflow } }
  else if off = 0x1_2008 then { s with xlt := { s.xlt with uprgiCount := z hi s.xlt.uprgiCount } }
  else if off = 0x1_2010 then { s with xlt := { s.xlt with invCompleted := z hi s.xlt.invCompleted } }
  else if off = 0x1_3010 then
    let c := s.coh
    { s with coh := { c with evictions := z lo c.evictions, reservations := z hi c.reservations, timeouts := z hi c.timeouts } }
  else if off = 0x1_4028 then
    let p := s.pwr
    { s with pwr := { p with droop := z lo p.droop, capChanges := z lo p.capChanges,
                             throttleEntries := z hi p.throttleEntries, louvrePeriods := z hi p.louvrePeriods } }
  else s

/-- REGISTER_READ_CLEAR (R13, R280, R342, R467, R468): a read of any register; it answers the value, and the RC fields that it reads
whole are cleared. A read of another size or alignment answers 0. -/
def execRegisterReadClear (f : FnId) (bar : Bar) (off : BitVec 24) (size8 : Bool) (s : State) : Res :=
  let o := off.toNat
  let slot := o / 8 * 8
  let aligned := if size8 then decide (o % 8 = 0) else decide (o % 4 = 0)
  let half (v : Nat) : Nat := if size8 then v % 2 ^ 64 else v / 2 ^ (8 * (o % 8)) % 2 ^ 32
  let say (s : State) (v : Nat) : State := s.send (.regValue f (BitVec.ofNat 64 v))
  match bar with
  | .bar0 =>
    .next (s.barAccess f (fun s =>
      if !aligned then say s 0
      else
        let v := half (s.bar0Slot f slot)
        say (if f.val = 0 then s.clearRc slot (size8 || decide (o % 8 = 0)) (size8 || decide (o % 8 = 4)) else s) v))
  | .bar2 =>
    .next (s.barAccess f (fun s =>
      let r := o / 0x1000
      if 64 ≤ r ∨ ¬ size8 ∨ o % 8 ≠ 0 then say s 0
      else
        let x := s.ring f r
        let v := x.reg (o % 0x1000)
        say (if o % 0x1000 = 0x128 then s.setRing f r { x with dbAhead := 0, rereads := 0 } else s) v))
  | .cfg => .next (s.cfgAccess f (fun s => if size8 ∨ o % 4 ≠ 0 ∨ 4096 ≤ o then say s 0 else say s (s.cfgRead f o)))

/-! ### Writing (R13, R466 to R470) -/

/-- What a step answers where it answers a next state. -/
def Res.orElse (r : Res) (s : State) : State :=
  match r with
  | .next t => t
  | _ => s

/-- The value of a slot that a write of one half leaves to the action it starts: the written halves, the others as they read. -/
def merge64 (cur v : Nat) (lo hi : Bool) : Nat :=
  (if lo then v % 2 ^ 32 else cur % 2 ^ 32) + 2 ^ 32 * (if hi then v / 2 ^ 32 % 2 ^ 32 else cur / 2 ^ 32 % 2 ^ 32)

/-- WKT_CMD (R449, R456, R468): the written halves are taken, and GO starts the operation; while BUSY nothing is taken. -/
def State.writeWkt (s : State) (v : Nat) (lo hi : Bool) : State :=
  let w := s.wkt
  let m := merge64 (s.wktReg 0) v lo hi
  let op := BitVec.ofNat 4 (bits m 3 0)
  let unit := BitVec.ofNat 16 (bits m 31 16)
  let arg := BitVec.ofNat 32 (bits m 63 32)
  if w.isBusy then { s with wkt := { w with ignored := true } }
  else
    let s := { s with wkt := { w with cmdOp := op, cmdUnit := unit, cmdArg := arg } }
    if lo && bit v 4 then s.wktStart { op := op, unit := unit, arg := arg, fw := false } else s

/-- A write of the HST_ block (R337): INTx follows. -/
def State.writeHst (s : State) (off v : Nat) : State :=
  let p := s.port
  let p := if off = 0 then { p with intStatus := p.intStatus &&& ~~~ BitVec.ofNat 5 v }
    else if off = 8 then { p with intEnable := BitVec.ofNat 5 v }
    else if off = 0x10 then { p with intVector := BitVec.ofNat 11 v } else p
  State.driveIntx { s with port := p }

/-- A write of the SEC_ block (R394). -/
def State.writeSec (s : State) (off v : Nat) (lo hi : Bool) : State :=
  if off = 0x30 then
    { s with sec := { s.sec with tokenAddr := BitVec.ofNat 64 (merge64 s.sec.tokenAddr.toNat v lo hi / 64 * 64) } }
  else if off = 0x38 ∧ lo then
    let s := if bit v 0 then (execNewNonce s).orElse s else s
    if bit v 1 then s.requestToken else s
  else if off = 0x40 ∧ lo ∧ bit v 1 then { s with sec := { s.sec with refused := false } }
  else s

/-- A write of the FLT_ block (R438, R442, R443, R445). -/
def State.writeFlt (s : State) (off v : Nat) (lo : Bool) : State :=
  let f := s.flt
  if !lo then s
  else if off = 0 then
    let f := if bit v 2 then { f with serviceDue := false } else f
    { s with flt := if bit v 3 then { f with firstValid := false, firstOpen := false } else f }
  else if off = 8 then
    let s := { s with flt := { f with injectSrc := BitVec.ofNat 5 (bits v 12 8) } }
    if bit v 0 then (execInject s).orElse s else s
  else if off = 0x18 then (if bit v 0 then (execUnfreeze s).orElse s else s)
  else if 0x100 ≤ off ∧ off < 0x200 then (execFltSrcCfgWrite (Fin.ofNat 32 ((off - 0x100) / 8)) (BitVec.ofNat 64 v) s).orElse s
  else s

/-- A write of the PWR_ block (R399, R408, R410, R413, R418). -/
def State.writePwr (s : State) (off v : Nat) (lo hi : Bool) : State :=
  let p := s.pwr
  if off = 8 then
    let n := (if lo then v % 2 ^ 32 else 2 ^ 16 * p.hostW) + (if hi then v / 2 ^ 32 * 2 ^ 32 else 0)
    (execPwrCapWrite (BitVec.ofNat 64 n) s).orElse s
  else if !lo then s
  else if off = 0x10 then (execPwrModeWrite (BitVec.ofNat 64 v) s).orElse s
  else if off = 0x18 then
    { s with pwr := { p with helioStep := bits v 3 0, deadband := bits v 7 4, floorW := bits v 15 8, ceilW := bits v 23 16,
                             marginW := bits v 31 24 } }
  else if off = 0x20 then { s with pwr := { p with threshMv := bits v 6 0, hold := bits v 15 8 } }
  else if off = 0x30 then { s with pwr := { p with throttleC := bits v 7 0, hystC := bits v 15 8 } }
  else s

/-- A write of the PF's management space by halves (R466, R468, R470). -/
def State.writeMgmt (s : State) (off v : Nat) (lo hi : Bool) : State :=
  let o := off % 0x1000
  match off / 0x1000 with
  | 0x10 => if o = 0x10 ∧ lo then s.writeArith v else s
  | 0x15 => s.writeFlt o v lo
  | b =>
    if s.boot.state = 3 then s
    else
      match b with
      | 0x11 => if lo then s.writeHst o v else s
      | 0x12 => if o = 8 ∧ lo then { s with xlt := { s.xlt with events := s.xlt.events &&& ~~~ BitVec.ofNat 3 v } } else s
      | 0x13 =>
        if !lo then s
        else if o = 0 then (execCohDcCfgWrite (BitVec.ofNat 32 v) s).orElse s
        else if o = 8 then (execCohHdmCfgWrite (BitVec.ofNat 32 v) s).orElse s
        else if o = 0x18 ∧ bit v 11 then { s with coh := { s.coh with deadValid := false } }
        else s
      | 0x14 => s.writePwr o v lo hi
      | 0x16 =>
        if o = 0 then s.writeWkt v lo hi
        else if o = 8 ∧ lo ∧ bit v 1 then { s with wkt := { s.wkt with ignored := false } }
        else s
      | 0x17 =>
        if !lo then s
        else if o = 0 ∧ s.mir.st = .unpaired then
          { s with mir := { s.mir with winGib := bits v 6 0, syncFail := bit v 7, lagMib := bits v 23 8 } }
        else if o = 8 ∧ bit v 5 then { s with mir := { s.mir with overrun := false } }
        else s
      | 0x18 => s.writeSec o v lo hi
      | _ => s

/-- Doubleword w of an MSI-X entry is written; a vector that is unmasked sends what was pending (R336). A locked interface's table is
fixed (R377). -/
def State.writeMsix (s : State) (f i w v : Nat) : State :=
  let x := s.fn f
  if x.tdi = .locked ∨ x.tdi = .run then s
  else
    let e := mapGet MsixEntry.reset x.msix i
    let a := e.addr.toNat
    let e := match w with
      | 0 => { e with addr := BitVec.ofNat 64 (a / 2 ^ 32 * 2 ^ 32 + v % 2 ^ 32) }
      | 1 => { e with addr := BitVec.ofNat 64 (v % 2 ^ 32 * 2 ^ 32 + a % 2 ^ 32) }
      | 2 => { e with data := BitVec.ofNat 32 v }
      | _ => { e with masked := bit v 0 }
    (s.setFn f { x with msix := mapSet MsixEntry.reset x.msix i e }).flushMsix f

/-- A write to BAR0 of a function. -/
def State.writeBar0 (s : State) (f off v : Nat) (lo hi : Bool) : State :=
  let m := msixAt f
  if m.1 ≤ off ∧ off < m.1 + 16 * m.2.1 then
    let i := (off - m.1) / 16
    let w := (off - m.1) % 16 / 4
    let s := if lo then s.writeMsix f i w (v % 2 ^ 32) else s
    if hi then s.writeMsix f i (w + 1) (v / 2 ^ 32) else s
  else if f ≠ 0 ∨ off < 0x1_0000 then s
  else s.writeMgmt off v lo hi

/-- A write to a Transom register (R280). Bases and CMD_RING_CFG are taken only by a DISABLED ring whose interface is not locked
(R377). -/
def State.writeRing (s : State) (f : FnId) (r : RingId) (off v : Nat) : State :=
  let x := s.ring f r
  let t := (s.fn f).tdi
  let fixed := decide (t = .locked) || decide (t = .run)
  let cfg (y : Ring) : State :=
    if x.st ≠ .disabled then s.tdiRingWrite f r else if fixed then s else s.setRing f r y
  if off = 0x000 then (execSqDoorbell f r (BitVec.ofNat 64 v) s).orElse s
  else if off = 0x008 then (execCqDoorbell f r (BitVec.ofNat 64 v) s).orElse s
  else if off = 0x100 then cfg { x with sqBase := BitVec.ofNat 64 (v / 4096 * 4096) }
  else if off = 0x108 then cfg { x with cqBase := BitVec.ofNat 64 (v / 4096 * 4096) }
  else if off = 0x110 then
    cfg { x with sqLog := BitVec.ofNat 5 (bits v 4 0), cqLog := BitVec.ofNat 5 (bits v 12 8), sqHdm := bit v 16, cqHdm := bit v 17,
                 vec := BitVec.ofNat 11 (bits v 30 20) }
  else if off = 0x118 then
    let s := if bit v 0 then (execRingEnable f r s).orElse s else (execRingDisable f r s).orElse s
    if bit v 1 then (execResume f r s).orElse s else s
  else s

/-! ### Writing configuration space (R324 to R330, R335 to R346) -/

/-- The Command register of a function (R324, R337, R339, R342). -/
def State.writeCommand (s : State) (f v : Nat) : State :=
  let s := s.setCfg f 0x04 (v &&& 0x140)
  let s := if f = 0 then (s.setFn 0 { s.fn 0 with intDisable := bit v 10 }).setMse 0 (bit v 1) else s
  let s := if bit v 2 then s.bmeOn f else s.bmeOff f
  if f = 0 then s.driveIntx else s

/-- SR-IOV Control (R329, R332, R500): VF Enable, VF MSE; ARI Capable Hierarchy is kept, other bits are reserved (R14). -/
def State.writeSriov (s : State) (v : Nat) : State :=
  let c := s.cfgWord 0 sriovControl
  let s := s.setCfg 0 sriovControl (putBits (v &&& 0x19) vfEnableBit vfEnableBit (bits c vfEnableBit vfEnableBit))
  let s := if bit v vfMseBit ≠ bit c vfMseBit then s.setMse 1 (bit v vfMseBit) else s
  if bit v vfEnableBit && !bit c vfEnableBit then (execVfEnable s).orElse s
  else if !bit v vfEnableBit && bit c vfEnableBit then (execVfDisable s).orElse s
  else s

/-- The Page Request Control register (R235, R242). -/
def State.writePri (s : State) (f : FnId) (v : Nat) : State :=
  let x := s.fn f
  let s := if bit v 17 then s.setFn f { x with uprgi := false } else s
  let s := if bit v 1 then (execAtsPriEnableClear f .priReset s).orElse s else s
  if bit v 0 then s.setFn f { s.fn f with priEnable := true }
  else if (s.fn f).priEnable then (execAtsPriEnableClear f .priClear s).orElse s else s

/-- The registers of the Wyrvabin DVSEC (R345 to R347). -/
def State.writeDvsec (s : State) (off v : Nat) : State :=
  if off = 0x2DC then { s with port := { s.port with clearRefused := s.port.clearRefused && !bit v 9 } }
  else if off = 0x2E0 then
    let s := if bit v 0 then (execPcClear s).orElse s else s
    if bit v 1 then (execPcForce s).orElse s else s
  else if off = 0x2E4 then
    let s := if bit v 2 then { s with port := { s.port with removeCancelled := false } } else s
    if bit v 0 then (execRemoveRequest s).orElse s else (execRemoveCancel s).orElse s
  else s

/-- A doubleword written to configuration space. -/
def State.writeCfg (s : State) (f : FnId) (off v : Nat) : State :=
  let x := s.fn f
  let pf := decide (f.val = 0)
  let locked := decide (x.tdi = .locked) || decide (x.tdi = .run)
  match off with
  | 0x04 => s.writeCommand f v
  | 0x44 =>
    if !pf then s
    else if bits v 1 0 = 3 then (execD3hotEntry s).orElse s
    else if bits v 1 0 = 0 then (execD0Entry s).orElse s
    else s
  | 0x58 =>
    let s := s.setCfg f 0x58 (v &&& (cfgRow pf 0x58).2.1)
    if bit v 15 then (execInitiateFlr f s).orElse s else s
  | 0x78 =>
    let s := s.setCfg f 0x78 (v &&& (cfgRow pf 0x78).2.1)
    s.setFn f { s.fn f with noTimeout := bit v 4, ltrEnable := bit v 10 && pf }
  | 0x90 =>
    let s := s.setFn f { x with msixEnable := bit v 31, msixMask := bit v 30 }
    (if pf then s.driveIntx else s).flushMsix f
  | 0x104 => s.setFn f { x with aerUncor := x.aerUncor &&& ~~~ BitVec.ofNat 32 v }
  | 0x110 => s.setFn f { x with aerCor := x.aerCor &&& ~~~ BitVec.ofNat 32 v }
  | 0x168 => if pf then s.writeSriov v else s
  | 0x170 => if pf && !bit (s.cfgWord 0 sriovControl) vfEnableBit then s.setCfg 0 sriovNumVfs (min 63 (v % 2 ^ 16)) else s
  | 0x1A4 =>
    let s := s.setCfg f 0x1A4 (v &&& 0x1F_0000)
    if bit v 31 then s.setFn f { s.fn f with atsEnable := true }
    else if x.atsEnable then (execAtsPriEnableClear f .atsClear s).orElse s
    else s
  | 0x1C4 => s.writePri f v
  | 0x1CC => s.setFn f { x with priAlloc := BitVec.ofNat 32 v }
  | 0x23C =>
    let s := if pf then s.setCfg 0 0x23C (v &&& 4) else s
    if pf && decide (bit v 0 ≠ s.coh.cacheEnable) then (execCacheEnable (bit v 0) s).orElse s else s
  | 0x240 => if pf && bit v 1 then (execCacheWbi s).orElse s else s
  | _ =>
    if pf && decide (0x2D0 ≤ off) && decide (off < 0x2F0) then s.writeDvsec off v
    else if (cfgRow pf off).2.1 = 0 ∨ (locked ∧ 0x10 ≤ off ∧ off < 0x28) then s
    else s.setCfg f off (v &&& (cfgRow pf off).2.1)

/-- REGISTER_WRITE (R13, R280, R324, R342, R465 to R470): a write to any register, applied by its access codes. A write of another
size or alignment, or to a reserved place, is ignored. -/
def execRegisterWrite (f : FnId) (bar : Bar) (off : BitVec 24) (size8 : Bool) (v : BitVec 64) (s : State) : Res :=
  let o := off.toNat
  let n := v.toNat
  match bar with
  | .bar0 =>
    .next (s.barAccess f (fun s =>
      if (size8 && decide (o % 8 ≠ 0)) || decide (o % 4 ≠ 0) then s
      else
        let lo := size8 || decide (o % 8 = 0)
        let hi := size8 || decide (o % 8 = 4)
        s.writeBar0 f (o / 8 * 8) (if size8 then n else if o % 8 = 4 then n % 2 ^ 32 * 2 ^ 32 else n % 2 ^ 32) lo hi))
  | .bar2 =>
    .next (s.barAccess f (fun s =>
      let r := o / 0x1000
      let reg := o % 0x1000
      if 64 ≤ r ∨ reg % 8 ≠ 0 ∨ (¬ size8 ∧ reg ≠ 0x000 ∧ reg ≠ 0x008) then s
      else s.writeRing f (Fin.ofNat 64 r) reg (if size8 then n else n % 2 ^ 32)))
  | .cfg => .next (s.cfgAccess f (fun s => if size8 ∨ o % 4 ≠ 0 ∨ 4096 ≤ o then s else s.writeCfg f o (n % 2 ^ 32)))

end Sys2Proof.Machine
end

