-- ==== Sys2Proof/Machine/Dispatch.lean ====
section
/-! DEFINITION. The meaning of each command: one arm per constructor of Instr, each one direct call. -/

namespace Sys2Proof.Machine

open Sys2Proof

def exec (i : Instr) (s : State) : Host.Outcome State Fault Refusal :=
  match i with
  | .load g rd rs1 imm kind c => Sys2Proof.Machine.execLoad g rd rs1 imm kind c s
  | .store g rs1 rs2 imm size c => Sys2Proof.Machine.execStore g rs1 rs2 imm size c s
  | .storeBufferDrain g entry word => Sys2Proof.Machine.execStoreBufferDrain g entry word s
  | .amo g op dbl aq rl rd rs1 rs2 => Sys2Proof.Machine.execAmo g op dbl aq rl rd rs1 rs2 s
  | .lr g dbl aq rl rd rs1 => Sys2Proof.Machine.execLr g dbl aq rl rd rs1 s
  | .sc g dbl aq rl rd rs1 rs2 => Sys2Proof.Machine.execSc g dbl aq rl rd rs1 rs2 s
  | .reservationTimeout g => Sys2Proof.Machine.execReservationTimeout g s
  | .fence g fm pred succ => Sys2Proof.Machine.execFence g fm pred succ s
  | .fenceI g => Sys2Proof.Machine.execFenceI g s
  | .csrAccess g csr op useImm rd rs1 => Sys2Proof.Machine.execCsrAccess g csr op useImm rd rs1 s
  | .ebreak g c => Sys2Proof.Machine.execEbreak g c s
  | .exit g => Sys2Proof.Machine.execExit g s
  | .report g => Sys2Proof.Machine.execReport g s
  | .rendezvous g => Sys2Proof.Machine.execRendezvous g s
  | .rendezvousReturn g => Sys2Proof.Machine.execRendezvousReturn g s
  | .takeInterrupt g => Sys2Proof.Machine.execTakeInterrupt g s
  | .wcyccmpMatch g => Sys2Proof.Machine.execWcyccmpMatch g s
  | .programEnd f r q => Sys2Proof.Machine.execProgramEnd f r q s
  | .edisp g f7 f3 rs2 rs1 rd => Sys2Proof.Machine.execEdisp g f7 f3 rs2 rs1 rd s
  | .commandStart g q => Sys2Proof.Machine.execCommandStart g q s
  | .operandRelease g q => Sys2Proof.Machine.execOperandRelease g q s
  | .commandCompletion g q => Sys2Proof.Machine.execCommandCompletion g q s
  | .ewait g imm rs1 rd => Sys2Proof.Machine.execEwait g imm rs1 rd s
  | .ewaitReturn g => Sys2Proof.Machine.execEwaitReturn g s
  | .eqstat g imm rs1 rd => Sys2Proof.Machine.execEqstat g imm rs1 rd s
  | .eclr g imm rs1 rd => Sys2Proof.Machine.execEclr g imm rs1 rd s
  | .semsig g imm rs1 rd => Sys2Proof.Machine.execSemsig g imm rs1 rd s
  | .semwait g imm rs1 rd => Sys2Proof.Machine.execSemwait g imm rs1 rd s
  | .semwaitGrant g n => Sys2Proof.Machine.execSemwaitGrant g n s
  | .semtry g imm rs1 rd => Sys2Proof.Machine.execSemtry g imm rs1 rd s
  | .semrd g imm rs1 rd => Sys2Proof.Machine.execSemrd g imm rs1 rd s
  | .semset g imm rs1 rd => Sys2Proof.Machine.execSemset g imm rs1 rd s
  | .lbar g imm rs1 rd => Sys2Proof.Machine.execLbar g imm rs1 rd s
  | .sbar g imm rs1 rd => Sys2Proof.Machine.execSbar g imm rs1 rd s
  | .fbar g imm rs1 rd => Sys2Proof.Machine.execFbar g imm rs1 rd s
  | .barrierMarkerComplete g => Sys2Proof.Machine.execBarrierMarkerComplete g s
  | .barrierTimeout g => Sys2Proof.Machine.execBarrierTimeout g s
  | .storeTimeout g => Sys2Proof.Machine.execStoreTimeout g s
  | .amofaddS g aq rl rd rs1 rs2 => Sys2Proof.Machine.execAmofaddS g aq rl rd rs1 rs2 s
  | .amofmaxS g aq rl rd rs1 rs2 => Sys2Proof.Machine.execAmofmaxS g aq rl rd rs1 rs2 s
  | .amofaddBf g aq rl rd rs1 rs2 => Sys2Proof.Machine.execAmofaddBf g aq rl rd rs1 rs2 s
  | .amofmaxBf g aq rl rd rs1 rs2 => Sys2Proof.Machine.execAmofmaxBf g aq rl rd rs1 rs2 s
  | .mnop g => Sys2Proof.Machine.execMnop g s
  | .mmul g => Sys2Proof.Machine.execMmul g s
  | .mdrain g => Sys2Proof.Machine.execMdrain g s
  | .mcbload g => Sys2Proof.Machine.execMcbload g s
  | .vnop g => Sys2Proof.Machine.execVnop g s
  | .vadd g => Sys2Proof.Machine.execVadd g s
  | .vsub g => Sys2Proof.Machine.execVsub g s
  | .vmul g => Sys2Proof.Machine.execVmul g s
  | .vfma g => Sys2Proof.Machine.execVfma g s
  | .vmax g => Sys2Proof.Machine.execVmax g s
  | .vmin g => Sys2Proof.Machine.execVmin g s
  | .vcvt g => Sys2Proof.Machine.execVcvt g s
  | .vsfu g => Sys2Proof.Machine.execVsfu g s
  | .vgsilu g => Sys2Proof.Machine.execVgsilu g s
  | .vrope g => Sys2Proof.Machine.execVrope g s
  | .vrmax g => Sys2Proof.Machine.execVrmax g s
  | .vrsum g => Sys2Proof.Machine.execVrsum g s
  | .vrssq g => Sys2Proof.Machine.execVrssq g s
  | .vsmax g => Sys2Proof.Machine.execVsmax g s
  | .vtopk g => Sys2Proof.Machine.execVtopk g s
  | .dnop g ch => Sys2Proof.Machine.execDnop g ch s
  | .copy g ch => Sys2Proof.Machine.execCopy g ch s
  | .strided g ch => Sys2Proof.Machine.execStrided g ch s
  | .gather g ch => Sys2Proof.Machine.execGather g ch s
  | .scatter g ch => Sys2Proof.Machine.execScatter g ch s
  | .kvput g ch => Sys2Proof.Machine.execKvput g ch s
  | .kvget g ch => Sys2Proof.Machine.execKvget g ch s
  | .exchange g ch => Sys2Proof.Machine.execExchange g ch s
  | .combine g ch order => Sys2Proof.Machine.execCombine g ch order s
  | .reduce g ch order => Sys2Proof.Machine.execReduce g ch order s
  | .collectiveTimeout g ch => Sys2Proof.Machine.execCollectiveTimeout g ch s
  | .prefetchLevel0 g ch => Sys2Proof.Machine.execPrefetchLevel0 g ch s
  | .prefetchLevel1 g ch => Sys2Proof.Machine.execPrefetchLevel1 g ch s
  | .prefetchLevel2 g ch => Sys2Proof.Machine.execPrefetchLevel2 g ch s
  | .prefetchLevel3 g ch => Sys2Proof.Machine.execPrefetchLevel3 g ch s
  | .finderRankTimeout d => Sys2Proof.Machine.execFinderRankTimeout d s
  | .finderStagingDone d expert => Sys2Proof.Machine.execFinderStagingDone d expert s
  | .tileStart g ch => Sys2Proof.Machine.execTileStart g ch s
  | .targetTimeout g q => Sys2Proof.Machine.execTargetTimeout g q s
  | .ownershipEntryWrite granule entry => Sys2Proof.Machine.execOwnershipEntryWrite granule entry s
  | .ownershipFence t => Sys2Proof.Machine.execOwnershipFence t s
  | .ownershipFenceDone t => Sys2Proof.Machine.execOwnershipFenceDone t s
  | .regulatorWindow h => Sys2Proof.Machine.execRegulatorWindow h s
  | .patrolScrub at_ flip newer => Sys2Proof.Machine.execPatrolScrub at_ flip newer s
  | .atsCompletion f pasid va size hpa rd wr u => Sys2Proof.Machine.execAtsCompletion f pasid va size hpa rd wr u s
  | .pageRequest w va prg => Sys2Proof.Machine.execPageRequest w va prg s
  | .pageRequestResponse f prg code => Sys2Proof.Machine.execPageRequestResponse f prg code s
  | .pageRequestOverdue f prg => Sys2Proof.Machine.execPageRequestOverdue f prg s
  | .invalidationRequest f pasid itag => Sys2Proof.Machine.execInvalidationRequest f pasid itag s
  | .invalidationCompletion f itag => Sys2Proof.Machine.execInvalidationCompletion f itag s
  | .gets a line => Sys2Proof.Machine.execGets a line s
  | .getm a line => Sys2Proof.Machine.execGetm a line s
  | .putm a line => Sys2Proof.Machine.execPutm a line s
  | .putmAck a line => Sys2Proof.Machine.execPutmAck a line s
  | .forward line => Sys2Proof.Machine.execForward line s
  | .invalidate grp line => Sys2Proof.Machine.execInvalidate grp line s
  | .invalidateAck grp line => Sys2Proof.Machine.execInvalidateAck grp line s
  | .nackRetry stream line => Sys2Proof.Machine.execNackRetry stream line s
  | .homeWaitTimeout line => Sys2Proof.Machine.execHomeWaitTimeout line s
  | .bisnpResponse line dirty => Sys2Proof.Machine.execBisnpResponse line dirty s
  | .hostCxlMemRead hpa want => Sys2Proof.Machine.execHostCxlMemRead hpa want s
  | .hostCxlMemWrite hpa data keep => Sys2Proof.Machine.execHostCxlMemWrite hpa data keep s
  | .snpdata hpa => Sys2Proof.Machine.execSnpdata hpa s
  | .snpinv hpa => Sys2Proof.Machine.execSnpinv hpa s
  | .snpcur hpa => Sys2Proof.Machine.execSnpcur hpa s
  | .hostCacheResponse hpa excl data => Sys2Proof.Machine.execHostCacheResponse hpa excl data s
  | .cacheEnable on => Sys2Proof.Machine.execCacheEnable on s
  | .cacheWbi => Sys2Proof.Machine.execCacheWbi s
  | .cacheWbiDone => Sys2Proof.Machine.execCacheWbiDone s
  | .gpfPhase1 => Sys2Proof.Machine.execGpfPhase1 s
  | .cohDcCfgWrite v => Sys2Proof.Machine.execCohDcCfgWrite v s
  | .cohHdmCfgWrite v => Sys2Proof.Machine.execCohHdmCfgWrite v s
  | .carveChangeDone => Sys2Proof.Machine.execCarveChangeDone s
  | .decoderCommit n base size bi => Sys2Proof.Machine.execDecoderCommit n base size bi s
  | .sqDoorbell f r v => Sys2Proof.Machine.execSqDoorbell f r v s
  | .cqDoorbell f r v => Sys2Proof.Machine.execCqDoorbell f r v s
  | .ringEnable f r => Sys2Proof.Machine.execRingEnable f r s
  | .ringDisable f r => Sys2Proof.Machine.execRingDisable f r s
  | .ringDrainDone f r => Sys2Proof.Machine.execRingDrainDone f r s
  | .resume f r => Sys2Proof.Machine.execResume f r s
  | .packetRead f r => Sys2Proof.Machine.execPacketRead f r s
  | .phaseReread f r => Sys2Proof.Machine.execPhaseReread f r s
  | .tornReread f r => Sys2Proof.Machine.execTornReread f r s
  | .completionWrite f r cycles => Sys2Proof.Machine.execCompletionWrite f r cycles s
  | .msixUnmask f v => Sys2Proof.Machine.execMsixUnmask f v s
  | .identify f r q => Sys2Proof.Machine.execIdentify f r q s
  | .attachContext f r q tag part granules => Sys2Proof.Machine.execAttachContext f r q tag part granules s
  | .detachContext f r q => Sys2Proof.Machine.execDetachContext f r q s
  | .detachComplete tag => Sys2Proof.Machine.execDetachComplete tag s
  | .loadModel f r q im granules => Sys2Proof.Machine.execLoadModel f r q im granules s
  | .loadModelComplete => Sys2Proof.Machine.execLoadModelComplete s
  | .unloadModel f r q => Sys2Proof.Machine.execUnloadModel f r q s
  | .openSequence f r q slot => Sys2Proof.Machine.execOpenSequence f r q slot s
  | .appendTokens f r q => Sys2Proof.Machine.execAppendTokens f r q s
  | .generate f r q => Sys2Proof.Machine.execGenerate f r q s
  | .cancelSequence f r q => Sys2Proof.Machine.execCancelSequence f r q s
  | .cancelProgram f r q => Sys2Proof.Machine.execCancelProgram f r q s
  | .closeSequence f r q => Sys2Proof.Machine.execCloseSequence f r q s
  | .forkSequence f r q slot pages => Sys2Proof.Machine.execForkSequence f r q slot pages s
  | .snapshotSequence f r q => Sys2Proof.Machine.execSnapshotSequence f r q s
  | .restoreSequence f r q slot pages => Sys2Proof.Machine.execRestoreSequence f r q slot pages s
  | .runProgram f r q => Sys2Proof.Machine.execRunProgram f r q s
  | .prefetchTranslate f r q => Sys2Proof.Machine.execPrefetchTranslate f r q s
  | .prefetchTranslateFaults f r q => Sys2Proof.Machine.execPrefetchTranslateFaults f r q s
  | .prefetchCopy f r q => Sys2Proof.Machine.execPrefetchCopy f r q s
  | .adviseAdd f r q => Sys2Proof.Machine.execAdviseAdd f r q s
  | .adviseRemove f r q => Sys2Proof.Machine.execAdviseRemove f r q s
  | .adviseClear f r q => Sys2Proof.Machine.execAdviseClear f r q s
  | .flush f r q => Sys2Proof.Machine.execFlush f r q s
  | .fenceRing f r q => Sys2Proof.Machine.execFenceRing f r q s
  | .fenceContext f r q => Sys2Proof.Machine.execFenceContext f r q s
  | .powerHintHeavy f r q => Sys2Proof.Machine.execPowerHintHeavy f r q s
  | .powerHintLight f r q => Sys2Proof.Machine.execPowerHintLight f r q s
  | .powerHintClear f r q => Sys2Proof.Machine.execPowerHintClear f r q s
  | .hintExpiry => Sys2Proof.Machine.execHintExpiry s
  | .sealSessionInstall f r q => Sys2Proof.Machine.execSealSessionInstall f r q s
  | .sealSessionDestroy f r q => Sys2Proof.Machine.execSealSessionDestroy f r q s
  | .mirrorStatus f r q => Sys2Proof.Machine.execMirrorStatus f r q s
  | .pair f r q => Sys2Proof.Machine.execPair f r q s
  | .unpair f r q => Sys2Proof.Machine.execUnpair f r q s
  | .setMode f r q => Sys2Proof.Machine.execSetMode f r q s
  | .resync f r q => Sys2Proof.Machine.execResync f r q s
  | .promote f r q => Sys2Proof.Machine.execPromote f r q s
  | .querySequenceCounts f r q => Sys2Proof.Machine.execQuerySequenceCounts f r q s
  | .querySequences f r q => Sys2Proof.Machine.execQuerySequences f r q s
  | .queryFinder f r q => Sys2Proof.Machine.execQueryFinder f r q s
  | .queryRegulators f r q => Sys2Proof.Machine.execQueryRegulators f r q s
  | .queryTranslationCaches f r q => Sys2Proof.Machine.execQueryTranslationCaches f r q s
  | .queryRingCounts f r q => Sys2Proof.Machine.execQueryRingCounts f r q s
  | .diagnoseEcho f r q => Sys2Proof.Machine.execDiagnoseEcho f r q s
  | .diagnoseNightLog f r q => Sys2Proof.Machine.execDiagnoseNightLog f r q s
  | .stepBoundary pages => Sys2Proof.Machine.execStepBoundary pages s
  | .draftSample slot logits => Sys2Proof.Machine.execDraftSample slot logits s
  | .sample slot logits => Sys2Proof.Machine.execSample slot logits s
  | .verifyDrafts slot rows => Sys2Proof.Machine.execVerifyDrafts slot rows s
  | .stepCommit failure => Sys2Proof.Machine.execStepCommit failure s
  | .initiateFlr f => Sys2Proof.Machine.execInitiateFlr f s
  | .flrQuiesceDone f => Sys2Proof.Machine.execFlrQuiesceDone f s
  | .vfEnable => Sys2Proof.Machine.execVfEnable s
  | .vfDisable => Sys2Proof.Machine.execVfDisable s
  | .d3hotEntry => Sys2Proof.Machine.execD3hotEntry s
  | .d0Entry => Sys2Proof.Machine.execD0Entry s
  | .busMasterDisable f => Sys2Proof.Machine.execBusMasterDisable f s
  | .hotReset => Sys2Proof.Machine.execHotReset s
  | .fundamentalReset => Sys2Proof.Machine.execFundamentalReset s
  | .linkUp => Sys2Proof.Machine.execLinkUp s
  | .linkDown => Sys2Proof.Machine.execLinkDown s
  | .hostLinkError cleared => Sys2Proof.Machine.execHostLinkError cleared s
  | .poisonedRequest f => Sys2Proof.Machine.execPoisonedRequest f s
  | .pcForce => Sys2Proof.Machine.execPcForce s
  | .pcClear => Sys2Proof.Machine.execPcClear s
  | .removeRequest => Sys2Proof.Machine.execRemoveRequest s
  | .removeCancel => Sys2Proof.Machine.execRemoveCancel s
  | .removeReady => Sys2Proof.Machine.execRemoveReady s
  | .cxlioCompletion tag status data => Sys2Proof.Machine.execCxlioCompletion tag status data s
  | .completionTimeout tag => Sys2Proof.Machine.execCompletionTimeout tag s
  | .doeRequest vendor typ len => Sys2Proof.Machine.execDoeRequest vendor typ len s
  | .spdmRequest m => Sys2Proof.Machine.execSpdmRequest m s
  | .ideKmRequest m => Sys2Proof.Machine.execIdeKmRequest m s
  | .lockInterfaceRequest f session => Sys2Proof.Machine.execLockInterfaceRequest f session s
  | .tdispRequest f m => Sys2Proof.Machine.execTdispRequest f m s
  | .newNonce => Sys2Proof.Machine.execNewNonce s
  | .debugTokenRequest => Sys2Proof.Machine.execDebugTokenRequest s
  | .debugTokenRead token sigOk => Sys2Proof.Machine.execDebugTokenRead token sigOk s
  | .devArithWrite v => Sys2Proof.Machine.execDevArithWrite v s
  | .railReport rail mw => Sys2Proof.Machine.execRailReport rail mw s
  | .telemetryTimeout rail => Sys2Proof.Machine.execTelemetryTimeout rail s
  | .pwrCapWrite v => Sys2Proof.Machine.execPwrCapWrite v s
  | .pwrModeWrite v => Sys2Proof.Machine.execPwrModeWrite v s
  | .heliostatPeriod waits => Sys2Proof.Machine.execHeliostatPeriod waits s
  | .repeatableLouvreTick => Sys2Proof.Machine.execRepeatableLouvreTick s
  | .dieAgentTick d => Sys2Proof.Machine.execDieAgentTick d s
  | .voltageReached d k => Sys2Proof.Machine.execVoltageReached d k s
  | .droopDetect d k => Sys2Proof.Machine.execDroopDetect d k s
  | .droopRecover d k => Sys2Proof.Machine.execDroopRecover d k s
  | .sensorRead r temp alert => Sys2Proof.Machine.execSensorRead r temp alert s
  | .thermalTrip isl temp => Sys2Proof.Machine.execThermalTrip isl temp s
  | .shutterWave => Sys2Proof.Machine.execShutterWave s
  | .regFail rail word => Sys2Proof.Machine.execRegFail rail word s
  | .refclkLoss => Sys2Proof.Machine.execRefclkLoss s
  | .inputVoltageWarn mv => Sys2Proof.Machine.execInputVoltageWarn mv s
  | .powerRemoved => Sys2Proof.Machine.execPowerRemoved s
  | .setCap tag b2 b3 capW => Sys2Proof.Machine.execSetCap tag b2 b3 capW s
  | .getStatus tag b2 b3 => Sys2Proof.Machine.execGetStatus tag b2 b3 s
  | .readNightLog tag b2 b3 first count => Sys2Proof.Machine.execReadNightLog tag b2 b3 first count s
  | .getThermal tag b2 b3 => Sys2Proof.Machine.execGetThermal tag b2 b3 s
  | .stageB0 => Sys2Proof.Machine.execStageB0 s
  | .stageB1 => Sys2Proof.Machine.execStageB1 s
  | .stageB2 ok ids => Sys2Proof.Machine.execStageB2 ok ids s
  | .stageB3 rec => Sys2Proof.Machine.execStageB3 rec s
  | .stageB4 res => Sys2Proof.Machine.execStageB4 res s
  | .stageB5 res => Sys2Proof.Machine.execStageB5 res s
  | .stageB6 ms => Sys2Proof.Machine.execStageB6 ms s
  | .stageBoundExpiry stage unit => Sys2Proof.Machine.execStageBoundExpiry stage unit s
  | .faultArrival p ext cycles => Sys2Proof.Machine.execFaultArrival p ext cycles s
  | .windowRoll src => Sys2Proof.Machine.execWindowRoll src s
  | .reactionEnd => Sys2Proof.Machine.execReactionEnd s
  | .reactionOverdue cycles => Sys2Proof.Machine.execReactionOverdue cycles s
  | .fltSrcCfgWrite src v => Sys2Proof.Machine.execFltSrcCfgWrite src v s
  | .inject => Sys2Proof.Machine.execInject s
  | .unfreeze => Sys2Proof.Machine.execUnfreeze s
  | .alvToggle => Sys2Proof.Machine.execAlvToggle s
  | .alvRefresh => Sys2Proof.Machine.execAlvRefresh s
  | .drain unit arg fw => Sys2Proof.Machine.execDrain unit arg fw s
  | .test unit arg fw => Sys2Proof.Machine.execTest unit arg fw s
  | .returnUnit unit arg fw => Sys2Proof.Machine.execReturnUnit unit arg fw s
  | .spare unit arg fw => Sys2Proof.Machine.execSpare unit arg fw s
  | .retireBank unit arg fw => Sys2Proof.Machine.execRetireBank unit arg fw s
  | .sparePc unit arg fw => Sys2Proof.Machine.execSparePc unit arg fw s
  | .retirePage unit arg fw => Sys2Proof.Machine.execRetirePage unit arg fw s
  | .repairLink unit arg fw => Sys2Proof.Machine.execRepairLink unit arg fw s
  | .wicketOperationDone pass us => Sys2Proof.Machine.execWicketOperationDone pass us s
  | .testTimeout => Sys2Proof.Machine.execTestTimeout s
  | .hello h b => Sys2Proof.Machine.execHello h b s
  | .finish h sigOk => Sys2Proof.Machine.execFinish h sigOk s
  | .bind h tagOk p => Sys2Proof.Machine.execBind h tagOk p s
  | .commandFrame h tagOk p => Sys2Proof.Machine.execCommandFrame h tagOk p s
  | .sequenceFrame h tagOk p => Sys2Proof.Machine.execSequenceFrame h tagOk p s
  | .kvFrame h tagOk p avail => Sys2Proof.Machine.execKvFrame h tagOk p avail s
  | .samplerFrame h tagOk p => Sys2Proof.Machine.execSamplerFrame h tagOk p s
  | .sessionFrame h tagOk p => Sys2Proof.Machine.execSessionFrame h tagOk p s
  | .commitFrame h tagOk p => Sys2Proof.Machine.execCommitFrame h tagOk p s
  | .resyncFrame h tagOk p avail => Sys2Proof.Machine.execResyncFrame h tagOk p avail s
  | .ack h tagOk p => Sys2Proof.Machine.execAck h tagOk p s
  | .takeover h tagOk p => Sys2Proof.Machine.execTakeover h tagOk p s
  | .ackTimer => Sys2Proof.Machine.execAckTimer s
  | .journalResend => Sys2Proof.Machine.execJournalResend s
  | .mirrorSilence => Sys2Proof.Machine.execMirrorSilence s
  | .laneLockLoss lane => Sys2Proof.Machine.execLaneLockLoss lane s
  | .registerWrite f bar off size8 v => Sys2Proof.Machine.execRegisterWrite f bar off size8 v s
  | .registerReadClear f bar off size8 => Sys2Proof.Machine.execRegisterReadClear f bar off size8 s
  | .busMasterEnable f => Sys2Proof.Machine.execBusMasterEnable f s
  | .memorySpaceEnableClear f => Sys2Proof.Machine.execMemorySpaceEnableClear f s
  | .atsPriEnableClear f what => Sys2Proof.Machine.execAtsPriEnableClear f what s
  | .phaseMark heavy => Sys2Proof.Machine.execPhaseMark heavy s
  | .resyncComplete => Sys2Proof.Machine.execResyncComplete s
  | .hotResetReadiness => Sys2Proof.Machine.execHotResetReadiness s
  | .frameTagFailure h => Sys2Proof.Machine.execFrameTagFailure h s
  | .receiveWindowOverrun => Sys2Proof.Machine.execReceiveWindowOverrun s
  | .ecallOtherFunction g => Sys2Proof.Machine.execEcallOtherFunction g s

end Sys2Proof.Machine
end

