-- ==== Sys2Proof/Safety.lean ====
section
/-! DEFINITION. What a safe step is: it answers a next state, never a fault and never a refusal. Beside it, what claims about the
scheduler mean by an unhurried one. -/

namespace Sys2Proof

/-- The step from s goes on. -/
def Safe (s : Machine.State) : Prop := ∃ t, Machine.step s = .next t

/-- The scheduler is unhurried: no step is in flight, no command waits for a boundary, no output waits for its buffer, and nothing is
to leave at the next boundary (R240, R255, R258, R334). -/
def Machine.State.unhurried (s : Machine.State) : Bool :=
  s.srv.step.isNone && s.srv.received.isEmpty &&
    s.srv.seqs.all (fun x => x.2.late.isNone && !(s.ctx x.2.ctx).draining && !(s.fn (s.ctx x.2.ctx).func).quiescing &&
      !(x.2.generate.map (·.cancel)).getD false) &&
    s.srv.programs.all (fun p => !((s.fn p.f).quiescing || (s.fn p.f).barred))

end Sys2Proof
end

