-- ==== Sys2Proof/Certificates/Slice0/Obligations.lean ====
section
/-! DEFINITION. The statements for the provers: each is a Prop about the machine, with the rule of spec/ that it rests on. Most
say what a command answers, as an equation with the next state that the rule gives; hypotheses speak of the state and the
operands alone. -/

open Sys2Proof Sys2Proof.Machine

/-! ### The machine -/

/-- A step carries out the command at the front of the queue with the queue's rest, and idles on an empty queue (log entry 11). -/
def Obligations.StepRunsFront : Prop :=
  ∀ (c : Instr) (s : State),
    step { s with pending := c :: s.pending } = exec c s ∧ (s.pending = [] → step s = .next s)

/-- Every command answers a next state: no meaning faults and none refuses, because every device error is a value of the state
(R83, R92, R296, R435). -/
def Obligations.EveryStepGoesOn : Prop :=
  ∀ s : State, Safe s

/-- What reset leaves (R471, R430, R56, R464, R280 and the tables they name), and what the model chose (log entry 1). -/
def Obligations.ResetState : Prop :=
  let s := State.reset
  s.pending = [] ∧ s.mem.cells = [] ∧ s.devBringup = 0xFFE0 ∧ s.pwrReg 0x08 = 0x0000_04B0_0CE4_04B0 ∧
    s.pwrReg 0x10 = 0x140E ∧ s.pwrReg 0x18 = 0x28DC_1E34 ∧ s.pwrReg 0x20 = 0x4028 ∧ s.pwrReg 0x30 = 0x0564 ∧
    s.cohReg 0 = 2 ∧ s.cohReg 8 = 0x0018_0008 ∧ s.mirReg 0 = 0x0001_0010 ∧ s.devArith true = 0x100 ∧
    (∀ r, (s.ring 0 r).reg 0x110 = 0x606) ∧ s.wktReg 0 = 0 ∧ s.wktReg 8 = 0 ∧ s.hstReg 0 = 0 ∧ s.fltReg 0 = 0

/-! ### The sequencer (03, 07) -/

/-- Register x0 reads 0 and discards writes; a write to another register changes it alone (R67). -/
def Obligations.RegisterZero : Prop :=
  ∀ (c : Core) (r r' : Reg) (v : Word),
    (c.setReg r v).reg 0 = 0 ∧ (r ≠ 0 → (c.setReg r v).reg r = v) ∧ (r' ≠ r → (c.setReg r v).reg r' = c.reg r') ∧
      (c.setReg 0 v).pc = c.pc ∧ (c.finish r v 4).pc = c.pc + 4

/-- A load whose place is ready returns the bytes that are read there, extended as its kind says, and pc moves past it (R67, R69,
R203); a load whose bytes the youngest buffered store that holds any of them holds whole returns them. A device-strict load is aligned, takes
nothing from the buffer, and waits for no earlier device-strict store (R214). -/
def Obligations.LoadCompletes : Prop :=
  ∀ (g : CoreId) (rd rs1 : Reg) (imm : BitVec 12) (kind : LoadKind) (c : Bool) (s s1 s2 : State) (bs : Bytes),
    let a := effAddr ((s.core g).reg rs1) imm
    let n := loadBytes kind
    let q := s.seqReq g
    let held := if s.strictRange g q.fw q.tag a.toNat n then Forward.none else s1.forward g (s1.placesOf q a.toNat n)
    s.canIssue g = true → s.shutOut g = false → s.mayName q.fw q.tag a.toNat n .read = true →
    (s.strictRange g q.fw q.tag a.toNat n = true → a.toNat % n = 0 ∧ s.strictPending g = false) →
    s.seqPrep q a.toNat n .read = (.ready, s1) →
      (held = .all bs → exec (.load g rd rs1 imm kind c) s =
        .next (s1.modCore g (fun x => x.finish rd (loadValue kind (leNat bs)) (instrLen c)))) ∧
      (held = .none → s1.readRange q (s1.unitCore g) a.toNat n = (some bs, s2) → exec (.load g rd rs1 imm kind c) s =
        .next ((s2.dropIo q.who).modCore g (fun x => x.finish rd (loadValue kind (leNat bs)) (instrLen c))))

/-- A store whose pages are translated enters the store buffer where that has room, and retires; memory is unchanged until the buffer drains
(R203). A device-strict store is aligned and is performed at once where its target takes it and answers (R214).
A store drains from the buffer line by line (R199, R203, R210): a FIFO entry whole, a merging one an aligned word at a time, and the
buffer no longer holds what drained. Of a line in memory without poison under them its bytes are written, and every other byte of memory
is unchanged. -/
def Obligations.StoresBufferedThenDrained : Prop :=
  (∀ (g : CoreId) (rs1 rs2 : Reg) (imm : BitVec 12) (size : MemSize) (c : Bool) (s s1 : State),
      let a := effAddr ((s.core g).reg rs1) imm
      let n := storeBytes size
      let bs := natLe ((s.core g).reg rs2).toNat n
      let q := s.seqReq g
      let es := sbEntries a.toNat bs q (!(s.core g).machineMode && bit (s.core g).wctx.toNat 32)
      s.canIssue g = true → s.shutOut g = false → s.mayName q.fw q.tag a.toNat n .write = true →
        (s.strictRange g q.fw q.tag a.toNat n = false → s.storePrep q a.toNat n = (.ready, s1) → (s1.core g).sbRoom es = true →
          exec (.store g rs1 rs2 imm size c) s = .next (s1.modCore g (fun x => (es.foldl Core.buffer x).retire (instrLen c))) ∧
            s1.mem = s.mem) ∧
        (s.strictRange g q.fw q.tag a.toNat n = true → a.toNat % n = 0 → s.strictPending g = false →
          s.allowed (s.physOf g q.fw q.tag a.toNat) q.fw false q.tag true = true → s.answers (s.physOf g q.fw q.tag a.toNat) = true →
          exec (.store g rs1 rs2 imm size c) s =
            .next ((s.writeRange q (s.unitCore g) a.toNat bs).modCore g (fun x => x.retire (instrLen c))))) ∧
  (∀ (g : CoreId) (i : Nat) (w : Fin 8) (s s1 : State) (e : SbEntry),
      let part := if e.merge then e.bytes.filter (fun b => b.1 / 8 = w.val) else e.bytes
      let rest := if e.merge then e.bytes.filter (fun b => b.1 / 8 ≠ w.val) else []
      let q := s.sbReq g e
      let ls := sbLines e.line part
      (s.core g).sb[i]? = some e → part ≠ [] → s.coreUp g = true → mayDrain (s.core g).sb i = true →
      ls.foldl (fun (a : Ready × State) l => let r := a.2.seqPrep q l.1 1 .write; (a.1.and r.1, r.2)) (.ready, s) = (.ready, s1) →
      (∀ l ∈ ls, s1.lineRefused q l.1 = false ∧ s1.lineAnswers q l.1 = true) →
        exec (.storeBufferDrain g i w) s = .next ((ls.foldl (fun x l => x.performLine g q l) s1).modCore g (fun c =>
          { c with sb := if rest.isEmpty then c.sb.eraseIdx i else c.sb.set i { e with bytes := rest } })) ∧
        ∀ l ∈ ls, (s1.tgt q l.1).io = false → (l.2.map (·.1)).Nodup →
          let k := (s1.tgt q l.1).key
          (∀ x ∈ s1.mem.poison, ∀ b ∈ l.2, x ≠ (k + b.1) / 8) →
            (∀ b ∈ l.2, (s1.performLine g q l).mem.byte (k + b.1) = b.2) ∧
            ∀ j, (∀ b ∈ l.2, j ≠ k + b.1) → (s1.performLine g q l).mem.byte j = s1.mem.byte j)

/-- An atomic whose place is ready takes the old value and writes the new one (R211, R212), a floating-point one only with
deterministic mode off: with it on it writes nothing, raises cause 26 and is counted (R57, R91).
LR places the reservation; SC without one fails and writes nothing; an SC that holds it succeeds, or fails by the open draw of R213 while
that has not failed too often in succession; either way the reservation is cleared. RESERVATION_TIMEOUT clears it (R213). -/
def Obligations.AtomicsAndReservations : Prop :=
  (∀ (g : CoreId) (aq rl : Bool) (rd rs1 rs2 : Reg) (s s1 : State) (n : Nat) (op : AmoOp) (dbl : Bool),
      let p := (s.core g).reg rs1
      let v := ((s.core g).reg rs2).toNat
      let q := s.seqReq g
      let t := s1.tgt q p.toNat
      let old := s1.mem.nat t.key n
      let fin := fun (x : State) => x.modCore g (fun c => c.finish rd (sext (8 * n) old) 4)
      let put := fun (w : Nat) => (fin s1).storeLine t.key (natLe w n) q.ctx
      let refuse := { s1 with boot := { s1.boot with
        fpatomRefused := BitVec.ofNat 16 (satAdd 0xFFFF s1.boot.fpatomRefused.toNat 1) } }.except g 26 p
      s.canIssue g = true → p.toNat % n = 0 → s.shutOut g = false → space p.toNat < 3 →
      s.mayName q.fw q.tag p.toNat n .atomic = true → s.strict g q.fw q.tag p.toNat = false → (rl = true → (s.core g).sb = []) →
      s.atomPrep q p.toNat n = (.ready, s1) → s1.noAtomic q p.toNat = false → s1.buffersLine g t.key = false →
      (isHostKey t.key || s1.allowed t.key q.fw t.host q.tag true) = true → s1.mem.poisoned t.key n = false →
        (n = (if dbl then 8 else 4) →
          exec (.amo g op dbl aq rl rd rs1 rs2) s = .next (put (amoResult op (8 * n) old (v % 2 ^ (8 * n))))) ∧
        (n = 4 → s1.boot.deterministic = false →
          exec (.amofaddS g aq rl rd rs1 rs2) s =
              .next (put (fpRound .fp32 false (fadd (fpDecode .fp32 old) (fpDecode .fp32 (v % 2 ^ 32))))) ∧
            exec (.amofmaxS g aq rl rd rs1 rs2) s =
              .next (put (fpRound .fp32 false (vmaxF (fpDecode .fp32 old) (fpDecode .fp32 (v % 2 ^ 32)))))) ∧
        (n = 2 → s1.boot.deterministic = false →
          exec (.amofaddBf g aq rl rd rs1 rs2) s =
              .next (put (fpRound .bf16 false (fadd (fpDecode .bf16 old) (fpDecode .bf16 (v % 2 ^ 16))))) ∧
            exec (.amofmaxBf g aq rl rd rs1 rs2) s =
              .next (put (fpRound .bf16 false (vmaxF (fpDecode .bf16 old) (fpDecode .bf16 (v % 2 ^ 16)))))) ∧
        (s1.boot.deterministic = true →
          (n = 4 → exec (.amofaddS g aq rl rd rs1 rs2) s = .next refuse ∧ exec (.amofmaxS g aq rl rd rs1 rs2) s = .next refuse) ∧
          (n = 2 → exec (.amofaddBf g aq rl rd rs1 rs2) s = .next refuse ∧ exec (.amofmaxBf g aq rl rd rs1 rs2) s = .next refuse))) ∧
  (∀ (g : CoreId) (dbl aq rl : Bool) (rd rs1 rs2 : Reg) (s s1 : State),
      let n := if dbl then 8 else 4
      let p := (s.core g).reg rs1
      let q := s.seqReq g
      let t := s1.tgt q p.toNat
      let fail := fun (x : State) => x.modCore g (fun c => { c.finish rd 1 4 with resv := none })
      s.canIssue g = true → p.toNat % n = 0 → s.shutOut g = false → space p.toNat < 3 →
      s.mayName q.fw q.tag p.toNat n .atomic = true → s.strict g q.fw q.tag p.toNat = false → (rl = true → (s.core g).sb = []) →
      s.seqPrep q p.toNat n .atomic = (.ready, s1) → s1.noAtomic q p.toNat = false → s1.buffersLine g t.key = false →
      (isHostKey t.key || s1.allowed t.key q.fw t.host q.tag true) = true →
        (∀ (bs : Bytes) (s2 : State), s1.readRange q (s1.unitCore g) p.toNat n = (some bs, s2) →
          exec (.lr g dbl aq rl rd rs1) s = .next (s2.modCore g (fun c =>
            { c.finish rd (sext (8 * n) (leNat bs)) 4 with resv := some (lineOf t.key) }))) ∧
        ((s.core g).resv = none → exec (.sc g dbl aq rl rd rs1 rs2) s = .next (fail s)) ∧
        ((s.core g).resv ≠ none → (s1.core g).resv = some (lineOf t.key) → s1.mem.poisoned t.key n = false →
          (s1.draw.1 % 2 = 1 ∧ (s1.core g).scFails < Config.unstated 213 g →
            exec (.sc g dbl aq rl rd rs1 rs2) s =
              .next ((fail s1.draw.2).modCore g (fun c => { c with scFails := c.scFails + 1 }))) ∧
          (¬ (s1.draw.1 % 2 = 1 ∧ (s1.core g).scFails < Config.unstated 213 g) →
            ∃ x, exec (.sc g dbl aq rl rd rs1 rs2) s = .next x ∧ x.mem = s1.mem.store t.key (natLe ((s.core g).reg rs2).toNat n) ∧
              (x.core g).reg rd = 0 ∧ (x.core g).resv = none ∧ (x.core g).pc = (s1.core g).pc + 4 ∧
              (∀ h, h ≠ g.val → (x.core h).resv = if (s1.core h).resv = some (lineOf t.key) then none else (s1.core h).resv))) ∧
        exec (.reservationTimeout g) s = .next (s.modCore g (fun c => { c with resv := none })))

/-- A CSR instruction that the mode may make returns the old value and writes by its operation; one it may not make, one that writes a
read-only number and one of a number that does not exist raise illegal instruction with the word in mtval (R67, R73, R75, R92).
An interrupt is taken that is pending and enabled while none before it in the order 16, 17, 11, 3, 18 is (R93): mepc names the
instruction not yet executed, and the core goes on at its handler in machine mode. mcycle reaching wcyccmp makes interrupt 18 pending
(R75, R93), and ends a raw program with a time limit ABORTED (R96). -/
def Obligations.CsrAccessAndInterrupts : Prop :=
  (∀ (g : CoreId) (csr : BitVec 12) (op : CsrOp) (useImm : Bool) (rd rs1 : Reg) (s : State),
      let c := s.core g
      let src := if useImm then rs1.zeroExtend 64 else c.reg rs1
      let writes := decide (op = .rw) || decide (rs1 ≠ 0)
      let readOnly := decide (bits csr.toNat 11 10 = 3)
      s.canIssue g = true →
        (∀ old, c.mayCsr csr.toNat = true → (writes && readOnly) = false → s.csr g csr.toNat = some old →
          exec (.csrAccess g csr op useImm rd rs1) s = .next (s.modCore g (fun c =>
            if writes then (c.finish rd old 4).csrWrite csr.toNat (csrValue op old src) else c.finish rd old 4))) ∧
        ((c.mayCsr csr.toNat = false ∨ (writes && readOnly) = true ∨ s.csr g csr.toNat = none) →
          exec (.csrAccess g csr op useImm rd rs1) s =
            .next (s.except g 2 (wordI opSystem (csrF3 op useImm) csr rs1 rd)))) ∧
  (∀ (g : CoreId) (s : State), s.coreUp g = true →
      (∀ (i : Nat) (before after : List Nat), [16, 17, 11, 3, 18] = before ++ i :: after →
        (s.core g).parked = false → (s.core g).wait.breaks = true →
        ((s.core g).machineMode = false ∨ bit (s.core g).mstatus.toNat 3 = true) →
        bit (s.core g).mipNow.toNat i = true → bit (s.core g).mie.toNat i = true →
        (∀ j ∈ before, (bit (s.core g).mipNow.toNat j && bit (s.core g).mie.toNat j) = false) →
          ∃ t, exec (.takeInterrupt g) s = .next t ∧ (t.core g).mepc = (s.core g).pc ∧
            (t.core g).mcause = BitVec.ofNat 64 (2 ^ 63 + i) ∧ (t.core g).mtval = 0 ∧ (t.core g).machineMode = true ∧
            bit (t.core g).mstatus.toNat 3 = false ∧ (t.core g).pc = trapPc (s.core g).mtvec true i ∧ (t.core g).x = (s.core g).x ∧
            t.mem = s.mem) ∧
      (bit (s.core g).mcountinhibit.toNat 0 = false →
        ∃ t, exec (.wcyccmpMatch g) s = .next t ∧ bit (t.core g).mipNow.toNat 18 = true ∧
          (t.core g).mcycle.toNat = max (s.core g).mcycle.toNat (s.core g).wcyccmp.toNat ∧ (t.core g).x = (s.core g).x ∧
          (t.core g).pc = (s.core g).pc ∧ t.mem = s.mem ∧
          ∀ p, s.programOf g = some p → p.limit ≠ 0 → ∃ p' ∈ t.srv.programs, p'.q = p.q ∧ p'.f = p.f ∧ p'.r = p.r ∧ p'.ending = .aborted))

/-- EBREAK raises cause 3 with mtval the pc; an exception of a core saves pc, cause and value, goes to machine mode with MIE
cleared, and continues at the base of mtvec (R92).
The environment calls of a raw program (R95): EXIT parks the core with its code, REPORT gives the result, RENDEZVOUS waits
and returns to the instruction after the call once every core of the set has called or exited, every other number returns -1. -/
def Obligations.ExceptionsAndEnvironmentCalls : Prop :=
  (∀ (g : CoreId) (c : Bool) (s : State), s.canIssue g = true →
      exec (.ebreak g c) s = .next (s.except g 3 (s.core g).pc) ∧
      ∀ (cause : Nat) (tval : Word), cause < 2 ^ 63 → ((s.core g).machineMode = true ∨ s.programOf g = none) →
        (s.core g).parked = false →
        let t := s.except g cause tval
        (t.core g).mepc = (s.core g).pc ∧ (t.core g).mcause = BitVec.ofNat 64 cause ∧ (t.core g).mtval = tval ∧
          (t.core g).machineMode = true ∧ bit (t.core g).mstatus.toNat 3 = false ∧
          (t.core g).pc = BitVec.ofNat 64 ((s.core g).mtvec.toNat / 256 * 256) ∧ t.mem = s.mem) ∧
  (∀ (g : CoreId) (s : State) (p : Program),
      s.canIssue g = true → (s.core g).machineMode = false → s.programOf g = some p → (s.progCore g).isSome = true →
        let k := ((s.progCore g).map (·.calls)).getD 0 + 1
        ((s.core g).a7 = 0 → exec (.exit g) s = .next
          (((s.modProgCore g (fun c => { c with exited := true, code := (s.core g).reg 10 })).modCore g
            (fun c => { c.served with machineMode := true, parked := true })).allExited g p)) ∧
        ((s.core g).a7 = 1 → exec (.report g) s =
          .next ((s.modProgCore g (fun c => { c with result := (s.core g).reg 10 })).modCore g Core.served)) ∧
        ((s.core g).a7 = 2 → exec (.rendezvous g) s = .next
          ((s.modProgCore g (fun c => { c with calls := k })).modCore g (fun c =>
            { c.fetched.trap false 8 c.pc 0 with wait := .rendezvous k }))) ∧
        (3 ≤ (s.core g).a7 → exec (.ecallOtherFunction g) s =
          .next (s.modCore g (fun c => c.served.setReg 10 (BitVec.allOnes 64)))) ∧
        ∀ (s' : State) (p' : Program) (k' : Nat), (s'.core g).wait = .rendezvous k' → s'.programOf g = some p' → p'.met k' = true →
          s'.coreUp g = true → (s'.core g).parked = false →
            exec (.rendezvousReturn g) s' = .next (s'.modCore g (fun c =>
              let r := { c with wait := .none, mepc := c.mepc + 4 }.trapReturn
              { r with minstret := if bit r.mcountinhibit.toNat 2 then r.minstret else r.minstret + 1 })))



/-- EDISP (R77 to R81): the copied command joins its queue with the next ticket, which rd takes, and a chain is translated ahead; a halted
queue and, in the non-blocking form, a full one give 0; a reserved number is illegal (R76, R92).
The head of a queue (R79, R80, R83, R85): it starts at once, or when it is first in line and its semaphore suffices; a
reserved opcode halts the queue with code 1, and a DMA channel that starts translates its next tiles (R231); a finished command releases its
operands and completes, signalling where SIG_ON says. -/
def Obligations.QueuesDispatchAndProgress : Prop :=
  (∀ (g : CoreId) (f7 : BitVec 7) (f3 : BitVec 3) (rs2 rs1 rd : Reg) (s : State),
      let c := s.core g
      let a := c.reg rs1
      let q := f3.toNat
      let n := s.commandBytes g q a.toNat
      let t := nextTicket (c.queue q).issued
      let cmd : EngCmd :=
        { ticket := t, bytes := s.mem.read (coreSramPa g a.toNat) n, sync := c.reg rs2, user := !c.machineMode, wctx := c.wctx,
          phase := .queued, desc := 0, tile := 0, checked := false, joined := false }
      let queued := s.modCore g (fun c =>
        (c.setQueue q { c.queue q with items := (c.queue q).items ++ [.cmd cmd], issued := t }).finish rd (t.zeroExtend 64) 4)
      s.canIssue g = true →
        ((4 ≤ q ∨ f7.toNat / 2 ≠ 0) → exec (.edisp g f7 f3 rs2 rs1 rd) s =
          .next (s.except g 2 (wordR opDispatch f7.toNat f3.toNat rs2 rs1 rd))) ∧
        (q < 4 → f7.toNat / 2 = 0 → s.badCommand g q a = false → c.sramPerformed = true →
          s.mem.poisoned (coreSramPa g a.toNat) n = false → syncBad (c.reg rs2) = false →
          (c.halted q = true → exec (.edisp g f7 f3 rs2 rs1 rd) s = .next (s.modCore g (fun c => c.finish rd 0 4))) ∧
          (c.halted q = false → (c.queue q).used q + cmd.entries q ≤ queueDepth q →
            (q < 2 → exec (.edisp g f7 f3 rs2 rs1 rd) s = .next queued) ∧
            ∀ ch : Chan, q = 2 + ch.val → exec (.edisp g f7 f3 rs2 rs1 rd) s = .next (queued.aheadQueued g ch cmd)) ∧
          (c.halted q = false → queueDepth q < (c.queue q).used q + cmd.entries q → f7.toNat % 2 = 1 →
            exec (.edisp g f7 f3 rs2 rs1 rd) s = .next (s.modCore g (fun c => c.finish rd 0 4))))) ∧
  (∀ (g : CoreId) (q : QueueId) (s : State) (cmd : EngCmd), s.head g q.val = some cmd → s.coreUp g = true →
      (s.core g).halted q.val = false →
        let begun := fun (c : Core) =>
          let t := s.setCore g (c.start q.val cmd)
          if reservedOp q.val cmd.bytes then t.halt g q.val 1 cmd.ticket
          else if q.val = 2 then t.ahead g 0 else if q.val = 3 then t.ahead g 1 else t
        (cmd.phase = .queued → syncWaitEn cmd.sync = false → exec (.commandStart g q) s = .next (begun (s.core g))) ∧
        ((cmd.phase = .queued ∨ cmd.phase = .waiting) → syncWaitEn cmd.sync = true →
          let b := (s.core g).beginWait q.val cmd
          exec (.commandStart g q) s = .next
            (if b.firstWaiter (syncWaitSem cmd.sync) (q.val + 1) ∧ syncWaitCount cmd.sync ≤ b.sem (syncWaitSem cmd.sync) then begun b
             else s.setCore g b)) ∧
        (cmd.phase = .finished → exec (.operandRelease g q) s =
          .next (if syncSigOn cmd.sync then (s.setHead g q.val { cmd with phase := .released }).signalOf g cmd
            else s.setHead g q.val { cmd with phase := .released })) ∧
        ((cmd.phase = .finished ∨ cmd.phase = .released) → exec (.commandCompletion g q) s =
          .next (let t := s.modCore g (fun c => c.setQueue q.val ((c.queue q.val).complete cmd))
            if syncSigOn cmd.sync = false ∨ cmd.phase = .finished then t.signalOf g cmd else t)))

/-- EWAIT returns when the queue has reached the ticket or is halted, else it waits and EWAIT_RETURN returns it then; EQSTAT
reads the status word; ECLR clears a halted queue and answers how many commands it dropped, 0 on another (R82, R84). -/
def Obligations.EngineControl : Prop :=
  ∀ (g : CoreId) (imm : BitVec 12) (rs1 rd : Reg) (s : State),
    (s.canIssue g = true → imm.toNat ≤ 4 →
      let t := ((s.core g).reg rs1).truncate 32
      exec (.ewait g imm rs1 rd) s = .next (s.modCore g (fun c =>
        if (s.core g).ewaitDone imm t then c.finish rd (c.ewaitValue imm) 4 else { c with wait := .queue imm t rd }))) ∧
    (∀ (t : BitVec 32), (s.core g).wait = .queue imm t rd → s.coreUp g = true → (s.core g).ewaitDone imm t = true →
      exec (.ewaitReturn g) s =
        .next (s.modCore g (fun c => { c with wait := .none }.finish rd (c.ewaitValue imm) 4))) ∧
    (s.canIssue g = true → imm.toNat < 4 →
      exec (.eqstat g imm 0 rd) s = .next (s.modCore g (fun c => c.finish rd (c.eqstat imm.toNat) 4)) ∧
      ((s.core g).halted imm.toNat = true → exec (.eclr g imm 0 rd) s = .next ((s.quietChan g imm.toNat).modCore g (fun c =>
        (c.clear imm.toNat).finish rd (BitVec.ofNat 64 (c.queue imm.toNat).cmds.length) 4))) ∧
      ((s.core g).halted imm.toNat = false →
        exec (.eclr g imm 0 rd) s = .next (s.modCore g (fun c => c.finish rd 0 4))))

/-- The semaphore instructions (R85 to R88): the values they write and return; SEMWAIT that cannot be granted at once waits its
turn, and SEMWAIT_GRANT grants the first in line. -/
def Obligations.SemaphoreInstrs : Prop :=
  ∀ (g : CoreId) (imm : BitVec 12) (rs1 rd : Reg) (s : State), imm.toNat < 64 →
    let c := s.core g
    let n := imm.toNat
    let k := bits (c.reg rs1).toNat 15 0
    (s.canIssue g = true →
      (c.sramPerformed = true →
        exec (.semsig g imm rs1 rd) s =
            .next ((s.modCore g (fun x => x.finish rd (BitVec.ofNat 64 (c.sem n)) 4)).signal g n k) ∧
          exec (.semset g imm rs1 0) s = .next (s.modCore g (fun x => (x.setSem n k).retire 4))) ∧
      exec (.semwait g imm rs1 rd) s = .next (s.modCore g (fun x =>
        if k = 0 then x.finish rd (BitVec.ofNat 64 (c.sem n)) 4
        else if (c.semWaits.any (fun w => w.1 = n)) = false ∧ k ≤ c.sem n then
          (x.setSem n (c.sem n - k)).finish rd (BitVec.ofNat 64 (c.sem n - k)) 4
        else { x with wait := .sem n k rd, semWaits := x.semWaits ++ [(n, 0)] })) ∧
      exec (.semtry g imm rs1 rd) s = .next (s.modCore g (fun x =>
        if (c.semWaits.any (fun w => w.1 = n)) = false ∧ 0 < k ∧ k ≤ c.sem n then (x.setSem n (c.sem n - k)).finish rd 1 4
        else x.finish rd 0 4)) ∧
      exec (.semrd g imm 0 rd) s = .next (s.modCore g (fun x => x.finish rd (BitVec.ofNat 64 (c.sem n)) 4))) ∧
    (∀ (m : Fin 64) (j a : Nat), s.coreUp g = true → c.semWaits.find? (fun w => w.1 = m.val) = some (a, 0) →
      c.wait = .sem m j rd → j ≤ c.sem m →
        exec (.semwaitGrant g m) s = .next (s.modCore g (fun x => x.grantSeq m j rd)))

/-- FENCE and FENCE.TSO (R71): whatever their sets and their I and O bits, they act as FBAR with a mask naming the sequencer alone. With
no store of the core buffered the sequencer goes on; else it waits for those stores alone, whatever the engines' queues hold. -/
def Obligations.FenceActsAsBarrier : Prop :=
  ∀ (g : CoreId) (fm pred succ : BitVec 4) (s : State),
    exec (.fence g fm pred succ) s = exec (.fbar g 1 0 0) s ∧
    (s.canIssue g = true →
      let b : Barrier := { id := (s.core g).nextBarrier, kind := .full, mask := 1 }
      ((s.core g).sb = [] → ∃ t, exec (.fence g fm pred succ) s = .next t ∧ (t.core g).pc = (s.core g).pc + 4 ∧
        (t.core g).wait = .none ∧ (∀ x, (t.core g).reg x = (s.core g).reg x) ∧ t.mem = s.mem) ∧
      ((s.core g).sb ≠ [] → exec (.fence g fm pred succ) s = .next (s.setCore g { s.core g with
        nextBarrier := (s.core g).nextBarrier + 1, wait := .barrier b.id, barriers := (s.core g).barriers ++ [b] })))

/-- LBAR, SBAR and FBAR place a marker in every queue of their mask that holds fewer than 8 (R89, R207, R208): with bit 0 of the mask the
sequencer waits, without it it goes on past the instruction; a marker that completes at once lets everything go on. FENCE.I goes on with an
empty store buffer and empties the instruction cache (R70). A barrier whose marker completes is gone from the core and from its queues, and
the sequencer that waits at it goes on past it.
Stores whose target does not answer are dropped and counted in wbstat (R90, R204): at a barrier other than LBAR by either timeout, with the
barrier instruction retired first, and without one, or at an LBAR, with mepc at the instruction about to execute. Cause 25 is raised
with the pointer of the first. -/
def Obligations.BarriersAndStoreTimeouts : Prop :=
  (∀ (g : CoreId) (s : State),
      (s.canIssue g = true →
        (∀ (imm : BitVec 12) (kind : BarKind), 0 < imm.toNat → imm.toNat < 16 →
          (∀ q ∈ maskQueues (imm.truncate 4), ((s.core g).queue q).markers < 8) →
            let c := s.core g
            let b : Barrier := { id := c.nextBarrier, kind := kind, mask := imm.truncate 4 }
            let marked := (maskQueues b.mask).foldl (fun c q =>
              c.setQueue q { c.queue q with items := (c.queue q).items ++ [.marker b.id] }) c
            let placed := { marked with nextBarrier := c.nextBarrier + 1, barriers := marked.barriers ++ [b] }
            let at' := if bit imm.toNat 0 then { placed with wait := .barrier b.id } else placed.retire 4
            exec (match kind with | .load => .lbar g imm 0 0 | .store => .sbar g imm 0 0 | .full => .fbar g imm 0 0) s =
              .next (s.setCore g (if at'.barrierDone b then at'.passBarrier b else at'))) ∧
        ((s.core g).sb = [] → ∃ t, exec (.fenceI g) s = .next t ∧ (t.core g).pc = (s.core g).pc + 4 ∧ (t.core g).icache = [] ∧
          (∀ x, (t.core g).reg x = (s.core g).reg x) ∧ t.mem = s.mem)) ∧
      (∀ b : Barrier, (s.core g).barriers.find? (fun b => (s.core g).barrierDone b) = some b → s.coreUp g = true →
        ∃ t, exec (.barrierMarkerComplete g) s = .next t ∧ t.mem = s.mem ∧
          (t.core g).barriers = (s.core g).barriers.filter (fun x => x.id ≠ b.id) ∧
          (∀ q, ((t.core g).queue q).items = ((s.core g).queue q).items.filter (fun i => decide (i ≠ .marker b.id))) ∧
          ((s.core g).wait = .barrier b.id → (t.core g).wait = .none ∧ (t.core g).pc = (s.core g).pc + 4) ∧
          ((s.core g).wait ≠ .barrier b.id → (t.core g).wait = (s.core g).wait ∧ (t.core g).pc = (s.core g).pc))) ∧
  (∀ (g : CoreId) (s : State) (p : Word), s.firstDead g = some p →
      let kept := (s.core g).sb.filter (fun e => s.sbAnswers g e)
      let ends := fun (t : State) (epc : Word) =>
        (t.core g).mepc = epc ∧ (t.core g).mcause = 25 ∧ (t.core g).mtval = p ∧ (t.core g).sb = kept ∧
          bit (t.core g).wbstat.toNat 0 = true ∧ t.mem = s.mem
      let machine := (s.core g).parked = false ∧ ((s.core g).machineMode = true ∨ s.programOf g = none)
      (∀ id, (s.core g).wait = .barrier id → (s.core g).barriers.any (fun b => b.id = id && b.kind = .load) = false →
        ∃ t, exec (.barrierTimeout g) s = .next t ∧ exec (.storeTimeout g) s = .next t ∧ (t.core g).sb = kept ∧
          (t.core g).wait = .none ∧ bit (t.core g).wbstat.toNat 0 = true ∧ t.mem = s.mem ∧ (machine → ends t ((s.core g).pc + 4))) ∧
      (∀ id, (s.core g).wait = .barrier id → (s.core g).barriers.any (fun b => b.id = id && b.kind = .load) = true →
        ∃ t, exec (.barrierTimeout g) s = .next t ∧ exec (.storeTimeout g) s = .next t ∧ (t.core g).sb = kept ∧
          bit (t.core g).wbstat.toNat 0 = true ∧ t.mem = s.mem ∧ (machine → ends t (s.core g).pc)) ∧
      ((∀ id, (s.core g).wait ≠ .barrier id) →
        ∃ t, exec (.storeTimeout g) s = .next t ∧ (t.core g).sb = kept ∧ bit (t.core g).wbstat.toNat 0 = true ∧ t.mem = s.mem ∧
          (machine → ends t (s.core g).pc)))

/-! ### The engines (04, 05) -/

/-- A started matrix command whose checks pass runs and is finished; one that fails a check halts its queue with that code and
writes nothing (R83, R104, R107 to R110). -/
def Obligations.MatrixCommands : Prop :=
  ∀ (g : CoreId) (s : State) (cmd : EngCmd), s.head g 0 = some cmd → cmd.phase = .started → s.coreUp g = true →
    (s.core g).halted 0 = false →
      (∀ i op check run, (i, op, check, run) ∈
          [(Instr.mnop g, 0, (fun c : EngCmd => if nonzero c.bytes 1 31 then 1 else 0), fun (_ : EngCmd) (x : State) => (0, x)),
           (.mmul g, 1, mmulCheck, mmulRun g), (.mdrain g, 2, mdrainCheck, mdrainRun g),
           (.mcbload g, 3, mcbloadCheck, mcbloadRun g)] → cmdByte cmd.bytes 0 = op →
        (check cmd = 0 → (run cmd s).1 = 0 →
          exec i s = .next ((run cmd s).2.setHead g 0 { cmd with phase := .finished })) ∧
        (check cmd = 0 → (run cmd s).1 ≠ 0 → exec i s = .next ((run cmd s).2.halt g 0 (run cmd s).1 cmd.ticket)) ∧
        (check cmd ≠ 0 → exec i s = .next (s.halt g 0 (check cmd) cmd.ticket)))

/-- MMUL with no poisoned operand gives every entry of its region the sum of R106, leaves every other entry, and changes nothing
else: no byte of memory, no register of the core. -/
def Obligations.MatrixProducts : Prop :=
  ∀ (g : CoreId) (s : State) (cmd : EngCmd),
    let f := mmulOf cmd.bytes
    s.head g 0 = some cmd → cmd.phase = .started → s.coreUp g = true → (s.core g).halted 0 = false →
    cmdByte cmd.bytes 0 = 1 → mmulCheck cmd = 0 → s.sramPoison g f.ranges = none → (s.core g).accPoison = [] →
      ∃ t, exec (.mmul g) s = .next t ∧
        (∀ m n, m < f.m → n < f.n →
          mapGet 0 (t.core g).acc (accIndex (f.accRow + m) (f.accCol + n)) = s.mmulEntry g f (decide (f.w = 7)) m n) ∧
        (∀ k, (∀ m n, m < f.m → n < f.n → k ≠ accIndex (f.accRow + m) (f.accCol + n)) →
          mapGet 0 (t.core g).acc k = mapGet 0 (s.core g).acc k) ∧
        t.mem = s.mem ∧ (t.core g).x = (s.core g).x ∧ (t.core g).pc = (s.core g).pc ∧ (t.core g).sems = (s.core g).sems ∧
        (t.core g).wengerr = (s.core g).wengerr ∧ (∀ h, h ≠ g.val → t.core h = s.core h) ∧ t.flt = s.flt ∧ t.out = s.out

/-- A started vector command whose checks pass runs and is finished; a failed check halts its queue (R83, R116 to R123). -/
def Obligations.VectorCommands : Prop :=
  ∀ (g : CoreId) (s : State) (cmd : EngCmd), s.head g 1 = some cmd → cmd.phase = .started → s.coreUp g = true →
    (s.core g).halted 1 = false →
      (∀ i op run, (i, op, run) ∈
          [(Instr.vadd g, 1, vecElem (fun a b _ => fadd a b) g), (.vsub g, 2, vecElem (fun a b _ => fsub a b) g),
           (.vmul g, 3, vecElem (fun a b _ => fmul a b) g), (.vfma g, 4, vecElem ffma g),
           (.vmax g, 5, vecElem (fun a b _ => vmaxF a b) g), (.vmin g, 6, vecElem (fun a b _ => vminF a b) g),
           (.vcvt g, 7, vecElem (fun a _ _ => a) g),
           (.vsfu g, 8, fun c => vecElem (fun a b _ => f32 (sfuFn (vecOf c.bytes).fn (f32 (rne32 (fmul a b))))) g c),
           (.vgsilu g, 9, vecElem (fun a b _ => fmul (f32 (sfuSilu a)) b) g), (.vrope g, 0xA, vropeRun g),
           (.vrmax g, 0x10, vecReduce (fun f xs => treeMax (if f.fn = 1 then xs.map fabs else xs)) g),
           (.vrsum g, 0x11, vecReduce (fun _ xs => treeSum false xs) g),
           (.vrssq g, 0x12, vecReduce (fun _ xs => treeSum true xs) g), (.vsmax g, 0x13, vsmaxRun g),
           (.vtopk g, 0x14, vtopkRun g)] → cmdByte cmd.bytes 0 = op →
        (vecCheck cmd = 0 → (run cmd s).1 = 0 →
          exec i s = .next ((run cmd s).2.setHead g 1 { cmd with phase := .finished })) ∧
        (vecCheck cmd = 0 → (run cmd s).1 ≠ 0 → exec i s = .next ((run cmd s).2.halt g 1 (run cmd s).1 cmd.ticket)) ∧
        (vecCheck cmd ≠ 0 → exec i s = .next (s.halt g 1 (vecCheck cmd) cmd.ticket))) ∧
      (cmdByte cmd.bytes 0 = 0 → nonzero cmd.bytes 1 31 = false →
        exec (.vnop g) s = .next (s.setHead g 1 { cmd with phase := .finished }))

/-- The element operations of the vector engine write the rows of their destination and no other byte of memory, and no register
of any core (R116, R117). -/
def Obligations.VectorFrame : Prop :=
  ∀ (g : CoreId) (s t : State) (cmd : EngCmd) (i : Instr),
    let f := vecOf cmd.bytes
    s.head g 1 = some cmd → cmd.phase = .started → vecCheck cmd = 0 →
    i ∈ [Instr.vadd g, .vsub g, .vmul g, .vfma g, .vmax g, .vmin g, .vcvt g, .vsfu g, .vgsilu g] → exec i s = .next t →
      (∀ h, (t.core h).x = (s.core h).x ∧ (t.core h).pc = (s.core h).pc ∧ (t.core h).sems = (s.core h).sems ∧
        (t.core h).acc = (s.core h).acc ∧ (t.core h).sb = (s.core h).sb ∧
        (t.core h).mstatus = (s.core h).mstatus) ∧
      ∀ k, (∀ r, r < f.rows → k < coreSramPa g 0 + f.dst + 16 * f.dStride * r ∨
          coreSramPa g 0 + f.dst + 16 * f.dStride * r + f.cols * codeSize f.d ≤ k) →
        t.mem.byte k = s.mem.byte k

/-- A descriptor that a channel has reached is checked once, and its tiles run in order: when all are done the next descriptor is
current, a tile that waits is tried again and the tiles to come are translated ahead, an error halts the channel (R135 to R139, R231, R232).
A descriptor of an ending program that comes to wait on a page request ends there (R96). -/
def Obligations.DmaDescriptors : Prop :=
  ∀ (g : CoreId) (ch : Chan) (s : State) (c : EngCmd),
    let d := c.descriptor c.desc
    let q := dmaReq g ch c
    let tiles := runTiles (fun x i => x.tile q d i) (tileCount d - c.tile) c.tile s
    let waits := tiles.2.2.setHead g (2 + ch) { c with tile := tiles.1, checked := true }
    let stops := waits.endingOn g && waits.chanHeld g (2 + ch)
    let runs := fun (i : Instr) =>
      (tiles.2.1 = .done → exec i s = .next ((tiles.2.2.descDone g ch c).ahead g ch)) ∧
      (tiles.2.1 = .wait → exec i s = .next (if stops then waits.stopChan g (2 + ch) else waits.ahead g ch)) ∧
      (∀ e, tiles.2.1 = .err e → exec i s = .next (tiles.2.2.halt g (2 + ch) e c.ticket))
    (∀ i ty, (i, ty) ∈ [(Instr.dnop g ch, 0), (.copy g ch, 1), (.strided g ch, 2), (.gather g ch, 3), (.scatter g ch, 4),
        (.kvput g ch, 5), (.kvget g ch, 6)] → s.running g ch (· = ty) = some c →
      (c.checked = true ∨ s.dmaCheck q d c.desc = 0 → runs i) ∧
      (c.checked = false → s.dmaCheck q d c.desc ≠ 0 →
        exec i s = .next (s.halt g (2 + ch) (s.dmaCheck q d c.desc) c.ticket))) ∧
    (s.running g ch (fun t => decide (t ≤ 9)) = some c → s.openOn g ch = false → c.checked = true → dType d ≤ 6 →
      runs (.tileStart g ch))

/-- The writes that a queue made to a target that does not answer are abandoned, and no byte of memory changes; a read that the
channel's descriptor, or its part in a collective, waits for at such a target is treated as poisoned and ends it with code 4 (R179, R221).
A collective that waits for members too long ends for those that have joined, with code 0x35; the group is broken in every member and
source 16 is reported (R152). -/
def Obligations.TimeoutsOfTargetsAndCollectives : Prop :=
  (∀ (g : CoreId) (q : QueueId) (s : State),
      ((s.core g).deadWrites.any (fun w => w.q = q.val) = true →
        ∃ t, exec (.targetTimeout g q) s = .next t ∧ t.mem = s.mem ∧
          (t.core g).deadWrites = (s.core g).deadWrites.filter (fun w => w.q ≠ q.val) ∧ (t.core g).x = (s.core g).x ∧
          (t.core g).pc = (s.core g).pc) ∧
      (∀ (ch : Chan) (c : EngCmd) (x : State), q.val = 2 + ch.val → (s.core g).deadWrites.any (fun w => w.q = q.val) = false →
        s.running g ch (fun t => decide (t ≤ 9)) = some c →
          let part := s.joins.find? (fun j => decide (j.phase = .running) && j.onQueue g (2 + ch.val))
          (part = none → c.checked = true → dType (c.descriptor c.desc) ≤ 6 →
            s.tile { dmaReq g ch c with abandon := true } (c.descriptor c.desc) c.tile = (.err 4, x) →
              exec (.targetTimeout g q) s = .next (x.halt g q.val 4 c.ticket)) ∧
          (∀ j p, part = some j → (s.parts j).find? (fun p => j.same p.j) = some p → s.memberTile p = (.err 4, x) →
            exec (.targetTimeout g q) s = .next ((x.partEnd p 4 false).closeColl j)))) ∧
  (∀ (g : CoreId) (ch : Chan) (s : State) (j : Joined),
      s.joins.find? (fun j => j.onQueue g (2 + ch.val) && s.waitsForMembers j) = some j →
        let e := s.group g (collGroup j.bytes)
        exec (.collectiveTimeout g ch) s =
          .next (((s.memberMap e.map e.members).foldl (fun x h => x.breakGroup e.map h)
            ((s.allEnd (s.parts j) 0x35).closeColl j)).report
              (event 16 (unitDie (g.val / 32)) (collId j.bytes + collGroup j.bytes <<< 16 + g.val <<< 20))))



/-- A collective descriptor is checked and joins its group, or halts its channel with the first code of the table that applies; either
way it counts as issued (R138, R149, R150). While members are missing nothing but the joining happens; with the last one the collective
ends with 0x34 for all where the descriptors do not match, and begins where they do; a collective at work goes on as far as it can (R149
to R159). -/
def Obligations.CollectivesRun : Prop :=
  ∀ (g : CoreId) (ch : Chan) (order : List Nat) (s : State) (c : EngCmd),
    let d := c.descriptor c.desc
    let q := dmaReq g ch c
    let ends := fun (x : State) (e : Nat) => (x.issue g d).halt g (2 + ch) e c.ticket
    (∀ (i : Instr) (ty : Nat) (check : Requester → EngCmd → Bytes → Nat → Nat)
        (more : State → Requester → Bytes → Tile × List (List (Nat × Nat × Nat)) × State) (o : List Nat), (i, ty, check, more, o) ∈
        [(Instr.exchange g ch, 7, s.exchangeCheck, (fun (x : State) q d => x.routes q d), ([] : List Nat)),
         (.combine g ch order, 8, s.combineCheck, (fun x _ _ => (.done, [], x)), order),
         (.reduce g ch order, 9, s.reduceCheck, (fun x _ _ => (.done, [], x)), order)] →
      s.running g ch (· = ty) = some c →
      (c.joined = false → ∀ l s1,
        (check q c d c.desc = 0 → more s q d = (.done, l, s1) → exec i s =
          .next (((s1.dropIo q.who).join g ch c d l).1.fire ((s1.dropIo q.who).join g ch c d l).2 o)) ∧
        (check q c d c.desc = 0 → ∀ e, more s q d = (.err e, l, s1) → exec i s = .next (ends (s1.dropIo q.who) e)) ∧
        (0x30 < check q c d c.desc → more s q d = (.err 0x30, l, s1) → exec i s = .next (ends (s1.dropIo q.who) 0x30))) ∧
      (c.joined = false → check q c d c.desc ≠ 0 → (0x30 < check q c d c.desc → (more s q d).1 ≠ .err 0x30) →
        exec i s = .next (ends s (check q c d c.desc))) ∧
      (c.joined = true → exec i s = .next (s.fireAll g ch o))) ∧
    (∀ (j : Joined) (p : Part), (s.joinNow j) = j → (s.parts j).head? = some p →
      (j.phase = .waiting →
        ((s.parts j).length < p.e.members → s.fire j order = s) ∧
        (p.e.members ≤ (s.parts j).length →
          let b := s.begins (s.parts j) p
          s.fire j order = (if (b.joinNow j).phase = .running then b.goOn j order else b).closeColl j ∧
          ((∃ x ∈ s.parts j, commonOf x.d ≠ commonOf p.d) → b = s.allEnd (s.parts j) 0x34) ∧
          ((∀ x ∈ s.parts j, commonOf x.d = commonOf p.d) →
            (dType p.d = 7 → b = s.startExchange (s.parts j)) ∧ (dType p.d = 8 → b = s.startCombine (s.parts j)) ∧
            (dType p.d = 9 → b = (s.parts j).foldl (fun x p => x.modJoin p.j (fun y => { y with phase := .running })) s)))) ∧
      (j.phase = .running → s.fire j order = (s.goOn j order).closeColl j ∧
        (dType j.bytes = 7 → s.goOn j order = (s.parts j).foldl (fun x p => x.runExchange p) s) ∧
        (dType j.bytes = 8 → s.goOn j order = s.runCombine j order) ∧
        (dType j.bytes = 9 → s.goOn j order = State.runReduce (reduceTiles j.bytes) s j order)))

/-- With deterministic mode on, what COMBINE and REDUCE compute does not depend on the order in which contributions arrive
(R57, R157, R159). -/
def Obligations.DeterministicOrder : Prop :=
  ∀ (g : CoreId) (ch : Chan) (o o' : List Nat) (s : State), s.boot.deterministic = true →
    exec (.combine g ch o) s = exec (.combine g ch o') s ∧ exec (.reduce g ch o) s = exec (.reduce g ch o') s

/-- The four levels of PREFETCH (R160, R161, R163, R164): level 0 brings the host lines of the range to the device cache, level 1 translates
the range's pages into the channel's caches, level 2 submits a prediction list to the Finder of the die, level 3 begins a layer there.
A Finder ranks without the missing lists when its wait is over, and a staged block completes in the half that holds it and is
counted (R163, R164, R166). -/
def Obligations.PrefetchAndFinder : Prop :=
  (∀ (g : CoreId) (ch : Chan) (s : State) (c : EngCmd), s.running g ch (· = 10) = some c →
      let d := c.descriptor c.desc
      let q := dmaReq g ch c
      let pages := cutAt 4096 (fieldLe d 24 8 / 4096 + 2) (dSrc d) (fieldLe d 24 8)
      let r := fun (f : State → Nat → Nat → Tile × State) => runTiles (fun s i => match pages[i]? with
        | some p => f s p.1 p.2
        | none => (.done, s)) (pages.length - c.tile) c.tile s
      let r0 := r (fun s p n => s.bringPage q p n)
      let r1 := r (fun s p n => s.prefetchPage q p n)
      (c.checked = true ∨ rangeCheck d c.desc = 0 →
        (pLevel d = 0 → r0.2.1 = .done → exec (.prefetchLevel0 g ch) s = .next (r0.2.2.descDone g ch c)) ∧
        (pLevel d = 1 → r1.2.1 = .done → exec (.prefetchLevel1 g ch) s = .next (r1.2.2.descDone g ch c))) ∧
      (∀ bs s1, pLevel d = 2 → s.predictCheck q d c.desc = 0 → s.fetch q (dSrc d) (4 * fieldLe d 24 8) = (.done, bs, s1) →
        let l := (List.range (fieldLe d 24 8)).map (fun i => (fieldLe bs (4 * i) 2, fieldLe bs (4 * i + 2) 2))
        let s2 := s1.dropIo q.who
        exec (.prefetchLevel2 g ch) s =
          .next ((if s2.finderOn g then s2.finderSubmit g (pLayer d) l else s2).descDone g ch c)) ∧
      (pLevel d = 3 → beginCheck d c.desc = 0 →
        exec (.prefetchLevel3 g ch) s =
          .next ((if s.finderOn g then s.finderBegin (g / 32) (pLayer d) else s).descDone g ch c))) ∧
  (∀ (d : DieId) (e : BitVec 16) (s : State),
      let f := s.finder d
      (f.ranked = false → f.submitted ≠ [] → s.srv.main.isSome = true →
        exec (.finderRankTimeout d) s = .next (s.setFinder d (s.finderRank d f))) ∧
      (∀ b ∈ f.serving, b.expert = e.toNat → b.complete = false →
        exec (.finderStagingDone d e) s = .next (s.setFinder d { f with
          serving := f.serving.map (fun x => if x.expert = e.toNat then { x with complete := true } else x),
          stagedCount := satAdd (2 ^ 64 - 1) f.stagedCount 1 })) ∧
      (∀ b ∈ f.filling, b.expert = e.toNat → b.complete = false →
        (∀ x ∈ f.serving, x.expert = e.toNat → x.complete = true) →
        exec (.finderStagingDone d e) s = .next (s.setFinder d { f with
          filling := f.filling.map (fun x => if x.expert = e.toNat then { x with complete := true } else x),
          stagedCount := satAdd (2 ^ 64 - 1) f.stagedCount 1 })))

/-! ### Ownership, bandwidth, scrub (06) -/

/-- An ownership entry takes the bits written, reserved bits reading 0, and every other granule keeps its entry and its bytes; the granule
keeps its own where its PART stays, and no longer reads as it did where the key changes; a fence begins and ends at its table (R182, R187,
R195).
A window gives every regulator of the hub its RATE up to BURST and counts the window before if a request was held in it; no other
regulator changes (R191). Patrol scrub of memory or of a shared cache corrects and counts one flipped bit, poisons a word with two unless a
newer write has reached it, counts both, and keeps poison (R193, R194, R196). -/
def Obligations.OwnershipWindowsAndScrub : Prop :=
  (∀ (granule : BitVec 52) (e : BitVec 32) (t : TableId) (s : State),
      (granuleExists granule.toNat = true →
        ∃ u, exec (.ownershipEntryWrite granule e) s = .next u ∧ u.entryOf granule.toNat = e &&& 0x7F_FFFF ∧
          (∀ pa, granuleOf pa ≠ granule.toNat → u.entryOf pa = s.entryOf pa) ∧
          (∀ k, granuleOf k ≠ granule.toNat → u.mem.byte k = s.mem.byte k) ∧
          (bits (s.entryOf granule.toNat).toNat 21 16 = bits e.toNat 21 16 → u.mem = s.mem) ∧
          ((hbmStack granule.toNat).isSome = true → bits (s.entryOf granule.toNat).toNat 21 16 ≠ bits e.toNat 21 16 →
            ∀ i, i < 2 ^ 21 → u.mem.byte (granule.toNat + i) = Config.entryByte s.draw.1 i) ∧
          u.cores = s.cores ∧ u.coh = s.coh ∧ u.ctxs = s.ctxs ∧ u.flt = s.flt) ∧
      exec (.ownershipFence t) s = .next { s with fences := setAdd s.fences t.val } ∧
      exec (.ownershipFenceDone t) s = .next { s with fences := setDel s.fences t.val }) ∧
  (∀ (h : HubId) (w : BitVec 52) (cache newer : Bool) (s : State),
      let k := w.toNat / 8 * 8
      let ce := s.scrubEvent k cache false
      let ue := s.scrubEvent k cache true
      exec (.regulatorWindow h) s = .next { s with regulators := s.regulators.map (fun p =>
        if p.1 / 64 = h.val then (p.1, { p.2 with credit := min (p.2.credit + p.2.rate.toNat) p.2.burst.toNat,
                                                  heldWindows := p.2.heldWindows + b2n p.2.held, held := false }) else p) } ∧
      (scrubbed k cache = true → s.mem.poisoned k 8 = false →
        exec (.patrolScrub ⟨w, cache⟩ 0 newer) s = .next s ∧
        exec (.patrolScrub ⟨w, cache⟩ 1 newer) s = .next (s.report ce) ∧
        exec (.patrolScrub ⟨w, cache⟩ 2 false) s = .next
          (({ s with mem := { s.mem with poison := setAdd s.mem.poison (k / 8) } } : State).report ue) ∧
        exec (.patrolScrub ⟨w, cache⟩ 2 true) s = .next (s.report ue)) ∧
      (scrubbed k cache = true → s.mem.poisoned k 8 = true → ∀ n, exec (.patrolScrub ⟨w, cache⟩ n newer) s = .next (s.report ue)))

/-! ### Translation (08) -/

/-- A translation completion ends the requests it answers; with a right it fills the L2 of each hub that asked, its entry most
recently used, and the L1s that a PREFETCH asked for; what the caches of those hubs held for the page is gone (R160, R228, R229, R238), and no
byte of memory changes. A stale one fills nothing.
A faulting waiter with a free credit sends a page request with the group index given, after the fault record that its context asks for;
without a credit it stalls and the overflow counter rises; a request already outstanding is shared; a function that may send none fails the
access (R234, R236, R245); a channel whose program is ending sends none and its descriptor ends (R96). -/
def Obligations.TranslationsAndPageRequests : Prop :=
  (∀ (f : FnId) (pasid : Option (BitVec 20)) (va hpa : BitVec 64) (size : PageSize) (rd wr u : Bool) (s : State) (a0 : AtsReq),
      let p := pasidOf pasid
      let page := va.toNat / 4096 * 4096
      let asked := s.xlt.ats.filter (fun a => (a.fn = f.val && a.pasid = p && a.va = page) && a.stale = a0.stale)
      let e := xEntry f p page size hpa.toNat rd wr u
      s.xlt.ats.find? (fun a => a.fn = f.val && a.pasid = p && a.va = page) = some a0 →
        ∃ t, exec (.atsCompletion f pasid va size hpa rd wr u) s = .next t ∧ t.mem = s.mem ∧ t.own = s.own ∧
          (∀ g, (t.core g).x = (s.core g).x ∧ (t.core g).pc = (s.core g).pc) ∧
          (a0.stale = true → t.xlt.l1 = s.xlt.l1 ∧ t.xlt.l2 = s.xlt.l2) ∧
          (a0.stale = false →
            (∀ a ∈ s.xlt.ats, asked.contains a = false → a ∈ t.xlt.ats) ∧
            (∀ h, asked.any (fun a => a.hub = h) = false → mapGet [] t.xlt.l2 h = mapGet [] s.xlt.l2 h) ∧
            ((rd || wr || u) = true → ∀ a ∈ asked, (mapGet [] t.xlt.l2 a.hub).head? = some e ∧
              (∀ n ∈ a.units, (mapGet [] t.xlt.l1 n).head? = some e)) ∧
            ((rd || wr || u) = false → ∀ a ∈ asked,
              mapGet [] t.xlt.l2 a.hub = dropPage f p page (mapGet [] s.xlt.l2 a.hub)))) ∧
  (∀ (w : Waiter) (va : BitVec 64) (prg : BitVec 9) (s : State) (x : XWait), s.xlt.waits.find? (·.isFor w va.toNat) = some x →
      x.phase = .faulted →
      let f := s.fn x.fn
      let same := s.xlt.reqs.any (fun r => r.fn = x.fn && r.pasid = x.pasid && r.va = x.va && r.rd = x.rd && r.wr = x.wr)
      let full := s.xlt.waits.any (fun y => decide (y.phase = .stalled) && y.fn = x.fn) ||
        decide (min f.priAlloc.toNat 512 ≤ s.outstanding x.fn)
      (∀ g c, w = .chan g c → s.endingOn g = true → s.chanHeld g (2 + c.val) = true →
        exec (.pageRequest w va prg) s = .next (s.stopChan g (2 + c.val))) ∧
      ((∀ g c, w = .chan g c → s.endingOn g = false) →
        (f.noPri = true → exec (.pageRequest w va prg) s = .next (s.setWait x { x with phase := .failed })) ∧
        (f.noPri = false → same = true → exec (.pageRequest w va prg) s = .next (s.setWait x { x with phase := .requested })) ∧
        (f.noPri = false → same = false → full = true → ∀ s1 s2, s.recordFault x 0 true = (some s1, s2) →
          exec (.pageRequest w va prg) s =
            .next (let t := s1.setWait x { x with phase := .stalled }
              { t with xlt := { t.xlt with overflow := BitVec.ofNat 32 (satAdd (2 ^ 32 - 1) t.xlt.overflow.toNat 1) } })) ∧
        (f.noPri = false → same = false → full = false → s.sends x.fn = true →
          s.xlt.reqs.any (fun r => r.fn = x.fn && r.prg = prg.toNat) = false →
          ∀ s1 s2, s.recordFault x prg.toNat false = (some s1, s2) →
          exec (.pageRequest w va prg) s =
            .next (let t := s1.setWait x { x with phase := .requested }
              let r : PageReq :=
                { fn := x.fn, pasid := x.pasid, va := x.va, rd := x.rd, wr := x.wr, prg := prg.toNat, overdue := false }
              ({ t with xlt := { t.xlt with reqs := t.xlt.reqs ++ [r] } } : State).send
                (.pageRequest x.fn x.pasid x.va x.rd x.wr prg.toNat)))))

/-- A page response ends its request: on Success the waiters translate again, on Invalid Request they fail, on Response Failure
every request of the function fails; a response to no request is counted as unexpected (R235, R236); a quiescing function consumes it and
does nothing (R335). A request that no response has answered in time is marked, reported as source 17 and in XLT_PRI_EVENTS (R237).
After an invalidation no cache translates an address of the PASID, and requests that were outstanding are stale, but for those with which
the ring pages are obtained again after one that names no PASID (R238, R239, R242, R279); it is answered at once where the PASID is not
attached, else when the accesses that used it are done. -/
def Obligations.PageResponsesAndInvalidations : Prop :=
  (∀ (f : FnId) (prg : BitVec 9) (s : State) (r : PageReq),
      let s1 : State := { s with xlt := { s.xlt with reqs := s.xlt.reqs.filter (fun x => x ≠ r) } }
      ((s.fn f).quiescing = false → s.xlt.reqs.find? (fun r => r.fn = f.val && r.prg = prg.toNat) = some r →
        exec (.pageRequestResponse f prg .success) s = .next (s1.pageSuccess r) ∧
        exec (.pageRequestResponse f prg .invalidRequest) s = .next (s1.failWaits (fun w =>
          w.fn = r.fn && w.pasid = r.pasid && w.va = r.va && decide (w.phase = .requested))) ∧
        exec (.pageRequestResponse f prg .responseFailure) s =
          .next (((s1.setFn f { s.fn f with respFailure := true }).failWaits (fun w =>
            w.fn = f.val && (decide (w.phase = .requested) || decide (w.phase = .stalled)))).xltEvent 0 f)) ∧
      ((s.fn f).quiescing = false → s.xlt.reqs.find? (fun r => r.fn = f.val && r.prg = prg.toNat) = none → ∀ code,
        ∃ t, exec (.pageRequestResponse f prg code) s = .next t ∧ t.mem = s.mem ∧ t.xlt.reqs = s.xlt.reqs ∧
          bit t.xlt.events.toNat 1 = true) ∧
      ((s.fn f).quiescing = true → ∀ code, exec (.pageRequestResponse f prg code) s =
        .next (let kept := s.xlt.reqs.filter (fun r => !(decide (r.fn = f.val) && decide (r.prg = prg.toNat)))
          { s with xlt := { s.xlt with reqs := kept } })) ∧
      (s.xlt.reqs.find? (fun r => r.fn = f.val && r.prg = prg.toNat && !r.overdue) = some r →
        exec (.pageRequestOverdue f prg) s =
          .next ((({ s with xlt := { s.xlt with reqs := s.xlt.reqs.map (fun x =>
            if x = r then { x with overdue := true } else x) } } : State).xltEvent 2 f).report (event 17 unitHost r.pasid)))) ∧
  (∀ (f : FnId) (pasid : Option (BitVec 20)) (itag : BitVec 5) (s : State),
      ((s.xlt.invals.filter (fun i => i.fn = f.val)).length < 32 →
        ∃ t, exec (.invalidationRequest f pasid itag) s = .next t ∧
          (∀ unit hub p va, (match pasid with | some x => p = x.toNat | none => True) → t.xlt.peek unit hub f.val p va = none) ∧
          (∀ a ∈ t.xlt.ats, a.fn = f.val → (match pasid with | some x => a.pasid = x.toNat | none => a.pasid ≠ noPasid) →
            a.stale = true) ∧
          t.mem = s.mem ∧ t.cores = s.cores ∧
          (pasid.any (fun x => (s.ctxOf f x.toNat).isNone) = true → s.invSends f = true →
            t.out = s.out ++ [.invalidationCompletion f itag])) ∧
      (∀ i, s.xlt.invals.find? (fun i => i.fn = f.val) = some i → i.itag = itag → s.invSends f = true → s.invDone i = true →
        exec (.invalidationCompletion f itag) s =
          .next (({ s with xlt := { s.xlt with invals := s.xlt.invals.erase i } } : State).sendInvDone f itag)))

/-! ### Coherence (12) -/

/-- A request that reaches a home with no entry, or an entry that nobody must be asked about, is granted: M for GETM, S for GETS
(R351, R352); the write-back of an owner frees the entry. -/
def Obligations.HomesGrant : Prop :=
  ∀ (a : AgentId) (line : BitVec 52) (excl : Bool) (s : State),
    let l := line.toNat
    let n := a.toNat
    let row := if excl then Instr.getm a line else .gets a line
    (s.agentOk n l = true → s.issued n l excl = true → s.coh.turn (streamOf n) l = true →
      (s.coh.entry l = none → (s.coh.setOf l).length < 16 → exec row s = .next (s.grantAgent n l excl [])) ∧
      (∀ e gs, s.coh.entry l = some e → e.trans = none → e.st = .shared gs → s.coh.atOnce e excl = true →
        exec row s = .next (s.grantAgent n l excl gs)) ∧
      (∀ e, s.coh.entry l = some e → e.trans = none → s.coh.atOnce e excl = false →
        s.coh.reqs.any (fun r => r.1 = n && r.2.1 = l) = true → (e.hostHolds (!excl) = false ∨ s.snoops = true) →
        exec row s = .next (s.begin l e (.agent n excl) excl))) ∧
    ((s.grantAgent n l excl []).coh.holds n l excl = true ∧
      (s.coh.cacheVictim n l = none → (s.grantAgent n l excl []).mem = s.mem ∧ (s.grantAgent n l excl []).cores = s.cores)) ∧
    (∀ e, s.coh.holds n l true = true → s.coh.entry l = some e → e.trans = none → e.st = .owned n →
      exec (.putm a line) s =
        .next (({ s with coh := { s.coh.drop n l with wbuf := s.coh.wbuf ++ [(n, l)], dir := mapDel s.coh.dir l } } : State).settled l)) ∧
    exec (.putmAck a line) s =
      .next { s with coh := { s.coh with wbuf := s.coh.wbuf.filter (fun w => !(w.1 = n && w.2 = l)) } }

/-- The steps of a transient line: the owner's forward, a group's invalidation and its acknowledgement, the host's answer to a
snoop, a repeated request (R351 to R356).
An owner that stays silent until the home's bound is dead: its line is poisoned, COH_TIMEOUTS rises, source 12 is reported,
and the request is completed without it (R358). -/
def Obligations.TransactionsAdvance : Prop :=
  (∀ (line : BitVec 52) (s : State) (e : DirEntry) (t : DirTrans), s.coh.entry line.toNat = some e → e.trans = some t →
      let l := line.toNat
      (∀ o, e.st = .owned o → t.fwd = true → s.coh.dead.contains o = false → s.agentUp o = true →
        let stay := match t.req with
          | .agent _ excl => !excl
          | .host want data => decide (want = .shared) && data.isNone
          | _ => false
        let s1 := s.surrender o l stay
        exec (.forward line) s =
          .next (s1.progress l e { t with fwd := false } (if stay && s1.coh.holds o l false then [groupOf o] else []))) ∧
      (∀ grp : GroupId, t.acks.contains grp.val = true →
        exec (.invalidate grp line) s =
          .next (((agentsOf grp.val).filter s.agentUp).foldl (fun s a => s.surrender a l false) s) ∧
        ((agentsOf grp.val).any s.agentUp = true → (∀ a ∈ agentsOf grp.val, s.coh.holds a l false = false) →
          exec (.invalidateAck grp line) s = .next (s.progress l e { t with acks := setDel t.acks grp.val } []))) ∧
      (t.snoop = true → exec (.bisnpResponse line none) s =
        .next (s.progress l e { t with snoop := false }
          (if (match t.req with
            | .agent _ excl => !excl
            | .engine inval => !inval
            | _ => false) && e.hostHolds true then [hostGroup] else []))) ∧
      (∀ (st : StreamId) (a : Nat) (excl : Bool), s.coh.nackCount st.val l ≠ 0 →
        s.coh.reqs.find? (fun r => decide (streamOf r.1 = st.val) && decide (r.2.1 = l)) = some (a, l, excl) →
        exec (.nackRetry st line) s = .next (s.agentReq a l excl))) ∧
  (∀ (line : BitVec 52) (s : State) (e : DirEntry) (t : DirTrans) (o : Nat), s.coh.entry line.toNat = some e →
      e.trans = some t → e.st = .owned o → t.fwd = true → t.snoop = false → t.acks = [] → o < 544 →
        let s1 : State := { s with
          coh := { s.coh with timeouts := BitVec.ofNat 16 (satAdd 0xFFFF s.coh.timeouts.toNat 1) },
          mem := s.mem.poisonLine line.toNat }
        exec (.homeWaitTimeout line) s =
            .next ((s1.killAgent o).completeReq line.toNat { e with trans := none } t.req []) ∧
          (s1.killAgent o).coh.dead.contains o = true ∧ (s1.killAgent o).mem.poisoned line.toNat 1 = true)

/-- Host requests to HDM (R354, R366, R367): in the bulk window they are answered from memory at once, in the coherent window
through the home; where no decoder answers, and where the stack does not (log entry 115), the read is poisoned and source 27 or 15 is
reported.
The device cache (R361, R363): a snoop of a line returns dirty data and leaves the line S, gone, or as it was; a response
fills the line, and one to a RdCurr is kept for its ring; Cache_Enable and write-back act as the DVSEC says, and when a write-back is done
the cache is empty. -/
def Obligations.HostRequestsAndDeviceCache : Prop :=
  (∀ (hpa : BitVec 64) (want : HostWant) (data : Bytes) (s : State), s.port.linkUp = true →
      let h := hpa.toNat / 64 * 64
      ((s.coh.memoryActive = false ∨ s.coh.hdmOff h = none) →
        exec (.hostCxlMemRead hpa want) s = .next (s.noHdm h true) ∧
        exec (.hostCxlMemWrite hpa data want) s = .next (s.noHdm h false)) ∧
      (∀ o, s.coh.memoryActive = true → s.coh.hdmOff h = some o → s.port.frozen = false →
        (s.allowed (carvePa o) false true 0 false = true →
          (s.answers (carvePa o) = false → exec (.hostCxlMemRead hpa want) s =
            .next ((s.send (.cxlRead h (List.replicate 64 0) true)).report (event 15 unitHost (carvePa o)))) ∧
          (s.answers (carvePa o) = true → s.coh.coherent o = false → s.mem.poisoned (carvePa o) 64 = false →
            exec (.hostCxlMemRead hpa want) s = .next (s.send (.cxlRead (carvePa o) (s.mem.read (carvePa o) 64) false))) ∧
          (s.answers (carvePa o) = true → s.coh.coherent o = false → s.mem.poisoned (carvePa o) 64 = true →
            exec (.hostCxlMemRead hpa want) s = .next ((s.send (.cxlRead (carvePa o) (s.mem.read (carvePa o) 64) true)).report
              (event 8 unitHost (s.mem.firstPoison (carvePa o) 64)))) ∧
          (s.answers (carvePa o) = true → s.coh.coherent o = true → (s.hostReq (carvePa o) want none).1 = false →
            exec (.hostCxlMemRead hpa want) s = .next (s.hostReq (carvePa o) want none).2)) ∧
        (s.allowed (carvePa o) false true 0 true = true →
          (s.answers (carvePa o) = false → exec (.hostCxlMemWrite hpa data want) s =
            .next ((s.send (.cxlDone h)).report (event 15 unitHost (carvePa o)))) ∧
          (s.answers (carvePa o) = true → s.coh.coherent o = false → exec (.hostCxlMemWrite hpa data want) s =
            .next ((s.storeLine (carvePa o) (sliceBytes data 0 64) none).send (.cxlDone h))) ∧
          (s.answers (carvePa o) = true → s.coh.coherent o = true → (s.hostReq (carvePa o) want (some data)).1 = false →
            exec (.hostCxlMemWrite hpa data want) s = .next (s.hostReq (carvePa o) want (some data)).2)))) ∧
  (∀ (hpa : BitVec 64) (s : State) (st : DcSt),
      let l := hpa.toNat / 64 * 64
      let data := s.mem.read (hostKey l) 64
      let bad := s.mem.poisoned (hostKey l) 64
      (s.port.linkUp = true → s.port.frozen = false → mapFind s.coh.dc l = some st →
        exec (.snpdata hpa) s = .next (let t := s.send (.snoopAnswer l (if st = .m then some data else none) bad)
          { t with coh := { t.coh with dc := mapPut t.coh.dc l .s } }) ∧
        exec (.snpinv hpa) s = .next (let t := s.send (.snoopAnswer l (if st = .m then some data else none) bad)
          ({ t with coh := { t.coh with dc := mapDel t.coh.dc l, dcUsed := mapDel t.coh.dcUsed l } } : State).loseResv (hostKey l) 512) ∧
        exec (.snpcur hpa) s = .next (s.send (.snoopAnswer l (some data) bad))) ∧
      (∀ (excl : Bool) (bs : Bytes), s.port.linkUp = true → s.port.frozen = false →
        let given := if s.coh.dcHolds l false then s
          else ({ s with mem := s.mem.store (hostKey l) (sliceBytes bs 0 64) } : State).loseResv (hostKey l) 512
        (∀ r : Nat × Bool, s.coh.d2h.find? (fun r => r.1 = l) = some r → (r.2 = false ∨ excl = true) →
          exec (.hostCacheResponse hpa excl bs) s = .next (let t := given.dcFill l (if excl then .e else .s)
            { t with coh := { t.coh with d2h := s.coh.d2h.erase r, cacheInvalid := false } })) ∧
        (given.coh.dcVictim l = none → ∀ st', (given.dcFill l st').mem = given.mem ∧ (given.dcFill l st').out = given.out ∧
          (given.dcFill l st').coh.dc = mapPut s.coh.dc l st') ∧
        (∀ x, s.coh.d2h.find? (fun r => r.1 = l) = none → s.coh.curr.find? (fun x => x.2.1 = l && !x.2.2) = some x →
          exec (.hostCacheResponse hpa excl bs) s =
            .next (let got := s.coh.curr.map (fun y => if y = x then (x.1, l, true) else y)
              { given with coh := { given.coh with curr := got } }))) ∧
      (s.port.linkUp = true → s.port.ready = true → (s.fn 0).quiescing = false → s.removing = false → (s.fn 0).enabled = true →
        exec (.cacheEnable true) s = .next { s with coh := { s.coh with cacheEnable := true } } ∧
        (s.coh.dc = [] → s.coh.asks = false →
          exec (.cacheEnable false) s = .next { s with coh := { s.coh with cacheEnable := false } }) ∧
        ((s.coh.dc ≠ [] ∨ s.coh.asks = true) → exec (.cacheEnable false) s = .next (s.startWbi true)) ∧
        exec .cacheWbi s = .next (s.startWbi false)) ∧
      exec .gpfPhase1 s = .next (s.startWbi false) ∧
      (s.coh.wbi = true → s.coh.asks = false → s.port.frozen = false → s.port.linkUp = true →
        ∃ t, exec .cacheWbiDone s = .next t ∧ t.coh.dc = [] ∧ t.coh.wbi = false ∧ t.coh.cacheInvalid = true ∧
          t.coh.cacheEnable = (s.coh.cacheEnable && !s.coh.disableAfterWbi) ∧ t.mem = s.mem ∧ t.coh.dir = s.coh.dir ∧
          ∀ g, (t.core g).x = (s.core g).x ∧ (t.core g).pc = (s.core g).pc))

/-- The cache's ways and the carve are set by their registers where the rules allow, an ignored write is recorded; when the change
is done the carve is the one asked for; a decoder whose size is its window's commits, another reports Commit Error (R363 to
R366, R369). -/
def Obligations.CarveAndDecoders : Prop :=
  ∀ (s : State), s.port.linkUp = true → s.barOpen 0 = true → s.boot.state ≠ 3 →
    (∀ v : BitVec 32, bit v.toNat 8 = false → 1 ≤ bits v.toNat 3 0 → bits v.toNat 3 0 ≤ 8 →
      bits v.toNat 3 0 ≠ s.coh.ways.toNat →
      exec (.cohDcCfgWrite v) s = .next { s with coh :=
        if s.coh.cacheEnable then { s.coh with waysIgnored := true }
        else { s.coh with ways := BitVec.ofNat 4 (bits v.toNat 3 0) } }) ∧
    (∀ v : BitVec 32, let co := BitVec.ofNat 9 (bits v.toNat 8 0)
      let bu := BitVec.ofNat 9 (bits v.toNat 24 16)
      bit v.toNat 31 = false → (co ≠ s.coh.cohGib ∨ bu ≠ s.coh.bulkGib) →
      s.coh.hdmBusy = false → s.coh.dec0.committed = false → s.coh.dec1.committed = false → s.srv.main = none →
      s.srv.draft = none → s.srv.loading = none → (∀ x ∈ s.ctxs, x.2.valid = false) →
      (∀ r ∈ s.rings, r.2.st = .disabled ∨ (r.2.sqHdm = false ∧ r.2.cqHdm = false)) →
      1 ≤ co.toNat + bu.toNat → co.toNat + bu.toNat ≤ 256 → s.carveFree (co.toNat + bu.toNat) = true →
      exec (.cohHdmCfgWrite v) s = .next { s with coh := { s.coh with hdmBusy := true, newCoh := co, newBulk := bu } }) ∧
    (s.coh.hdmBusy = true →
      exec .carveChangeDone s =
        .next (s.remakeCarve { s.coh with cohGib := s.coh.newCoh, bulkGib := s.coh.newBulk, hdmBusy := false })) ∧
    (∀ (base size : BitVec 64), s.coh.hdmBusy = false → s.coh.cohGib ≠ 0 → size.toNat = s.coh.cohGib.toNat * 2 ^ 30 →
      exec (.decoderCommit 0 base size true) s = .next { s with coh := { s.coh with dec0 :=
        { committed := true, base := base.toNat, size := size.toNat, bi := true, commitError := false } } }) ∧
    (∀ (base size : BitVec 64) (bi : Bool), size.toNat ≠ s.coh.bulkGib.toNat * 2 ^ 30 →
      exec (.decoderCommit 1 base size bi) s = .next { s with coh := { s.coh with dec1 :=
        { committed := false, base := base.toNat, size := size.toNat, bi := bi, commitError := true } } })

/-! ### Rings (10) -/

/-- Doorbells and RESUME (R280, R286, R290, R291): TAIL is taken unless the ring is disabled or draining, and a ring in DOORBELL_AHEAD is
active and reads its slot again whatever the value; HEAD is taken; a stopped ring is active at the same head, and its slot is read again.
A ring is enabled from its first slot once its configuration is in range and its pages are translated, and is refused with
STOP_CAUSE 4 where the configuration is not or a page has no usable translation (R279, R281, R431).
A ring whose ENABLE is cleared drains: what is announced on an active ring is still read, packets it has read end as R282 gives, and it is
DISABLED once every announced packet is read and every completion is written. A packet that waits ends ABORTED, the operations that run to
completion go on, a GENERATE ends at the next boundary, and a RUN_PROGRAM ends as by CANCEL. -/
def Obligations.RingRegisters : Prop :=
  (∀ (f : FnId) (r : RingId) (v : BitVec 64) (s : State), s.port.linkUp = true → s.barOpen f = true →
      let x := s.ring f r
      (x.st ≠ .disabled → x.st ≠ .draining → exec (.sqDoorbell f r v) s = .next (s.setRing f r { x with
        tail := bits v.toNat 15 0 % x.sqSlots, st := if x.st = .doorbellAhead then .active else x.st,
        again := x.again || decide (x.st = .doorbellAhead) })) ∧
      ((x.st = .disabled ∨ x.st = .draining) → exec (.sqDoorbell f r v) s = .next s) ∧
      exec (.cqDoorbell f r v) s = .next (s.setRing f r { x with cqHead := bits v.toNat 15 0 }) ∧
      ((s.fn f).tdi ≠ .locked → (s.fn f).tdi ≠ .run → x.st = .stopped →
        exec (.resume f r) s = .next (s.setRing f r { x with st := .active, stopCause := 0, reread := .none, again := true }))) ∧
  ((∀ (f : FnId) (r : RingId) (s s2 : State), s.port.linkUp = true → s.barOpen f = true → (s.ring f r).st = .disabled →
        let x := s.ring f r
        let pages := (s.setRing f r { x with enable := true }).pairPages f r
        ((s.boot.state = 3 ∨ s.ringConfigOk f x = false) →
          exec (.ringEnable f r) s = .next (s.setRing f r { x with stopCause := 4, enable := false })) ∧
        (s.boot.state ≠ 3 → s.ringConfigOk f x = true →
          (pages = (some true, s2) → exec (.ringEnable f r) s = .next (s2.setRing f r { x with
            st := .active, stopCause := 0, enable := true, sqHead := 0, nextSeq := 0, sqPhase := true, tail := 0, cqHead := 0,
            cqNext := 0, cqPhase := true, reread := .none, pkts := [], held := [], again := false })) ∧
          (pages = (some false, s2) →
            exec (.ringEnable f r) s = .next (s2.setRing f r { x with stopCause := 4, enable := false })) ∧
          (pages = (none, s2) → exec (.ringEnable f r) s = .next s2))) ∧
    (∀ (f : FnId) (r : RingId) (s : State),
        let x := s.ring f r
        (s.port.linkUp = true → s.barOpen f = true → (s.fn f).tdi ≠ .locked → (s.fn f).tdi ≠ .run →
          (x.st = .disabled → exec (.ringDisable f r) s = .next (s.setRing f r { x with enable := false })) ∧
          (x.st ≠ .disabled → x.st ≠ .draining → exec (.ringDisable f r) s =
            .next ((x.pkts.filter (fun p => decide (p.phase ≠ .done))).foldl (fun t p => t.drainPkt f r p)
              (s.setRing f r { x with st := .draining, enable := false, reread := .none, again := false,
                                      tail := if x.st = .active then x.tail else x.sqHead })))) ∧
        (x.st = .draining → x.sqHead = x.tail → x.pkts = [] → x.held = [] →
          exec (.ringDrainDone f r) s = .next (s.setRing f r { x with st := .disabled })) ∧
        (∀ p : Pkt,
          (runsOn p.opcode = true → s.drainPkt f r p = s) ∧
          (runsOn p.opcode = false → (∀ slot, s.genOf f r p.seq = some slot → s.drainPkt f r p = s.markCancel slot) ∧
            (s.genOf f r p.seq = none → (∀ g, s.progOf f r p.seq = some g → s.drainPkt f r p = s.cancelProg g) ∧
              (s.progOf f r p.seq = none → (p.phase ≠ .running ∨ p.opcode = 0x30) →
                s.drainPkt f r p = s.finish f r p.seq stAborted []))))))

/-- The packet at the head of a ring whose turn it is is read and judged when it is sound; a ring that had its turn lets the others have theirs
first (R287). A stale phase and a torn packet are re-read, and the eighth miss of an active ring parks it in DOORBELL_AHEAD, or stops it with
cause 1 and a TORN completion (R286, R291, R292).
The judgement of a sound packet (R286): a wrong SEQ stops an active ring with cause 2 and answers BAD_PACKET; else the head passes
the packet, whose completion is produced at once where a check fails. -/
def Obligations.PacketsReadAndJudged : Prop :=
  (∀ (f : FnId) (r : RingId) (s s1 : State), s.ringReads f r = true →
      let x := s.ring f r
      let y := s1.ring f r
      let i := 64 * f.val + r.val
      let waits := s.srv.turned.contains i && s.turnDue i
      (x.reread = .none → waits = true → exec (.packetRead f r) s = .next s) ∧
      (x.reread = .none → waits = false →
        let head := (s.takeTurn i).readHead f r true
        (∀ bs, head = (.sound bs, s1) → exec (.packetRead f r) s = .next (s1.accept f r bs)) ∧
        (head = (.stale, s1) → exec (.packetRead f r) s = .next ((s1.reread f r).setRing f r { y with reread := .phase 0 })) ∧
        (∀ b, head = (.torn b, s1) →
          exec (.packetRead f r) s = .next ((s1.reread f r).setRing f r { y with reread := .torn 0 })) ∧
        (head = (.failed, s1) → exec (.packetRead f r) s = .next (s1.stopRing f r 3)) ∧
        (head = (.wait, s1) → exec (.packetRead f r) s = .next s1)) ∧
      (∀ n, x.reread = .phase n → s.readHead f r true = (.stale, s1) →
        (n < 7 → exec (.phaseReread f r) s =
          .next ((s1.reread f r).setRing f r { y.countReread with reread := .phase (n + 1) })) ∧
        (7 ≤ n → y.st = .active → exec (.phaseReread f r) s = .next ((s1.reread f r).setRing f r { y.countReread with
          reread := .none, again := false, st := .doorbellAhead,
          dbAhead := BitVec.ofNat 32 (satAdd 0xFFFF_FFFF y.countReread.dbAhead.toNat 1) }))) ∧
      (∀ n b, x.reread = .torn n → s.readHead f r false = (.torn b, s1) →
        (n < 7 → exec (.tornReread f r) s =
          .next ((s1.reread f r).setRing f r { y.countReread with reread := .torn (n + 1) })) ∧
        (7 ≤ n → y.st = .active → exec (.tornReread f r) s = .next (((s1.reread f r).setRing f r { y.countReread with
          reread := .none, again := false, st := .stopped, stopCause := 1 }).produce f r (tornCompletion y.countReread b)))) ∧
      (∀ n bs, (x.reread = .torn n → s.readHead f r false = (.sound bs, s1) →
          exec (.tornReread f r) s = .next ((s1.setRing f r y.countReread).accept f r bs)) ∧
        (x.reread = .phase n → s.readHead f r true = (.sound bs, s1) →
          exec (.phaseReread f r) s = .next ((s1.setRing f r y.countReread).accept f r bs)))) ∧
  (∀ (f : FnId) (r : RingId) (s : State) (bs : Bytes), (s.fn f).quiescing = false → (s.ring f r).st = .active →
      let x := s.ring f r
      let t := s.accept f r bs
      let seq := BitVec.ofNat 16 (fieldLe bs 4 4 / 2 ^ 16)
      (seq ≠ x.nextSeq → (t.ring f r).st = .stopped ∧ (t.ring f r).stopCause = 2 ∧ (t.ring f r).sqHead = x.sqHead ∧
        (t.ring f r).pkts = x.pkts ∧
        ∃ c, (t.ring f r).held = x.held ++ [c] ∧ c.status = 3 ∧ c.final = true ∧ c.seq = seq) ∧
      (seq = x.nextSeq → (t.ring f r).sqHead = (x.sqHead + fieldLe bs 2 1) % x.sqSlots ∧
        (t.ring f r).nextSeq = x.nextSeq + 1 ∧ (t.ring f r).st = x.st ∧ (t.ring f r).pkts.length = x.pkts.length + 1 ∧
        ((t.ring f r).held = x.held ∨ ∃ c, (t.ring f r).held = x.held ++ [c] ∧ c.final = true ∧ c.seq = seq)) ∧
      t.mem = s.mem ∧ t.cores = s.cores ∧ t.own = s.own ∧ t.flt = s.flt)

/-- A completion record whose ring has room and lies in ready HDM is written with the ring's phase and its duration, and the ring
goes to its next slot (R289, R290); a vector that is unmasked is masked no more and sends what was pending (R336). -/
def Obligations.CompletionsWritten : Prop :=
  ∀ (f : FnId) (r : RingId) (cycles : Nat) (s s1 : State) (c : Completion) (rest : List Completion),
    let x := s.ring f r
    let k := carvePa (x.cqBase.toNat + 32 * x.cqNext)
    (nextCompletion x.held = some (c, rest) → x.st ≠ .disabled → (x.cqNext + 1) % x.cqSlots ≠ x.cqHead → s.sends f = true →
      x.cqHdm = true → s.linesReady k 32 true = (true, s1) → s1.answers k = true → s1.mem.poison = [] → k % 64 ≤ 32 →
      k < 2 ^ 52 →
      ∃ t, exec (.completionWrite f r cycles) s = .next t ∧
        t.mem.read k 32 = c.record x.cqPhase (cycles * 5 / 8) ∧ (∀ j, j < k ∨ k + 32 ≤ j → t.mem.byte j = s1.mem.byte j) ∧
        (t.ring f r).held = rest ∧ (t.ring f r).cqNext = (x.cqNext + 1) % x.cqSlots ∧
        (t.ring f r).cqPhase = (if x.cqSlots ≤ x.cqNext + 1 then !x.cqPhase else x.cqPhase)) ∧
    (∀ v, v < 64 → ∃ t, exec (.msixUnmask f (some v)) s = .next t ∧
      (mapGet MsixEntry.reset (t.fn f).msix v).masked = false ∧ t.mem = s.mem ∧ t.cores = s.cores ∧ t.rings = s.rings)

/-! ### Packets (10): contexts, images, programs -/

/-- IDENTIFY writes the identity record at a translated function address and completes DONE; ATTACH_CONTEXT makes the context with
the tag, partition and granules chosen, or ends with the status that refuses it; DETACH_CONTEXT begins to drain the context, and
when nothing of it is left it is gone and the packet completes (R240, R295, R297, R298). -/
def Obligations.ContextPackets : Prop :=
  ∀ (f : FnId) (r : RingId) (q : PktSeq) (s : State) (p : Pkt),
    let t := s.begun f r q p
    (s.ready f r q 0x01 (fun _ => true) p = true → t.sends f = true → ∀ hpa s1,
      t.resolve (pktW f r q) none 0 f noPasid (p.field 16 8) false true = (.ok hpa, s1) →
      exec (.identify f r q) s = .next (s1.finishWith f r q 0 [] [(1, (s1.hostTgt hpa).key, s1.identity f)] false)) ∧
    (∀ (tag : BitVec 12) (part : Fin 64) (granules gs : List Nat), s.ready f r q 0x02 (fun _ => true) p = true →
      (∀ st, t.attachRefused f p = some st →
        exec (.attachContext f r q tag part granules) s = .next (t.finish f r q st [])) ∧
      (let own := p.field 24 8 / granuleBytes - (t.roGranules (p.field 24 8)).length;
        t.attachRefused f p = none → bit (p.byte 21) 0 = false → (t.ctx tag.toNat).valid = false →
        (t.ctx tag.toNat).draining = false → t.partFree part = true → t.hbmTaken + own * granuleBytes ≤ t.hbmServes →
        t.takeGranules granules own = some gs →
        (∀ h, h < 4 → t.rateSum h + (if p.byte 62 = 2 then 0 else p.field 58 2) ≤ 49152) →
        exec (.attachContext f r q tag part granules) s =
          .next (let u := t.attach f p tag.toNat part gs
            u.finish f r q 0 (natLe (tag.toNat + mapGet 0 u.ctxGens tag.toNat * 2 ^ 12) 4 ++ natLe part.val 1)))) ∧
    (s.ready f r q 0x03 (fun _ => true) p = true → (t.ctx p.ctx).draining = false →
      exec (.detachContext f r q) s = .next (t.startDetach p.ctx (some (f.val, r.val, q)))) ∧
    (∀ (tag : BitVec 12) (f' r' : Nat) (q' : BitVec 16), (s.ctx tag.toNat).valid = true → (s.ctx tag.toNat).draining = true →
      (s.ctx tag.toNat).detachBy = some (f', r', q') → s.detachReady tag.toNat = true →
      exec (.detachComplete tag) s = .next ((s.teardown tag.toNat).finish f' r' q'
          0 (res4 (s.ctx tag.toNat).aborted ++ res4 (s.ctx tag.toNat).closed)) ∧
        ((s.teardown tag.toNat).ctx tag.toNat).valid = false ∧
        ((s.teardown tag.toNat).sec.sessions.any (fun k => decide (k.2.ctx = tag.toNat))) = false)

/-- LOAD_MODEL checks the header it read and begins the load, or ends with the status that refuses it; LOAD_MODEL_COMPLETE
installs what verifies and completes DONE with the bytes used, or DENIED, or DEVICE_ERROR where a stack of it has failed; UNLOAD_MODEL of no image answers 0; of a quiet one it
closes the sequences, drops the image and answers 1 (R299, R300).
RUN_PROGRAM takes the core set and waits for a boundary; CANCEL ends the program that it names,
or the RUN_PROGRAM packet that has no program yet; PROGRAM_END completes a program
whose queues are quiet with the status and RESULT of its end and gives its cores back (R96, R304, R309). -/
def Obligations.ModelAndProgramPackets : Prop :=
  (∀ (f : FnId) (r : RingId) (q : PktSeq) (s s1 : State) (p : Pkt) (h : Bytes),
      let t := s.begun f r q p
      (∀ (im : ImageMeta) (granules : List Nat), s.ready f r q 0x10 (fun _ => true) p = true → t.standbyHolds = false →
        t.srv.loading = none → t.readBuf (pktW f r q) p.ctx (p.field 16 8) 4096 = (.data h, s1) →
        let gs := s1.takeGranules granules (imageGranules (fieldLe h 0x008 8))
        (∀ st, s1.loadRefused p h im gs = some st →
          exec (.loadModel f r q im granules) s = .next (s1.finish f r q st [])) ∧
        (s1.loadRefused p h im gs = none → ∃ l, exec (.loadModel f r q im granules) s =
            .next { s1 with srv := { s1.srv with loading := some l } } ∧
          l.f = f.val ∧ l.r = r.val ∧ l.q = q ∧ l.draft = decide (fieldLe h 0x006 1 = 1) ∧ l.src = p.field 16 8 ∧ l.header = h ∧
          l.bytes = p.field 24 8 ∧ l.params = sliceBytes p.bytes 64 64 ∧ l.granules = gs.getD [])) ∧
      (∀ (l : Load) (ds : List Bytes) (s2 : State), s.srv.loading = some l → (s.ring l.f l.r).pkt l.q = some p →
        s.readSections l p.ctx = (.data ds, s2) →
        let u : State := { s2 with srv := { s2.srv with loading := none } }
        (sha384 ds.flatten ≠ sliceBytes l.header 0x080 48 →
          exec .loadModelComplete s = .next ((u.finish l.f l.r l.q 6 []).boundaryPrograms)) ∧
        (sha384 ds.flatten = sliceBytes l.header 0x080 48 → l.granules.all s2.answers = false →
          exec .loadModelComplete s = .next ((u.finish l.f l.r l.q 9 []).boundaryPrograms)) ∧
        (sha384 ds.flatten = sliceBytes l.header 0x080 48 → l.granules.all s2.answers = true →
          exec .loadModelComplete s = .next (((u.install l ds).finish l.f l.r l.q 0
            (natLe (l.granules.length * granuleBytes + (if l.draft then 0 else fieldLe l.params 16 8)) 8)).boundaryPrograms))) ∧
      (s.ready f r q 0x11 (fun _ => true) p = true → t.standbyHolds = false →
        let draft := decide (p.byte 16 = 1)
        ((if draft then t.srv.draft else t.srv.main).isNone = true →
          exec (.unloadModel f r q) s = .next (t.finish f r q 0 [0])) ∧
        ((if draft then t.srv.draft else t.srv.main).isNone = false → t.srv.loading = none → t.srv.step = none →
          (∀ x ∈ t.srv.seqs, x.2.late = none) →
          let u := (t.srv.seqs.foldl (fun s x => s.closeSeq x.1) t).freeClosed
          (∀ x ∈ u.srv.programs, x.started = false) →
          exec (.unloadModel f r q) s = .next ((u.dropImage draft).finish f r q 0 [1])))) ∧
  (∀ (f : FnId) (r : RingId) (q : PktSeq) (s s1 : State) (p : Pkt),
      let t := s.begun f r q p
      (∀ bm, s.ready f r q 0x30 (fun _ => true) p = true → (t.progOf f r q).isSome = false → t.standbyHolds = false →
        p.field 32 8 ≠ 0 → t.readBuf (pktW f r q) p.ctx (p.field 32 8) 64 = (.data bm, s1) → coresOf bm ≠ [] →
        (coresOf bm).all s1.coreUp = true → s1.coreSetRefused (coresOf bm) = false →
        let g : Program :=
          { f := f, r := r, q := q, ctx := p.ctx, entry := BitVec.ofNat 64 (p.field 16 8), arg := BitVec.ofNat 64 (p.field 24 8),
            limit := p.field 40 8, buf := p.field 48 8, started := false,
            cores := (coresOf bm).map (fun g => { g := g, exited := false, code := 0, result := 0, calls := 0 }),
            ending := .running, fault := none, dies := [], silent := false }
        exec (.runProgram f r q) s = .next
          (State.boundaryPrograms ({ s1 with srv := { s1.srv with programs := s1.srv.programs ++ [g] } } : State))) ∧
      (s.ready f r q 0x23 (fun p => decide (p.byte 16 = 1)) p = true → t.standbyHolds = false →
        (∀ g, t.progOf f r (BitVec.ofNat 16 (p.field 24 2)) = some g →
          exec (.cancelProgram f r q) s = .next ((t.cancelProg g).finish f r q 0 [])) ∧
        (let n := BitVec.ofNat 16 (p.field 24 2);
          t.progOf f r n = none → exec (.cancelProgram f r q) s =
            .next ((if ((t.ring f r).pkt n).any (fun y => decide (y.opcode = 0x30)) then t.finish f r n stAborted [] else t).finish
              f r q 0 []))) ∧
      (∀ g, s.progOf f r q = some g → g.started = true → g.ending ≠ .running → g.silent = false → g.buf = 0 →
        (∀ c ∈ g.cores, ∀ i, i < 4 → (s.core c.g).queueQuiet i (decide (g.ending = .done)) = true) →
        (∀ c ∈ g.cores, (s.core c.g).sb = []) →
        exec (.programEnd f r q) s =
          .next ((s.releaseCores g).boundaryPrograms.ltr.finishWith f r q g.status g.result [] false)))

/-- PREFETCH, ADVISE, FLUSH and FENCE (R244, R310 to R313). -/
def Obligations.MemoryPackets : Prop :=
  ∀ (f : FnId) (r : RingId) (q : PktSeq) (s : State) (p : Pkt),
    let t := s.begun f r q p
    let c := t.ctx p.ctx
    (∀ m, m < 2 → s.ready f r q 0x40 (fun p => decide (p.byte 16 = m)) p = true →
      exec (if m = 0 then .prefetchTranslate f r q else .prefetchTranslateFaults f r q) s =
        .next (t.prefetch f r q p (decide (m = 1)))) ∧
    (s.ready f r q 0x40 (fun p => decide (p.byte 16 = 2)) p = true →
      exec (.prefetchCopy f r q) s = .next (State.copyEntries f r q p p.progress (p.field 32 8 - p.progress + 1) t) ∧
      (p.progress = p.field 32 8 → exec (.prefetchCopy f r q) s =
        .next (t.finish f r q 0 (natLe (p.field 32 8) 8 ++ natLe 0 8)))) ∧
    (s.ready f r q 0x41 (fun p => decide (p.byte 16 = 0)) p = true → c.advice.length < 64 →
      let a : Advice :=
        { start := BitVec.ofNat 64 (p.field 24 8), len := BitVec.ofNat 64 (p.field 32 8), preferHdm := bit (p.byte 17) 0,
          readMostly := bit (p.byte 17) 1 }
      exec (.adviseAdd f r q) s = .next ((t.setCtx p.ctx { c with advice := c.advice ++ [a] }).finish f r q 0 [])) ∧
    (s.ready f r q 0x41 (fun p => decide (p.byte 16 = 1)) p = true →
      exec (.adviseRemove f r q) s =
        .next ((t.setCtx p.ctx { c with advice := c.advice.filter (fun a => a.start.toNat ≠ p.field 24 8) }).finish f r q 0 [])) ∧
    (s.ready f r q 0x41 (fun p => decide (p.byte 16 = 2)) p = true →
      exec (.adviseClear f r q) s = .next ((t.setCtx p.ctx { c with advice := [] }).finish f r q 0 [])) ∧
    (s.ready f r q 0x42 (fun _ => true) p = true → t.storesDone p.ctx (bit (p.byte 16) 0) (bit (p.byte 16) 1) = true →
      (bit (p.byte 16) 2 = false → exec (.flush f r q) s = .next (t.finish f r q 0 [])) ∧
      (bit (p.byte 16) 2 = true → ∀ s1, t.flushRange (pktW f r q) p.ctx (p.field 24 8) (p.field 32 8) = (some true, s1) →
        exec (.flush f r q) s = .next (s1.finish f r q 0 []))) ∧
    (s.ready f r q 0x43 (fun p => decide (p.byte 16 = 0)) p = true →
      exec (.fenceRing f r q) s = .next (t.finish f r q 0 [])) ∧
    (s.ready f r q 0x43 (fun p => decide (p.byte 16 = 1)) p = true →
      (t.ringsOf f).any (fun x => decide (x.1 ≠ r.val) && x.2.pkts.any (fun y =>
        decide (y.order < p.order) && decide (3 ≤ y.opcode) && decide (y.ctx = p.ctx))) = false →
      exec (.fenceContext f r q) s = .next (t.finish f r q 0 []))

/-- SEAL_SESSION (R315, R378 to R380, R390): what unwraps is installed under the next handle and DONE carries it; every refusal is
DENIED; a key that nothing uses is zeroised. -/
def Obligations.SealPackets : Prop :=
  ∀ (f : FnId) (r : RingId) (q : PktSeq) (s s1 : State) (p : Pkt) (bs pt : Bytes),
    let t := s.begun f r q p
    (s.ready f r q 0x60 (fun p => decide (p.byte 16 = 0)) p = true →
      (t.sec.eyepiece = true → exec (.sealSessionInstall f r q) s = .next (t.finish f r q 6 [])) ∧
      (t.sec.eyepiece = false → t.readBuf (pktW f r q) p.ctx (p.field 24 8) (p.field 32 2) = (.data bs, s1) →
        (s1.unwrap bs = none → exec (.sealSessionInstall f r q) s = .next (s1.finish f r q 6 [])) ∧
        (s1.unwrap bs = some (0, pt) → s1.sec.sessions.length < 65536 →
          exec (.sealSessionInstall f r q) s =
            .next (let d := s1.drawBytes 12
              let k : SessionKey := { ctx := p.ctx, key := sliceBytes pt 0 32, inst := d.1, high := 0, seen := [],
                                      counter := 1, epoch := 0 }
              let u : State := { d.2 with sec := { d.2.sec with nextHandle := s1.sec.nextHandle + 1 } }
              (u.useSession (some s1.sec.nextHandle) (some k)).finishMirrored f r q 0 (res4 s1.sec.nextHandle ++ d.1) [])) ∧
        (s1.unwrap bs = some (1, pt) →
          ∃ u, exec (.sealSessionInstall f r q) s = .next u ∧
            mapFind u.sec.imageKeys s1.sec.nextHandle = some (ImageKey.mk p.ctx (sliceBytes pt 0 32)
              (sliceBytes pt 32 48) (sliceBytes pt 80 97)) ∧
            u.sec.nextHandle = s1.sec.nextHandle + 1 ∧ u.mem = s1.mem ∧ u.sec.sessions = s1.sec.sessions))) ∧
    (s.ready f r q 0x60 (fun p => decide (p.byte 16 = 1)) p = true →
      (t.session (p.field 20 4)).any (fun k => decide (k.ctx = p.ctx)) = true →
      (∀ x ∈ t.srv.seqs, x.2.session ≠ some (p.field 20 4)) →
      exec (.sealSessionDestroy f r q) s =
        .next (({ t with sec := { t.sec with sessions := mapDel t.sec.sessions (p.field 20 4) } } : State).finishMirrored
          f r q 0 [] []))

/-- QUERY_STATISTICS (R166, R191, R280, R317): the record of the selector goes to the buffer, a short buffer gives NO_RESOURCE with the
size needed, a selector of the PF is DENIED elsewhere. -/
def Obligations.QueryPackets : Prop :=
  ∀ (f : FnId) (r : RingId) (q : PktSeq) (s : State) (p : Pkt),
    let t := s.begun f r q p
    (∀ i sel pfOnly rec, (i, sel, pfOnly, rec) ∈
        [(Instr.querySequenceCounts f r q, 0, false, (List.range 8).flatMap (fun i =>
            natLe ((t.seqsOf p.ctx).filter (fun x => x.2.st.code = i)).length 8)),
         (.querySequences f r q, 1, false, (t.seqsOf p.ctx).flatMap (fun x =>
            natLe (seqHandle x.1 x.2) 4 ++ natLe x.2.st.code 1 ++ [0, 0, 0] ++ natLe x.2.history.length 4 ++ natLe x.2.stored 4)),
         (.queryFinder f r q, 2, true, (List.range 16).flatMap (fun d => (t.finder d).record)),
         (.queryRegulators f r q, 3, false, (List.range 4).flatMap (fun h =>
            let x := mapGet Regulator.reset t.regulators (64 * h + (t.ctx p.ctx).part)
            natLe x.guaranteed 8 ++ natLe x.spare 8 ++ natLe x.heldWindows 8)),
         (.queryTranslationCaches f r q, 4, true, (List.range 4).flatMap (fun h =>
            natLe (mapGet 0 t.xlt.hits h) 8 ++ natLe (mapGet 0 t.xlt.misses h) 8)),
         (.queryRingCounts f r q, 5, false, (List.range 64).flatMap (fun i => natLe (t.ring f i).counts 8))] →
      s.ready f r q 0x71 (fun p => decide (p.byte 16 = sel)) p = true →
      (pfOnly = true → f.val ≠ 0 → exec i s = .next (t.finish f r q 6 [])) ∧
      (pfOnly = false ∨ f.val = 0 →
        (p.field 32 8 < rec.length → exec i s = .next (t.finish f r q 5 (natLe rec.length 8))) ∧
        (rec.length ≤ p.field 32 8 → ∀ ws s1, t.planBuf (pktW f r q) p.ctx (p.field 24 8) rec p.direct = (.ok ws, s1) →
          exec i s = .next (s1.finishWith f r q 0 (natLe rec.length 8) ws false))))

/-- DIAGNOSE (R318): TEST 0 copies bytes 24 to 39 of the packet into RESULT, TEST 1 copies the Night Log to BUF, and any other TEST
gives BAD_PACKET. -/
def Obligations.DiagnosePackets : Prop :=
  ∀ (f : FnId) (r : RingId) (q : PktSeq) (s : State) (p : Pkt),
    let t := s.begun f r q p
    (s.ready f r q 0x7E (fun p => decide (p.byte 16 = 0)) p = true →
      exec (.diagnoseEcho f r q) s = .next (t.finish f r q 0 (sliceBytes p.bytes 24 16))) ∧
    (s.ready f r q 0x7E (fun p => decide (p.byte 16 = 1)) p = true → ∀ ws s1,
      t.planBuf (pktW f r q) p.ctx (p.field 24 8) t.flt.dump p.direct = (.ok ws, s1) →
      exec (.diagnoseNightLog f r q) s = .next (s1.finishWith f r q 0 [] ws false)) ∧
    (p.opcode = 0x7E → p.byte 3 = 1 → 2 ≤ p.byte 16 → s.judge f p = some 3)

/-- A packet ends with exactly one final completion (R290): the completion is held for its ring, its TAG, SEQ and status those of
the packet and its end, and the packet is no longer one that may be carried out. -/
def Obligations.OneFinalCompletion : Prop :=
  ∀ (f : FnId) (r : RingId) (q : PktSeq) (s : State) (p : Pkt) (st : Nat) (res : Bytes),
    (s.ring f r).pkt q = some p → (s.fn f).quiescing = false → st < 256 →
      let t := s.finish f r q st res
      (∃ c, (t.ring f r).held = (s.ring f r).held ++ [c] ∧ c.final = true ∧ c.seq = p.seq ∧
        c.tag = BitVec.ofNat 16 p.tagField ∧ c.status = BitVec.ofNat 8 st ∧ c.result = sliceBytes res 0 16) ∧
      (t.ring f r).pkt q = none ∧ (t.ring f r).startable q = none ∧ t.mem = s.mem ∧ t.cores = s.cores

/-! ### Sequences (09) -/

/-- A sequence packet is applied at once when no step is in flight: the standby refuses it, a command that waits for its buffer
stays received, any other ends; what is then CLOSING is FREE (R250, R251, R255, R463). -/
def Obligations.SequenceCommands : Prop :=
  ∀ (f : FnId) (r : RingId) (q : PktSeq) (slot : BitVec 15) (pages : List Nat) (s : State) (p : Pkt) (i : Instr) (op n : Nat)
    (l : List Nat),
    (i, op, n, l) ∈ [(Instr.openSequence f r q slot, 0x20, slot.toNat, []), (.appendTokens f r q, 0x21, 0, []),
      (.generate f r q, 0x22, 0, []), (.cancelSequence f r q, 0x23, 0, []), (.closeSequence f r q, 0x24, 0, []),
      (.forkSequence f r q slot pages, 0x25, slot.toNat, pages), (.snapshotSequence f r q, 0x26, 0, []),
      (.restoreSequence f r q slot pages, 0x27, slot.toNat, pages)] →
    s.ready f r q op (fun p => decide (op ≠ 0x23) || decide (p.byte 16 = 0)) p = true →
    let t := s.begun f r q p
    t.genOf f r q = none → t.unhurried = true →
      (t.standbyHolds = true → exec i s = .next (t.finish f r q 6 [])) ∧
      (t.standbyHolds = false →
        let c : Recv := { f := f, r := r, q := q, slot := n, pages := l }
        let u := t.setRing f r ((t.ring f r).setPhase q .received)
        let a := ({ u with srv := { u.srv with received := [c] } } : State).applyCmd c
        (a.1 = true → exec i s = .next a.2.freeClosed) ∧
        (a.1 = false → exec i s =
          .next (({ a.2 with srv := { a.2.srv with received := a.2.srv.received.filter (· ≠ c) } } : State).freeClosed)))

/-- What a command that is applied leaves: an opened sequence is IDLE and empty, appended tokens extend the history and an IDLE
sequence enters PREFILL, a GENERATE decodes a sequence whose prompt is stored, CANCEL makes an active sequence IDLE with no
GENERATE and keeps only stored prompt tokens, CLOSE makes a sequence CLOSING with no GENERATE and no places, and its slot is FREE
with the boundary (log entry 114), and a fork shares the whole page sets of its parent (R251, R258, R262, R301 to R306). -/
def Obligations.SequenceEffects : Prop :=
  ∀ (s s1 : State) (c : Recv) (p : Pkt) (i : Image) (slot : Nat) (x : Sequence), s.srv.main = some i →
    (∀ mask bias k, s.srv.loading = none → s.freeSlot c.slot = some slot →
      let par := sliceBytes p.bytes 64 128
      paramsOk par i.vocab s.srv.draft.isSome = true → bit (p.byte 25) 0 = false →
      s.readLists (pktW c.f c.r c.q) p.ctx par none (BitVec.ofNat 64 (p.field 16 8)) i.vocab = (.ok mask bias k, s1) →
      (s.applyOpen c p).1 = false ∧ ∃ y, (s.applyOpen c p).2.seq slot = some y ∧ y.st = .idle ∧ y.history = [] ∧ y.stored = 0 ∧
        y.ctx = p.ctx ∧ y.params = par ∧ y.mask = mask ∧ y.bias = bias ∧ y.generate = none ∧ y.pages = [] ∧ y.ring = none ∧
        y.tables = none ∧ y.draftKv = KvPlaces.none) ∧
    (∀ bs k, s.seqOf p.ctx (p.field 16 4) = some (slot, x) → x.st ≠ .closing → x.st ≠ .decode → x.st ≠ .failed →
      s.readList (pktW c.f c.r c.q) p.ctx (p.field 24 8) (4 * p.field 20 4) (x.session.bind s.session) 1
        (natLe x.seqId.toNat 8) x.history.length = (.data bs k, s1) →
      let toks := (List.range (p.field 20 4)).map (fun j => fieldLe bs (4 * j) 4)
      (∀ t ∈ toks, t < i.vocab) → x.history.length + p.field 20 4 ≤ i.maxContext →
      (s.applyAppend c p).1 = false ∧ ∃ y, (s.applyAppend c p).2.seq slot = some y ∧ y.history = x.history ++ toks ∧
        y.stored = x.stored ∧ y.pages = x.pages ∧ y.st = if x.st = .idle then .prefill else x.st) ∧
    (s.seqOf p.ctx (p.field 16 4) = some (slot, x) → x.st = .idle → x.generate = none → x.history ≠ [] →
      bit (p.byte 20) 0 = false → paramsOk x.params i.vocab s.srv.draft.isSome = true →
      (if x.session.isSome then 9 else 1) * pMaxNew x.params ≤ p.field 32 4 → x.history.length ≠ i.maxContext →
      (s.applyGenerate c p).1 = false ∧ ∃ y g, (s.applyGenerate c p).2.seq slot = some y ∧ y.generate = some g ∧
        g.f = c.f ∧ g.r = c.r ∧ g.q = c.q ∧ g.out = p.field 24 8 ∧ g.emitted = 0 ∧ y.history = x.history ∧
        y.st = if x.history.length ≤ x.stored + 1 then .decode else .prefill) ∧
    (s.seqOf p.ctx (p.field 20 4) = some (slot, x) → x.st ≠ .closing →
      (s.applyCancel c p).1 = false ∧ ∃ y, (s.applyCancel c p).2.seq slot = some y ∧ y.generate = none ∧
        y.st = (if x.st = .prefill ∨ x.st = .decode then .idle else x.st) ∧ y.stored = x.stored ∧ y.pages = x.pages ∧
        y.history = if x.st = .prefill then x.history.take x.stored else x.history) ∧
    (s.seqOf p.ctx (p.field 16 4) = some (slot, x) → x.st ≠ .closing →
      (s.applyClose c p).1 = false ∧ (∃ y, (s.applyClose c p).2.seq slot = some y ∧ y.st = .closing ∧ y.generate = none ∧
        y.pages = [] ∧ y.ring = none ∧ y.tables = none ∧ y.draftKv = KvPlaces.none ∧ y.late = none) ∧
      (s.applyClose c p).2.freeClosed.seq slot = none) ∧
    (∀ child k kd l m u v, s.seqOf p.ctx (p.field 16 4) = some (slot, x) → x.st = .idle → s.freeSlot c.slot = some child →
      s.forkKv x false c.pages = some (k, l, u) → u.forkKv x true l = some (kd, m, v) →
      (s.applyFork c p).1 = false ∧ ∃ y, (s.applyFork c p).2.seq child = some y ∧ y.st = .idle ∧ y.history = x.history ∧
        y.stored = x.stored ∧ y.kv false = k ∧ y.kv true = kd ∧ y.seqId = BitVec.ofNat 64 (p.field 24 8) ∧
        y.prio = bits (p.byte 32) 1 0 ∧ y.generate = none ∧ y.params = x.params ∧ y.home = x.home) ∧
    (∀ draft avail k l u, (s.kvImage draft).isSome = true → s.forkKv x draft avail = some (k, l, u) →
      k.pages.take (x.stored / 256) = (x.kv draft).pages.take (x.stored / 256) ∧ u.srv.seqs = s.srv.seqs ∧
      (x.stored % 256 = 0 → k.pages = (x.kv draft).pages.take (x.stored / 256)))

/-- The bytes of a snapshot give back what it was taken from: magic, digest, SEQ_ID, n, s, flags, parameter block, key and every
token, in whole 64 B units (R307). -/
def Obligations.SnapshotLayout : Prop :=
  ∀ (s : State) (i : Image) (x : Sequence), x.history.length < 2 ^ 32 → x.stored < 2 ^ 32 → x.prio < 4 →
    x.params.length = 128 → x.key.length = 16 → (∀ t ∈ x.history, t < 2 ^ 32) →
    let b := s.snapshot i x false
    fieldLe b 0 4 = 0x534E_5A41 ∧ sliceBytes b 4 48 = sliceBytes i.digest 0 48 ∧ fieldLe b 52 8 = x.seqId.toNat ∧
      fieldLe b 60 4 = x.history.length ∧ fieldLe b 64 4 = x.stored ∧ bits (fieldLe b 68 1) 1 0 = x.prio ∧
      bit (fieldLe b 68 1) 2 = false ∧ bit (fieldLe b 68 1) 3 = !x.keyRng ∧ bit (fieldLe b 68 1) 4 = x.session.isSome ∧
      sliceBytes b 72 128 = x.params ∧ (x.keyRng = false → sliceBytes b 200 16 = x.key) ∧
      (∀ j t, x.history[j]? = some t → fieldLe b (512 + 4 * j) 4 = t) ∧ b.length % 64 = 0 ∧ 512 ≤ b.length

/-- STEP_BOUNDARY forms a batch when no step runs; the sampler rows record what the sampler gives from the logits, which with
deterministic mode on are those of the image and the tokens (R57) and else the command's; STEP_COMMIT commits when every
sampling row is sampled, splits an overflowing batch in halves with a boundary before each, and runs a failed batch once more
before its sequences fail (R254 to R258, R268, R275, R276). -/
def Obligations.StepCommands : Prop :=
  ∀ (s : State) (slot : BitVec 15) (logits : Words32) (st : Step) (row : BatchRow) (o : StepOut) (x : Sequence) (i : Image),
    (∀ pages, (s.srv.step = none → let t := s.boundary.boundaryPrograms
        t.srv.main = some i → t.wholeProgram = false → t.standbyHolds = false → t.port.frozen = false →
        exec (.stepBoundary pages) s =
          .next ((t.form i pages).s.promotePages.startStep (t.form i pages).batch [])) ∧
      (s.srv.step ≠ none → exec (.stepBoundary pages) s = .next s)) ∧
    (s.stepRow slot.toNat = some (st, row, o) → s.seq slot.toNat = some x → o.sampled = false →
      (let lg := s.logitsOf true (x.history ++ o.drafts.map (·.1)) logits
       s.rowOk lg = true → rowNan lg = false → o.draftsEnd = false → o.drafts.length < row.d →
        exec (.draftSample slot logits) s = .next (s.putOut st
          (match (x.sampleIn (o.drafts.map (·.1))).propose lg (x.history.length + o.drafts.length) with
           | some d => { o with drafts := o.drafts ++ [d] }
           | none => { o with draftsEnd := true }))) ∧
      (let lg := s.logitsOf false x.history logits
       s.rowOk lg = true → row.samples = true → row.d = 0 →
        (rowNan lg = false → exec (.sample slot logits) s = .next (s.putOut st
          (match (x.sampleIn []).token lg x.history.length with
           | some e => { o with sampled := true, emits := [e] }
           | none => { o with sampled := true, maskEmpty := true }))) ∧
        (rowNan lg = true → exec (.sample slot logits) s = .next (s.putOut st { o with sampled := true, nan := true }))) ∧
      (∀ given, let rows := s.verifyLogits x o given
        row.samples = true → 0 < row.d → (o.draftsEnd = true ∨ o.drafts.length = row.d) →
        rows.length = o.drafts.length + 1 → rows.all s.rowOk = true →
        (rows.any rowNan = false → exec (.verifyDrafts slot given) s = .next (s.putOut st
          (let v := verifyAll x.sampleIn x.history.length o.drafts rows []
           { o with sampled := true, emits := v.1, maskEmpty := v.2 }))) ∧
        (rows.any rowNan = true →
          exec (.verifyDrafts slot given) s = .next (s.putOut st { o with sampled := true, nan := true })))) ∧
    (∀ draft toks, (s.boot.deterministic = false → s.logitsOf draft toks logits = logits) ∧
      (s.boot.deterministic = true → (if draft then s.srv.draft else s.srv.main) = some i →
        s.logitsOf draft toks logits = (List.range i.vocab).map (fun t => Config.logit i.digest toks t))) ∧
    (s.srv.step = some st →
      ((∀ y ∈ st.batch, y.samples = true → ∃ z ∈ st.outs, z.slot = y.slot ∧ z.sampled = true) →
        exec (.stepCommit .none) s = .next ((s.commitAll st).endStep st.rest)) ∧
      (let u := ({ s with srv := { s.srv with step := none } } : State).boundary
        let b := (halves st.batch).1.filter u.rowStands
        b ≠ [] → ∃ t n, exec (.stepCommit .overflow) s = .next t ∧ t.srv.stepNo = u.srv.stepNo + 1 ∧
          t.srv.step = some n ∧ n.batch = b ∧ n.outs = [] ∧ n.rest = (halves st.batch).2 :: st.rest) ∧
      (∀ k, st.rerun = false → ∃ t, exec (.stepCommit (.error k)) s = .next t ∧
        t.srv.step = some { st with outs := [], rerun := true } ∧ t.srv.seqs = s.srv.seqs) ∧
      (st.rerun = true → exec (.stepCommit (.error none)) s =
        .next ((st.batch.foldl (fun s r => s.failSeq r.slot 7) s).endStep st.rest)))

/-! ### Power and bring-up (14, 12, 18) -/

/-- What the power manager makes of a report on a rail, a sensor, a comparator, a droop, a voltage, a Shutter wave, a regulator, the
reference clock and the input: a lost rail counts at its rated maximum until its second report in succession (R397); 5 °C above
the threshold a die's Louvre goes to 8 (R417); a trip closes its island's Shutter and enters the Portcullis (R418); a droop
stretches its cluster's clock and is counted (R413); a rise of a clock takes effect at its voltage (R403); at most eight Shutters
open in a wave (R419); a regulator's UV, OV or OC switches its rail off (R483); the input's bounds (R480, R486, R495). A report
from a rail without power changes nothing.
A write of PWR_CAP sets the host cap within 1,200 to 3,300 W and clears CLAMPED and UPDATED where it writes 1, and what follows a
changed effective cap follows (R399, R401); a write of PWR_MODE sets its fields, REP_STEP only with REP_AUTO 0 (R408); in FAILED
neither has an effect (R431). Each sideband request is answered with its tag and status: NOT_READY before firmware but for
SET_CAP, whose cap is then held, BAD_REQUEST for a nonzero reserved byte, else OK with its results; without HB0.S nothing is
answered (R432, R488 to R490). -/
def Obligations.PowerReportsAndSettings : Prop :=
  (∀ (s : State),
      (∀ (rail : RailId) (mw : Nat), let x := s.pwr.rail rail
        (s.railOn rail = false → exec (.railReport rail mw) s = .next s ∧ exec (.telemetryTimeout rail) s = .next s) ∧
        (s.railOn rail = true →
          exec (.railReport rail mw) s = .next (s.setRail rail
            (if x.lost = true ∧ x.good = 0 then { mw := mw, lost := true, good := 1 } else { mw := mw, lost := false, good := 0 })) ∧
          (x.lost = true → exec (.telemetryTimeout rail) s = .next (s.setRail rail { mw := x.mw, lost := true, good := 0 })) ∧
          (x.lost = false → exec (.telemetryTimeout rail) s =
            .next ((s.setRail rail { mw := x.mw, lost := true, good := 0 }).report
              (event 21 (if rail.val < 100 then unitIsland rail else unitNone) 0))) ∧
          ∀ m g, (s.setRail rail { mw := m, lost := true, good := g }).railMw rail = ratedMw rail)) ∧
      (∀ (r : RailId) (temp : Int) (alert : Bool),
        let t : State := { s with pwr := { s.pwr with
          sensors := mapPut s.pwr.sensors r temp,
          alerts := if 100 ≤ r.val then (if alert then setAdd s.pwr.alerts (r - 100) else setDel s.pwr.alerts (r - 100))
                    else s.pwr.alerts } }
        let d := if r.val < 64 then r.val / 4 else r.val - 64
        (s.railOn r = false → exec (.sensorRead r temp alert) s = .next s) ∧
        (s.railOn r = true → (80 ≤ r.val ∨ temp < s.pwr.throttleAt + 5) → exec (.sensorRead r temp alert) s = .next t) ∧
        (s.railOn r = true → r.val < 80 → s.pwr.throttleAt + 5 ≤ temp → ∃ u, exec (.sensorRead r temp alert) s = .next u ∧
          u.diePwr d = { s.diePwr d with louvre := (s.diePwr d).louvre.map (min 8), thermLouvre := min 8 (s.diePwr d).thermLouvre } ∧
          u.pwr.sensors = t.pwr.sensors ∧ u.pwr.alerts = t.pwr.alerts ∧ u.pwr.louvreSeen = true ∧ u.mem = s.mem ∧ u.cores = s.cores)) ∧
      (∀ (i : IslandId) (temp : Int), (s.open i = false → exec (.thermalTrip i temp) s = .next s) ∧
        (s.open i = true → s.wkt.busy = none →
          let u := if i.val < 80 then s.setDie (if i.val < 64 then i.val / 4 else i.val - 64)
              { s.diePwr (if i.val < 64 then i.val / 4 else i.val - 64) with tripped := true } else s
          let v := ((if i.val = 84 then u.stopAlv 2 else u).closeIsland i).report
            { event 19 (unitIsland i) 0 with detail := BitVec.ofInt 64 temp }
          (s.islandOut i = true → exec (.thermalTrip i temp) s = .next v) ∧
          (s.islandOut i = false → exec (.thermalTrip i temp) s =
            .next (State.enterPc { v with boot := { v.boot with noShutters := true } } 4))) ∧
        (s.open i = true → s.islandOut i = false →
          ∃ t, exec (.thermalTrip i temp) s = .next t ∧ t.open i = false ∧ t.boot.noShutters = true ∧ t.port.frozen = true ∧
            bit t.port.causeSeen.toNat 3 = true)) ∧
      (∀ (d : DieId) (k : Fin 4), let cl := 4 * d.val + k.val
        (mapFind (s.diePwr d).wants k = none → exec (.voltageReached d k) s = .next s) ∧
        (∀ n, mapFind (s.diePwr d).wants k = some n → exec (.voltageReached d k) s = .next (s.setDie d
          { s.diePwr d with steps := (s.diePwr d).steps.set k n, wants := mapDel (s.diePwr d).wants k })) ∧
        ((s.open cl = false ∨ s.pwr.stretched.contains cl = true) → exec (.droopDetect d k) s = .next s) ∧
        (s.open cl = true → s.pwr.stretched.contains cl = false → exec (.droopDetect d k) s =
          .next (State.report { s with pwr := { s.pwr with stretched := setAdd s.pwr.stretched cl,
                                                           droop := BitVec.ofNat 16 (min 0xFFFF (s.pwr.droop.toNat + 1)) } }
            (event 20 (unitCluster d k) 0))) ∧
        exec (.droopRecover d k) s = .next { s with pwr := { s.pwr with stretched := setDel s.pwr.stretched cl } }) ∧
      ((s.boot.powered = true → s.boot.noShutters = false → s.open 84 = true → exec .shutterWave s =
          .next { s with boot := { s.boot with islandsOpen := (s.boot.shutterQueue.take 8).foldl setAdd s.boot.islandsOpen,
                                               shutterQueue := s.boot.shutterQueue.drop 8 } }) ∧
        ((s.boot.powered = false ∨ s.boot.noShutters = true ∨ s.open 84 = false) → exec .shutterWave s = .next s)) ∧
      (∀ (rail : RailId) (word : BitVec 32), let r := rail.val
        let u := s.report (event 22 (if r < 100 then unitIsland r else unitNone) word.toNat)
        (s.railOn r = false → exec (.regFail rail word) s = .next s) ∧
        (s.railOn r = true → bits word.toNat 2 0 = 0 → exec (.regFail rail word) s = .next u) ∧
        (s.railOn r = true → bits word.toNat 2 0 ≠ 0 →
          (r < 100 → exec (.regFail rail word) s = .next ((if r = 84 then u.stopAlv 2 else u).closeIsland r)) ∧
          (100 ≤ r → exec (.regFail rail word) s = .next { u with
            mem := u.mem.zero (hbmPa (r - 100) 0) (2 ^ 36)
            boot := { u.boot with stackFailed := setAdd u.boot.stackFailed (r - 100) } }) ∧
          ∀ t, exec (.regFail rail word) s = .next t → t.railOn r = false)) ∧
      ((s.open 84 = false → exec .refclkLoss s = .next s) ∧
        (s.open 84 = true → s.boot.fwRunning = false → exec .refclkLoss s = .next { s with boot := { s.boot with romStopped := true } }) ∧
        (s.open 84 = true → s.boot.fwRunning = true → exec .refclkLoss s = .next (s.report (event 22 (unitIsland 84) 16)))) ∧
      (∀ mv, ((mv < 36000 ∨ 64000 < mv) → exec (.inputVoltageWarn mv) s = .next s.powerOff) ∧
        (40000 ≤ mv → mv ≤ 60000 → exec (.inputVoltageWarn mv) s = .next s) ∧
        ((36000 ≤ mv ∧ mv < 40000 ∨ 60000 < mv ∧ mv ≤ 64000) →
          (s.open 84 = true → exec (.inputVoltageWarn mv) s = .next (s.report (event 21 unitNone mv))) ∧
          (s.open 84 = false → exec (.inputVoltageWarn mv) s = .next s))) ∧
      exec .powerRemoved s = .next s.powerOff ∧ s.powerOff.boot.powered = false ∧ s.powerOff.boot.islandsOpen = []) ∧
  (∀ (s : State),
      (∀ (v : BitVec 64), s.port.linkUp = true → s.barOpen 0 = true →
        (s.boot.state = 3 → exec (.pwrCapWrite v) s = .next s ∧ exec (.pwrModeWrite v) s = .next s) ∧
        (s.boot.state ≠ 3 →
          exec (.pwrCapWrite v) s = .next (({ s with pwr := { s.pwr with
            hostW := max 1200 (min 3300 (bits v.toNat 31 16)), clamped := s.pwr.clamped && !bit v.toNat 48,
            updated := s.pwr.updated && !bit v.toNat 49 } } : State).capChanged s.pwr.cap) ∧
          exec (.pwrModeWrite v) s = .next { s with pwr := { s.pwr with
            varMode := bit v.toNat 0, repAuto := bit v.toNat 1, hostHints := bit v.toNat 2, imageHints := bit v.toNat 3,
            repStep := if bit v.toNat 1 then s.pwr.repStep else bits v.toNat 14 8 } })) ∧
      (∀ old, (s.pwr.cap = old → s.capChanged old = s) ∧
        (s.pwr.cap ≠ old → (s.capChanged old).pwr.updated = true ∧
          (s.capChanged old).pwr.capChanges.toNat = min 0xFFFF (s.pwr.capChanges.toNat + 1) ∧
          (s.capChanged old).pwr.repStep = (if s.pwr.repAuto then repStepOf s.pwr.cap else s.pwr.repStep)) ∧
        (s.capChanged old).pwr.hostW = s.pwr.hostW ∧ (s.capChanged old).pwr.packageW = s.pwr.packageW ∧
        (s.capChanged old).pwr.clamped = s.pwr.clamped ∧ (s.capChanged old).mem = s.mem ∧ (s.capChanged old).cores = s.cores) ∧
      (∀ w, (w ≠ 0 → (s.setPackageCap w).pwr.packageW = max 1200 (min 3300 w) ∧
          (s.setPackageCap w).pwr.clamped = (s.pwr.clamped || decide (w < 1200 ∨ 3300 < w)) ∧ (s.setPackageCap w).mem = s.mem) ∧
        s.setPackageCap 0 = s) ∧
      (∀ (tag b2 b3 first count : BitVec 8) (w : BitVec 16),
        let rows : List (Instr × Nat) := [(.setCap tag b2 b3 w, 1), (.getStatus tag b2 b3, 2),
          (.readNightLog tag b2 b3 first count, 3), (.getThermal tag b2 b3, 4)]
        (∀ i n, (i, n) ∈ rows →
          ((s.boot.powered = false ∨ s.open 84 = false) → exec i s = .next s) ∧
          (s.boot.powered = true → s.open 84 = true →
            (s.boot.fwRunning = false → n ≠ 1 → exec i s = .next (s.send (.sideband [BitVec.ofNat 8 (0x80 + n), tag, 1, 0]))) ∧
            ((s.boot.fwRunning = true ∨ n = 1) → (b2 ≠ 0 ∨ b3 ≠ 0) →
              exec i s = .next (s.send (.sideband [BitVec.ofNat 8 (0x80 + n), tag, 2, 0]))))) ∧
        (s.boot.powered = true → s.open 84 = true → b2 = 0 → b3 = 0 →
          (s.boot.fwRunning = false → w ≠ 0 → exec (.setCap tag b2 b3 w) s =
            .next (({ s with pwr := { s.pwr with heldCap := some w.toNat } } : State).send
              (.sideband ([0x81, tag, 0, 0] ++ natLe s.pwr.cap 2)))) ∧
          (s.boot.fwRunning = false → w = 0 → exec (.setCap tag b2 b3 w) s =
            .next (s.send (.sideband ([0x81, tag, 0, 0] ++ natLe s.pwr.cap 2)))) ∧
          (s.boot.fwRunning = true →
            exec (.setCap tag b2 b3 w) s = .next ((s.setPackageCap w.toNat).send
              (.sideband ([0x81, tag, 0, 0] ++ natLe (s.setPackageCap w.toNat).pwr.cap 2))) ∧
            exec (.getStatus tag b2 b3) s = .next (s.send (.sideband ([0x82, tag, 0, 0] ++ (natLe s.flt.status 8 ++ natLe s.flt.alv 8 ++
              natLe s.pwrStatus 8 ++ natLe s.devBringup 8)))) ∧
            (first.toNat < 64 → 0 < count.toNat → count.toNat ≤ 16 →
              exec (.readNightLog tag b2 b3 first count) s = .next (s.send (.sideband ([0x83, tag, 0, 0] ++ (natLe s.flt.nlStatus 8 ++
                (List.range count.toNat).flatMap (fun i => s.flt.slot ((first.toNat + i) % 64))))))) ∧
            ((64 ≤ first.toNat ∨ count = 0 ∨ 16 < count.toNat) →
              exec (.readNightLog tag b2 b3 first count) s = .next (s.send (.sideband [0x83, tag, 2, 0]))) ∧
            exec (.getThermal tag b2 b3) s = .next (s.send (.sideband ([0x84, tag, 0, 0] ++
              ((List.range 16).map (fun d => if s.dieUp d then tempByte (s.pwr.hottest (dieIslands d)) else 0x80) ++
               (List.range 4).map (fun h => tempByte (s.pwr.hottest (hubIslands h))) ++
               (List.range 12).map (fun n => if s.boot.stackFailed.contains n then 0x80 else tempByte (s.pwr.temp (100 + n)))))))))))

/-- The steering of power (R398, R404, R405, R409, R410, R414, R415): a period puts the mode and the common clock in force and gives
every die in service a share between its floor and its ceiling, or an equal part of a budget below all floors; the Louvres move by
their rules between 4 and 32; hints and phase marks. -/
def Obligations.PowerSteering : Prop :=
  ∀ (s : State),
    (∀ waits, s.steers = true → ∃ t, exec (.heliostatPeriod waits) s = .next t ∧ t.pwr.variableActive = s.pwr.varMode ∧
      t.pwr.repStepActive = min 80 (if s.pwr.repAuto then repStepOf s.pwr.cap else s.pwr.repStep) ∧ t.pwr.fixedMw = s.fixedNow ∧
      t.mem = s.mem ∧ t.cores = s.cores ∧
      (∀ d ∈ s.diesIn,
        let b : Rat := (s.pwr.cap : Rat) - (s.fixedNow : Rat) / 1000 - s.pwr.margin
        let n : Rat := s.diesIn.length
        (b < s.pwr.floor * n → (t.diePwr d).share = max b 0 / n) ∧
        (¬ b < s.pwr.floor * n → (s.pwr.floor : Rat) ≤ (t.diePwr d).share ∧ (t.diePwr d).share ≤ s.pwr.ceil))) ∧
    (s.steers = true → s.pwr.variableActive = false →
      let lim := (s.pwr.cap - s.pwr.margin) * 1000
      let l := if lim < s.deviceMw then max 4 (s.pwr.commonLouvre - 1)
               else if s.deviceMw < lim then min 32 (s.pwr.commonLouvre + 1) else s.pwr.commonLouvre
      ∃ t, exec .repeatableLouvreTick s = .next t ∧ t.pwr.commonLouvre = l ∧ t.mem = s.mem ∧
        (∀ d ∈ s.diesIn, ∀ x ∈ (t.diePwr d).louvre, x ≤ l)) ∧
    (∀ (d : DieId), s.steers = true → s.pwr.variableActive = true → s.dieIn d = true →
      ∃ t, exec (.dieAgentTick d) s = .next t ∧ t.mem = s.mem ∧ (t.diePwr d).share = (s.diePwr d).share ∧
        ((s.dieMw d : Rat) < (s.diePwr d).share * 1000 → ∀ x ∈ (s.diePwr d).louvre, x ≤ 32 →
          ∃ y ∈ (t.diePwr d).louvre, y = min (min 32 (x + 1)) (s.thermStep d).thermLouvre) ∧
        ((s.diePwr d).share * 1000 < (s.dieMw d : Rat) → ∀ y ∈ (t.diePwr d).louvre, ∃ x ∈ (s.diePwr d).louvre, y ≤ max 4 x)) ∧
    (∀ (f : FnId) (r : RingId) (q : PktSeq) (p : Pkt) (i : Instr) (kind : Nat),
      (i, kind) ∈ [(Instr.powerHintHeavy f r q, 0), (.powerHintLight f r q, 1), (.powerHintClear f r q, 2)] →
      s.ready f r q 0x50 (fun p => decide (p.byte 16 = kind)) p = true →
      let t := s.begun f r q p
      let h : Hint := { kind := kind, lead := min 1000 (p.field 20 4), dur := max 1 (min 100000 (p.field 24 4)) }
      (t.pwr.variableActive = true → t.pwr.hostHints = true → exec i s =
        .next (({ t with pwr := { t.pwr with hint := if kind = 2 then none else some h } } : State).finish f r q 0 [])) ∧
      ((t.pwr.variableActive = false ∨ t.pwr.hostHints = false) → exec i s = .next (t.finish f r q 0 []))) ∧
    exec .hintExpiry s = .next { s with pwr := { s.pwr with hint := none } } ∧
    (∀ heavy, (s.pwr.variableActive = true → s.pwr.imageHints = true → s.srv.step ≠ none →
        exec (.phaseMark heavy) s = .next { s with pwr := { s.pwr with phaseHeavy := some heavy } }) ∧
      ((s.pwr.variableActive = false ∨ s.pwr.imageHints = false ∨ s.srv.step = none) → exec (.phaseMark heavy) s = .next s))

/-- The stages of bring-up (R370 to R373, R419, R423 to R432): each completes only in its turn; a failure before firmware stops the
boot ROM; a stack fails that does not train or has lost more pseudo-channels than its four spares cover (R449); B6 reports the state that the dies and stacks give, and only a state other than FAILED makes memory active. -/
def Obligations.BringUpStages : Prop :=
  ∀ (s : State),
    (s.atStage 0 = true → ∃ t, exec .stageB0 s = .next t ∧ t.open 84 = true ∧ t.boot.next = 1) ∧
    (s.atStage 1 = true → hubOrder.all s.open = true → ∃ t, exec .stageB1 s = .next t ∧ t.port.linkUp = true ∧ t.boot.next = 2) ∧
    (∀ ok ids, s.atStage 2 = true →
      let sound := ok && decide (ids.length = 12) &&
        (ids.zip ((List.range 4).flatMap hubPeers)).all (fun x => identityOk x.1 2 x.2)
      (sound = true → ∃ t, exec (.stageB2 ok ids) s = .next t ∧ t.boot.next = 3 ∧ t.boot.romStopped = false) ∧
      (sound = false → exec (.stageB2 ok ids) s = .next { s with boot := { s.boot with romStopped := true } })) ∧
    (∀ rec, s.atStage 3 = true →
      (∀ b, rec.secretsOk = true → rec.recordOk = true → bootBundle s rec = some b →
        ∃ t, exec (.stageB3 rec) s = .next t ∧ t.boot.fwRunning = true ∧ t.boot.fwVersion = b.version ∧ t.sec.fwDigest = b.digest ∧
          t.sec.svn = b.svn ∧ t.sec.keysReady = true ∧ t.flt.alvState = 1 ∧ t.flt.alvLevel = true ∧ t.pwr.heldCap = none ∧
          t.boot.next = 4) ∧
      ((rec.secretsOk = false ∨ rec.recordOk = false ∨ bootBundle s rec = none) →
        exec (.stageB3 rec) s = .next { s with boot := { s.boot with romStopped := true } })) ∧
    (∀ failed lost, s.atStage 4 = true →
      let gone (n : Nat) : List Nat := (mapGet [] s.wkt.pcs n ++ (lost.filter (fun p => p.1 = n)).map (·.2)).eraseDups
      ∃ t, exec (.stageB4 ⟨failed, lost⟩) s = .next t ∧ t.boot.next = 5 ∧
        (∀ n, n < 12 → mapGet [] t.wkt.pcs n = gone n ∧ t.boot.stackFailed.contains n =
          (s.boot.stackFailed.contains n || failed.contains n || decide (4 < (gone n).length)))) ∧
    (∀ res, s.atStage 5 = true → s.boot.shutterQueue = [] → ∃ t, exec (.stageB5 res) s = .next t ∧ t.boot.next = 6 ∧
      t.boot.fwRunning = s.boot.fwRunning ∧ t.mir = s.mir) ∧
    (∀ ms, s.atStage 6 = true → ∃ t, exec (.stageB6 ms) s = .next t ∧ t.boot.next = 7 ∧ t.boot.stage = 6 ∧
      t.boot.state = BitVec.ofNat 2 s.outcome ∧ t.coh.memoryActive = decide (s.outcome ≠ 3) ∧ t.port.ready = true ∧
      t.boot.timeMs = BitVec.ofNat 16 (min 65535 ms) ∧ t.sec.antiRollback.toNat = max s.sec.antiRollback.toNat s.sec.svn.toNat ∧
      t.mem = s.mem ∧ t.cores = s.cores) ∧
    (∀ (stage : Fin 7) (unit : Nat), s.atStage stage.val = true →
      (stage.val < 4 → exec (.stageBoundExpiry stage unit) s = .next { s with boot := { s.boot with romStopped := true } }) ∧
      (stage.val = 4 → 0x20 ≤ unit → unit < 0x2C → ∃ t, exec (.stageBoundExpiry stage unit) s = .next t ∧
        t.boot.stackFailed.contains (unit - 0x20) = true) ∧
      (stage.val = 5 → unit < 16 → ∃ t, exec (.stageBoundExpiry stage unit) s = .next t ∧
        t.wkt.heldOut.contains unit = true ∧ (s.wkt.heldOut.contains unit = false → t.wkt.dieOut.contains unit = true)))

/-- The anti-rollback counter (R373): whatever command is carried out it never falls; firmware that reaches readiness writes it up to
its SVN; no bundle with a lower SVN boots. -/
def Obligations.AntiRollbackNeverFalls : Prop :=
  (∀ s t : State, step s = .next t → s.sec.antiRollback.toNat ≤ t.sec.antiRollback.toNat) ∧
  (∀ (s : State) (ms : Nat), s.atStage 6 = true → s.outcome ≠ 3 → ∃ t, exec (.stageB6 ms) s = .next t ∧ t.port.ready = true ∧
    t.sec.antiRollback.toNat = max s.sec.antiRollback.toNat s.sec.svn.toNat) ∧
  (∀ (s t : State) (rec : BootRecord), s.boot.fwRunning = false → exec (.stageB3 rec) s = .next t → t.boot.fwRunning = true →
    s.sec.antiRollback.toNat ≤ t.sec.svn.toNat)

/-! ### The Coelostat pair (13) -/

/-- MIRROR_CONTROL (R316, R457, R458, R461 to R463): status; PAIR starts a handshake or binds one more context; UNPAIR; SET_MODE;
RESYNC on the primary alone; PROMOTE on a standby alone, which makes the bound sequences IDLE and raises its sessions' EPOCH. -/
def Obligations.MirrorCommands : Prop :=
  ∀ (f : FnId) (r : RingId) (q : PktSeq) (s : State) (p : Pkt),
    let t := s.begun f r q p
    let m := t.mir
    let here (op : Nat) : Prop := s.ready f r q 0x70 (fun p => decide (p.byte 16 = op)) p = true
    (here 0 → exec (.mirrorStatus f r q) s = .next (t.finish f r q 0 m.result)) ∧
    (here 1 → m.pairPkt ≠ some (f.val, r.val, q) →
      (m.st = .pairing → exec (.pair f r q) s = .next (t.finish f r q 1 [])) ∧
      (m.st = .unpaired → (t.peerTag p.ctx).isSome = false → m.peer = none →
        ∃ u, exec (.pair f r q) s = .next u ∧ u.mir.st = .pairing ∧ u.mir.role = decide (p.byte 18 = 1) ∧
          u.mir.pairPkt = some (f.val, r.val, q) ∧ u.mir.binds = [(p.ctx, p.field 20 2 % 2 ^ 12)] ∧ u.mir.nextSend = 1 ∧
          u.mem = t.mem ∧ u.srv = t.srv) ∧
      (m.linked = true → (t.peerTag p.ctx).isSome = false → m.binds.length < 64 →
        let u := t.bindCtx p.ctx (p.field 20 2 % 2 ^ 12)
        exec (.pair f r q) s = .next (u.finish f r q 0 (natLe u.mir.st.code 1)) ∧
          mapFind u.mir.binds p.ctx = some (p.field 20 2 % 2 ^ 12))) ∧
    (here 2 → ((t.peerTag p.ctx).isNone = true → exec (.unpair f r q) s = .next (t.finish f r q 6 [])) ∧
      ((t.peerTag p.ctx).isNone = false → m.st ≠ .pairing → m.binds = [(p.ctx, ((t.peerTag p.ctx).getD 0))] →
        ∃ u, exec (.unpair f r q) s = .next u ∧ u.mir.st = .unpaired ∧ u.mir.binds = [] ∧ u.mir.keyOut = [] ∧ u.mir.keyIn = [] ∧
          u.mir.async = m.async ∧ u.mir.winGib = m.winGib ∧ u.srv.seqs = t.srv.seqs)) ∧
    (here 3 → ∃ u, exec (.setMode f r q) s = .next u ∧ u.mir.async = decide (p.byte 17 = 1) ∧ u.mir.st = m.st ∧ u.srv.seqs = t.srv.seqs) ∧
    (here 4 → ((m.role = true ∨ m.linked = false) → exec (.resync f r q) s = .next (t.finish f r q 6 [])) ∧
      (m.role = false → m.linked = true → ∃ u, exec (.resync f r q) s = .next u ∧ u.mir.st = .resync ∧ u.srv.seqs = t.srv.seqs)) ∧
    (here 5 → ((m.role = false ∨ (m.st ≠ .mirroring ∧ m.st ≠ .broken)) → exec (.promote f r q) s = .next (t.finish f r q 6 [])) ∧
      (m.role = true → (m.st = .mirroring ∨ m.st = .broken) → ∃ u, exec (.promote f r q) s = .next u ∧ u.mir.st = .promoted ∧
        u.srv.seqs = t.srv.seqs.map (fun x => if (t.peerTag x.2.ctx).isSome then (x.1, x.2.takenOver t.srv.main) else x) ∧
        u.sec.sessions = t.sec.sessions.map (fun k =>
          if (t.peerTag k.2.ctx).isSome then (k.1, { k.2 with epoch := (k.2.epoch + 1) % 2 ^ 16 }) else k)))

/-- Journal frames (R457, R459 to R463): a frame out of order, with a wrong header or a failed tag changes nothing; one in order is
passed, and a standby applies it to a bound context; HELLO is kept until the pairing judges it; a bad FINISH signature ends the
pairing; ACK frees the window.
FINISH completes a pairing (R457): with a good signature and a shared secret z the two journal keys are the halves of the
derivation from both nonces, the pairing's PAIR packet is no longer waited for, and STATE is RESYNC. -/
def Obligations.MirrorFramesAndKeys : Prop :=
  (∀ (h : FrameHdr) (tagOk : Bool) (pl : JPayload) (avail : List Nat) (s : State),
      let rows (pl : JPayload) : List (Instr × Nat) :=
        [(.bind h tagOk pl, 3), (.commandFrame h tagOk pl, 4), (.sequenceFrame h tagOk pl, 5), (.kvFrame h tagOk pl avail, 6),
         (.samplerFrame h tagOk pl, 7), (.sessionFrame h tagOk pl, 8), (.commitFrame h tagOk pl, 9),
         (.resyncFrame h tagOk pl avail, 10), (.ack h tagOk pl, 11), (.takeover h tagOk pl, 12)]
      let passed : State := { s with mir := s.mir.took h }
      let tag := h.ctx.toNat % 2 ^ 12
      (∀ i typ, (i, typ) ∈ rows pl →
        (tagOk = false ∨ headerOk h typ = false ∨ h.fseq.toNat ≠ s.mir.nextRecv ∨ s.mir.linked = false ∨ s.mir.portUp = false) →
        exec i s = .next s) ∧
      (tagOk = true → h.fseq.toNat = s.mir.nextRecv → s.mir.linked = true → s.mir.portUp = true →
        (s.mir.role = true → (s.peerTag tag).isSome = true →
          (∀ slot m, headerOk h 5 = true → exec (.sequenceFrame h tagOk (.sequence slot m)) s = .next (passed.mirrorSeq tag slot.toNat m)) ∧
          (∀ slot key x, headerOk h 7 = true → s.seq slot.toNat = some x → x.ctx = tag →
            exec (.samplerFrame h tagOk (.sampler slot key)) s = .next (passed.putSeq slot.toNat { x with key := key })) ∧
          (∀ m, headerOk h 8 = true → exec (.sessionFrame h tagOk (.session m)) s = .next (passed.mirrorSession tag (.session m))) ∧
          (∀ slot x l, headerOk h 9 = true → s.seq slot.toNat = some x → x.ctx = tag → l ≠ [] →
            exec (.commitFrame h tagOk (.commit [(slot, l)])) s = .next (passed.putSeq slot.toNat
              { x with history := x.history ++ l, stored := x.history.length + l.length - 1 })) ∧
          (∀ slot ring page off data u, headerOk h 6 = true → passed.mirrorKv tag slot.toNat ring page off data avail = some u →
            exec (.kvFrame h tagOk (.kv slot ring page off data) avail) s = .next u) ∧
          (∀ b, headerOk h 4 = true → fieldLe b 0 1 ≠ 0x60 → exec (.commandFrame h tagOk (.command b)) s = .next passed) ∧
          (∀ slot m, headerOk h 10 = true → exec (.resyncFrame h tagOk (.sequence slot m) avail) s =
            .next ((passed.setMirSt .resync).mirrorSeq tag slot.toNat m))) ∧
        (∀ peer, headerOk h 3 = true → s.mir.role = true → s.mir.st ≠ .broken → (s.peerTag h.ctx.toNat).isSome = false →
          s.mir.binds.length < 64 → ∃ u, exec (.bind h tagOk (.bind peer)) s = .next u ∧
            mapFind u.mir.binds h.ctx.toNat = some peer.toNat ∧ u.mir.st = .resync ∧ u.srv = s.srv) ∧
        (∀ n, headerOk h 11 = true → s.mir.role = false → s.mir.queued = [] → s.mir.holds = [] →
          exec (.ack h tagOk (.ack n)) s = .next { s with mir := { s.mir.took h with
            acked := max s.mir.acked n.toNat, unacked := s.mir.unacked.filter (fun x => n.toNat < x.fseq) } }) ∧
        (headerOk h 12 = true → s.mir.role = false → ∃ u, exec (.takeover h tagOk pl) s = .next u ∧ u.mir.st = .unpaired ∧
          u.mir.binds = [])) ∧
      (∀ b, s.mir.portUp = true → headerOk h 1 = true → h.fseq = 0 → s.mir.nextRecv = 0 → s.mir.st = .unpaired →
        exec (.hello h b) s = .next { s with mir := { s.mir with peer := some b, nextRecv := 1, received := frameBytes h.length.toNat } }) ∧
      (∀ b, s.mir.peer = some b → s.mir.portUp = true → s.mir.st = .pairing → headerOk h 2 = true → h.fseq = 1 →
        s.mir.nextRecv = 1 → exec (.finish h false) s = .next s.pairFail ∧ s.pairFail.mir.st = .unpaired) ∧
      exec (.frameTagFailure h) s = .next s) ∧
  (∀ (h : FrameHdr) (s : State) (b : HelloBody) (z : Bytes), s.mir.peer = some b → s.mir.portUp = true → s.mir.st = .pairing →
      headerOk h 2 = true → h.fseq = 1 → s.mir.nextRecv = 1 → ecdhX s.mir.ephPriv b.ephPub = some z →
      let ks := if s.mir.role then journalKeys z b.nonce s.mir.nonce else journalKeys z s.mir.nonce b.nonce
      ∃ u, exec (.finish h true) s = .next u ∧ u.mir.st = .resync ∧ u.mir.pairPkt = none ∧ u.mir.nextRecv = 2 ∧
        u.mir.keyOut = (if s.mir.role then ks.2 else ks.1) ∧ u.mir.keyIn = (if s.mir.role then ks.1 else ks.2) ∧
        ks.1 ++ ks.2 = hkdf384 ((if s.mir.role then b.nonce else s.mir.nonce) ++ (if s.mir.role then s.mir.nonce else b.nonce)) z
          (ascii "AZG-JRNL-1") 64)

/-- The mirror's own events (R460 to R462, R494): the acknowledgement timer, resending from the first unacknowledged frame, the
silence that breaks a pairing, the end of a resynchronisation, an overrun, and the lanes that remain. -/
def Obligations.MirrorUpkeep : Prop :=
  ∀ (s : State),
    (s.mir.linked = true → s.mir.portUp = true → exec .ackTimer s =
      .next (s.sendFrame 11 ((s.mir.binds.head?.map (·.2)).getD 0) (.ack (BitVec.ofNat 64 (s.mir.nextRecv - 1))))) ∧
    (s.mir.role = false → s.mir.portUp = true → (s.mir.st = .resync ∨ s.mir.st = .mirroring) → s.mir.unacked ≠ [] →
      ∃ u, exec .journalResend s = .next u ∧ u.mir = s.mir ∧
        u.out = s.out ++ s.mir.unacked.map (fun x => OutMsg.frame x.typ x.tag x.fseq x.offset x.payload)) ∧
    ((s.mir.st = .resync ∨ s.mir.st = .mirroring) → ∃ u, exec .mirrorSilence s = .next u ∧ u.mir.st = .broken ∧
      u.mir.binds = s.mir.binds ∧ u.srv.seqs = s.srv.seqs) ∧
    (s.mir.st ≠ .resync → s.mir.st ≠ .mirroring → exec .mirrorSilence s = .next s) ∧
    (s.mir.st = .resync → (s.mir.role = true ∨ (s.mir.queued = [] ∧ ∀ x ∈ s.mir.unacked, x.typ ≠ 10)) →
      ∃ u, exec .resyncComplete s = .next u ∧ u.mir.st = .mirroring) ∧
    (s.mir.linked = true → ∃ u, exec .receiveWindowOverrun s = .next u ∧ u.mir = { s.mir with overrun := true }) ∧
    (∀ lane : Fin 4, ∃ u, exec (.laneLockLoss lane) s = .next u ∧ u.mir.lanesDown.contains lane.val = true ∧
      (u.mir.portUp = true ↔ s.mir.portUp = true ∧
        ((u.mir.lanesDown.contains 0 = false ∧ u.mir.lanesDown.contains 1 = false) ∨
         (u.mir.lanesDown.contains 2 = false ∧ u.mir.lanesDown.contains 3 = false))) ∧ u.mir.st = s.mir.st)

/-! ### The host endpoint (11) -/

/-- The Portcullis (R330, R343 to R345, R377): an entry freezes the port with its cause, a further cause is only noted; a clear is
refused while the link is bad or a cause 3 or 4 was seen, and otherwise lifts it and sends what was held. -/
def Obligations.PortcullisRules : Prop :=
  ∀ (s : State),
    (∀ cause, 1 ≤ cause → cause ≤ 5 →
      (s.enterPc cause).port.frozen = true ∧ bit (s.enterPc cause).port.causeSeen.toNat (cause - 1) = true ∧
      (s.port.frozen = true → (s.enterPc cause).port.cause = s.port.cause ∧ (s.enterPc cause).port.entries = s.port.entries) ∧
      (s.port.frozen = false → (s.enterPc cause).port.cause.toNat = cause ∧
        (s.enterPc cause).port.entries.toNat = min 0xFFFF (s.port.entries.toNat + 1) ∧
        ∀ f, ((s.fn f).tdi = .locked ∨ (s.fn f).tdi = .run) → ((s.enterPc cause).fn f).tdi = .error) ∧
      (s.enterPc cause).mem = s.mem ∧ (s.enterPc cause).cores = s.cores) ∧
    (s.port.linkUp = true →
      (∀ cleared, ∃ t, exec (.hostLinkError cleared) s = .next t ∧ t.port.frozen = true ∧ t.port.linkBad = !cleared ∧
        bit t.port.causeSeen.toNat 0 = true) ∧
      (∀ f, ∃ t, exec (.poisonedRequest f) s = .next t ∧ t.port.frozen = true ∧ bit t.port.causeSeen.toNat 1 = true ∧
        bit (t.fn f).aerUncor.toNat 12 = true)) ∧
    (s.port.linkUp = true → (s.port.ready = true ∨ s.port.frozen = true) → (s.fn 0).quiescing = false → s.removing = false →
      (s.fn 0).enabled = true →
      exec .pcForce s = .next (s.enterPc 5) ∧
      (s.port.frozen = false → exec .pcClear s = .next s) ∧
      (s.port.frozen = true → s.port.linkBad = false → bit s.port.causeSeen.toNat 2 = false → bit s.port.causeSeen.toNat 3 = false →
        ∃ t, exec .pcClear s = .next t ∧ t.port.frozen = false ∧ t.port.heldMsgs = [] ∧
          ∃ l, t.out = s.out ++ s.port.heldMsgs.map (fun m => match m with
            | some f => OutMsg.functionReady f
            | none => OutMsg.deviceReady) ++ l) ∧
      (s.port.frozen = true →
        (s.port.linkBad = true ∨ bit s.port.causeSeen.toNat 2 = true ∨ bit s.port.causeSeen.toNat 3 = true) →
        exec .pcClear s = .next { s with port := { s.port with clearRefused := true } }))

/-- Functions (R324, R332, R334, R338, R339, R341, R342, R377, R500): a function-level reset quiesces the function, and of the PF every function;
once nothing of it is served its configuration is at reset; VFs come and go; bus mastering, memory space and ATS settings. -/
def Obligations.FunctionControls : Prop :=
  ∀ (f : FnId) (s : State), s.port.linkUp = true →
    (s.port.ready = true → s.removing = false → (s.fn f).quiescing = false → (s.fn f).enabled = true → (s.fn 0).quiescing = false →
      (s.fn 0).enabled = true →
      exec (.initiateFlr f) s =
        .next (((if f.val = 0 then s.fnsUp else [f.val]).foldl (fun s f => s.quiesce f) s).boundary) ∧
      (s.quiesce f).fn f = { s.fn f with
        quiescing := true, tdi := if (s.fn f).tdi = .locked ∨ (s.fn f).tdi = .run then .error else (s.fn f).tdi,
        barred := (s.fn f).barred || decide ((s.fn f).tdi = .locked ∨ (s.fn f).tdi = .run) } ∧
      exec (.d3hotEntry) s = .next (s.setFn 0 { s.fn 0 with d3hot := true }) ∧
      ((s.fn 0).d3hot = true → ∃ t, exec .d0Entry s = .next t ∧ (t.fn 0).d3hot = false ∧ t.mem = s.mem ∧ t.cores = s.cores) ∧
      ((s.fn f).bme = true → ∃ t, exec (.busMasterDisable f) s = .next t ∧ (t.fn f).bme = false ∧
        (((s.fn f).tdi = .locked ∨ (s.fn f).tdi = .run) → (t.fn f).tdi = .error) ∧ t.mem = s.mem) ∧
      ((s.fn f).bme = false → ∃ t, exec (.busMasterEnable f) s = .next t ∧ (t.fn f).bme = true ∧ t.mem = s.mem) ∧
      (f.val = 0 → (s.fn 0).mse = true → ∃ t, exec (.memorySpaceEnableClear f) s = .next t ∧ (t.fn 0).mse = false ∧ t.mem = s.mem) ∧
      (∃ t, exec (.atsPriEnableClear f .atsClear) s = .next t ∧ (t.fn f).atsEnable = false ∧
        (∀ r ∈ t.xlt.reqs, r.fn ≠ f.val) ∧ t.mem = s.mem) ∧
      (bit (s.cfgWord 0 sriovControl) vfEnableBit = false → ∃ t, exec .vfEnable s = .next t ∧
        bit (t.cfgWord 0 sriovControl) vfEnableBit = true ∧
        ∀ g, 1 ≤ g → g ≤ min 63 (s.cfgWord 0 sriovNumVfs % 2 ^ 16) → (t.fn g).enabled = true ∧ (t.fn g).quiescing = false) ∧
      (bit (s.cfgWord 0 sriovControl) vfEnableBit = true →
        let t := s.setCfg 0 sriovControl (putBits (s.cfgWord 0 sriovControl) vfEnableBit vfEnableBit 0)
        exec .vfDisable s = .next
          ((t.vfsUp.foldl (fun s f => (s.quiesce f).setFn f { (s.quiesce f).fn f with removing := true }) t).boundary))) ∧
    ((s.fn f).quiescing = true → s.port.hotResetPending = false → f.val ≠ 0 → (s.fn 0).quiescing = false → s.quiet f = true →
      let u := (s.tearFn f).resetFn f (!(s.fn f).removing)
      ((s.fn f).removing = false → exec (.flrQuiesceDone f) s = .next (u.sendReady (some f.val)) ∧
        (u.fn f).quiescing = false ∧ (u.fn f).bme = false ∧ (u.fn f).enabled = true) ∧
      ((s.fn f).removing = true → u.removing = true → exec (.flrQuiesceDone f) s = .next u ∧ (u.fn f).enabled = false)) ∧
    (∀ (tag : BitVec 10) (rd : IoRead), s.openRead tag = some rd →
      (∀ data : Bytes, (rd.got ++ data).length = rd.len → exec (.cxlioCompletion tag .ok data) s =
        .next (s.setRead rd { rd with got := rd.got ++ data, ended := some .ok })) ∧
      (∀ data, exec (.cxlioCompletion tag .poisoned data) s =
        .next ((s.setRead rd { rd with ended := some .poisoned }).aerUncor rd.fn 12)) ∧
      ((s.fn rd.fn).noTimeout = true → exec (.completionTimeout tag) s = .next s) ∧
      ((s.fn rd.fn).noTimeout = false → exec (.completionTimeout tag) s =
        .next ((s.setRead rd { rd with ended := some .abort }).aerUncor rd.fn 14)))

/-- Resets, the link and managed removal (R332, R333, R346 to R349, R420, R430, R477, R487): a fundamental reset leaves the reset
state but for host memory, the flash counters and the command queue; a hot reset quiesces every function and clears the Portcullis,
and makes the device ready again when nothing is served; the link's loss is a surprise unless removal was agreed. -/
def Obligations.ResetsAndLink : Prop :=
  ∀ (s : State),
    (∃ t, exec .fundamentalReset s = .next t ∧ t.cores = State.reset.cores ∧ t.srv = State.reset.srv ∧ t.boot = State.reset.boot ∧
      t.port = State.reset.port ∧ t.fns = State.reset.fns ∧ t.pending = s.pending ∧ t.sec.antiRollback = s.sec.antiRollback ∧
      (∀ c ∈ t.mem.cells, isHostKey c.1 = true)) ∧
    (s.port.linkUp = true → s.boot.next = 7 → ∃ t, exec .hotReset s = .next t ∧ t.port.ready = false ∧ t.port.frozen = false ∧
      t.port.hotResetPending = true ∧ t.sec.ideKeys = [] ∧ t.sec.spdm = [] ∧ t.flt.reaction = none ∧
      (∀ f ∈ s.fnsUp, (t.fn f).quiescing = true)) ∧
    (s.port.hotResetPending = true → s.srv.step = none → (∀ f ∈ s.fnsUp, s.quiet f = true) →
      ∃ t, exec .hotResetReadiness s = .next t ∧ t.port.ready = true ∧ t.port.hotResetPending = false ∧ t.fns = [(0, Fn.pf)] ∧
        t.srv.main = none ∧ t.srv.draft = none ∧ t.mir.st = .unpaired ∧ t.boot.deterministic = false) ∧
    (s.port.off = false → s.boot.powered = true → s.port.linkUp = false → ∃ t, exec .linkUp s = .next t ∧ t.port.linkUp = true ∧
      t.port.linkBad = false ∧ t.mem = s.mem ∧ t.cores = s.cores) ∧
    (s.port.linkUp = true → (s.port.removeReady = true → exec .linkDown s = .next s.powerOff) ∧
      (s.port.removeReady = false → s.boot.next ≠ 7 → exec .linkDown s = .next { s with port := { s.port with linkUp := false } }) ∧
      (s.port.removeReady = false → s.boot.next = 7 → ∃ t, exec .linkDown s = .next t ∧ t.port.linkUp = false ∧
        t.port.frozen = true ∧ bit t.port.causeSeen.toNat 2 = true)) ∧
    (s.port.linkUp = true → (s.port.ready = true ∨ s.port.frozen = true) → (s.fn 0).quiescing = false → s.removing = false →
      (s.fn 0).enabled = true →
      (s.port.removeRequest = false → exec .removeRequest s = .next (s.rings.foldl (fun s x => s.drainRing (x.1 / 64) (x.1 % 64))
        { s with port := { s.port with removeRequest := true } })) ∧
      (s.port.removeRequest = true → s.port.removeReady = false → exec .removeCancel s =
        .next { s with port := { s.port with removeRequest := false, removeCancelled := true } })) ∧
    (s.port.removeRequest = true → s.port.removeReady = false → (∀ r ∈ s.rings, r.2.st = .disabled) → (∀ c ∈ s.ctxs, c.2.valid = false) →
      s.srv.step = none → s.srv.programs = [] → s.srv.loading = none → s.coh.asks = false → s.port.frozen = false →
      ∃ t, exec .removeReady s = .next t ∧ t.port.removeReady = true ∧ t.srv.main = none ∧ t.srv.draft = none ∧ t.mir.st = .unpaired)

/-! ### Trust, registers, faults, the Wicket (12, 15, 16, 19) -/

/-- DOE, SPDM, IDE and TDISP messages (R331, R374 to R377): what each changes and what it answers; the message layouts are outside
the spec.
The Eyepiece (R393, R394): NEW_NONCE gives a nonce, a REQUEST without one is refused with REASON 1 and one with it makes the
device read the token, a token that fails a check is refused with its REASON and consumes the nonce, and one that passes opens the
Eyepiece only when every context has ended, with every key zeroised. -/
def Obligations.SecurityMessagesAndTokens : Prop :=
  (∀ (s : State), s.port.linkUp = true → (s.port.ready = true ∨ s.port.frozen = true) → (s.fn 0).quiescing = false →
      s.removing = false → (s.fn 0).enabled = true →
      (∀ vendor typ len, exec (.doeRequest vendor typ len) s = .next (s.send
        (.doe (decide ((vendor.toNat, typ.toNat) ∈ [(0x0001, 0), (0x0001, 1), (0x0001, 2), (0x1E98, 2)] ∧ len ≤ 2 ^ 20))
          vendor typ)) ∧
      (∀ m, exec (.spdmRequest m) s = .next ((s.spdmAnswer m).2.send (.spdm (s.spdmAnswer m).1.isSome m.code ((s.spdmAnswer m).1.getD []))) ∧
        (∀ i, m = { session := none, code := .getMeasurements i } → 1 ≤ i → i ≤ 7 → s.spdmAnswer m = (some (s.measurement i), s)) ∧
        (m = { session := none, code := .keyExchange } → s.sec.spdm.length < 4 →
          mapFind (s.spdmAnswer m).2.sec.spdm s.sec.spdmNext = some false)) ∧
      (∀ (n : Option Nat), (s.secured n = false → ∀ op, exec (.ideKmRequest { session := n, op := op }) s = .next (s.send (.ide false))) ∧
        (s.secured n = true →
          (∀ set key, exec (.ideKmRequest { session := n, op := .keyProg set key }) s = .next (({ s with sec := { s.sec with
            ideKeys := s.sec.ideKeys.filter (fun k => k.1 ≠ set) ++ [(set, key)] } } : State).send (.ide true))) ∧
          (∀ set, s.sec.ideKeys.any (fun k => k.1 = set) = true → exec (.ideKmRequest { session := n, op := .keySetGo set }) s =
            .next (({ s with sec := { s.sec with ideGo := some set } } : State).send (.ide true))) ∧
          exec (.ideKmRequest { session := n, op := .keySetStop }) s =
            .next (({ s with sec := { s.sec with ideGo := none } } : State).send (.ide true)) ∧
          (∀ f : FnId, s.sec.ideGo ≠ none → (s.fn f).enabled = true → (s.fn f).tdi = .unlocked →
            ∃ t nonce, exec (.lockInterfaceRequest f n) s = .next t ∧ t.fn f = { s.fn f with tdi := .locked, barred := false, tdiNonce := nonce } ∧
              t.out = s.out ++ [.tdisp true f .locked nonce] ∧ t.mem = s.mem) ∧
          (∀ f : FnId, (s.sec.ideGo = none ∨ (s.fn f).tdi ≠ .unlocked) →
            exec (.lockInterfaceRequest f n) s = .next (s.send (.tdisp false f (s.fn f).tdi 0))) ∧
          (∀ f : FnId, (s.fn f).enabled = true →
            ((s.fn f).tdi = .locked → exec (.tdispRequest f { session := n, op := .startInterface (s.fn f).tdiNonce }) s =
              .next ((s.setFn f { s.fn f with tdi := .run }).send (.tdisp true f .run 0))) ∧
            exec (.tdispRequest f { session := n, op := .stopInterface }) s =
              .next ((s.setFn f { s.fn f with tdi := .unlocked }).send (.tdisp true f .unlocked 0)) ∧
            exec (.tdispRequest f { session := n, op := .getReport }) s =
              .next (s.send (.tdisp (decide ((s.fn f).tdi = .locked ∨ (s.fn f).tdi = .run)) f (s.fn f).tdi 0))))))) ∧
  (∀ (s : State) (token : Option Bytes) (sigOk : Bool),
      (s.port.linkUp = true → s.barOpen 0 = true → s.boot.state ≠ 3 →
        exec .newNonce s = .next { s with fresh := s.fresh + 1, sec := { s.sec with nonce := some (natLe (Config.free s.fresh) 32) } } ∧
        (s.sec.busy = true → exec .debugTokenRequest s = .next s) ∧
        (s.sec.busy = false → s.sec.nonce = none → ∃ t, exec .debugTokenRequest s = .next t ∧ t.sec.refused = true ∧ t.sec.reason = 1 ∧
          t.sec.busy = false ∧ t.out = s.out ∧ t.sec.eyepiece = s.sec.eyepiece) ∧
        (s.sec.busy = false → s.sec.nonce ≠ none → s.sends 0 = true → ∃ t, exec .debugTokenRequest s = .next t ∧ t.sec.busy = true ∧
          t.sec.refused = false ∧ t.out = s.out ++ [.ioRead 0 none 0x3FF s.sec.tokenAddr.toNat 192] ∧
          t.sec.attempts.toNat = min 0xFFFF (s.sec.attempts.toNat + 1))) ∧
      (s.sec.busy = false → exec (.debugTokenRead token sigOk) s = .next s) ∧
      (s.sec.busy = true → s.sec.opening = none → s.tokenReason token sigOk ≠ 0 → ∃ t, exec (.debugTokenRead token sigOk) s = .next t ∧
        t.sec.reason = BitVec.ofNat 3 (s.tokenReason token sigOk) ∧ t.sec.refused = true ∧ t.sec.busy = false ∧ t.sec.nonce = none ∧
        t.sec.eyepiece = s.sec.eyepiece) ∧
      (s.sec.busy = true → s.sec.opening = none → s.tokenReason token sigOk = 0 → (∀ c ∈ s.ctxs, c.2.valid = false) → s.srv.step = none →
        s.srv.programs = [] → s.srv.loading = none → ∃ t, exec (.debugTokenRead token sigOk) s = .next t ∧ t.sec.eyepiece = true ∧
          t.sec.scope = BitVec.ofNat 8 (fieldLe (token.getD []) 5 1) ∧ t.sec.sessions = [] ∧ t.sec.imageKeys = [] ∧ t.sec.partKeys = [] ∧
          t.srv.main = none ∧ t.sec.busy = false ∧ t.sec.nonce = none))

/-- Register access (R13, R56, R342, R465 to R471): an aligned read answers the slot and clears the RC fields it reads whole, another
answers 0; a BAR that is closed answers Unsupported Request; an aligned write acts by the field's access code, another is ignored;
DETERMINISTIC changes only while nothing is loaded. -/
def Obligations.RegisterAccess : Prop :=
  ∀ (f : FnId) (off : BitVec 24) (v : BitVec 64) (s : State), s.port.linkUp = true →
    (s.barOpen f = false → ∀ i, i ∈ [Instr.registerReadClear f .bar0 off true, .registerWrite f .bar0 off true v,
        .registerReadClear f .bar2 off true, .registerWrite f .bar2 off true v] →
      exec i s = .next ((s.send (.unsupportedRequest f)).aerUncor f 20)) ∧
    (s.barOpen f = true →
      (off.toNat % 8 = 0 → exec (.registerReadClear f .bar0 off true) s = .next
        ((if f.val = 0 then s.clearRc off.toNat true true else s).send (.regValue f (BitVec.ofNat 64 (s.bar0Slot f off.toNat))))) ∧
      (off.toNat % 8 ≠ 0 → exec (.registerReadClear f .bar0 off true) s = .next (s.send (.regValue f 0)) ∧
        exec (.registerWrite f .bar0 off true v) s = .next s) ∧
      (off.toNat % 8 = 0 → exec (.registerWrite f .bar0 off true v) s = .next (s.writeBar0 f off.toNat v.toNat true true)) ∧
      (∀ r : RingId, off.toNat = 0x1000 * r.val + 0x120 → exec (.registerReadClear f .bar2 off true) s =
        .next (s.send (.regValue f (BitVec.ofNat 64 ((s.ring f r).reg 0x120))))) ∧
      (∀ r : RingId, off.toNat = 0x1000 * r.val + 0x100 → (s.ring f r).st = .disabled → (s.fn f).tdi = .unlocked →
        exec (.registerWrite f .bar2 off true v) s =
          .next (s.setRing f r { s.ring f r with sqBase := BitVec.ofNat 64 (v.toNat / 4096 * 4096) }))) ∧
    s.bar0Slot 0 0x1_0000 = 0x0000_0101_A240_1F5C ∧
    ((s.clearRc 0x1_5010 true true).flt.lost = 0 ∧ (s.clearRc 0x1_5010 true false).flt.lost = s.flt.lost ∧
      (s.boot.state ≠ 3 → (s.clearRc 0x1_4028 true true).pwrReg 0x28 = 0 ∧ (s.clearRc 0x1_3010 true true).cohReg 0x10 = 0)) ∧
    (s.boot.state ≠ 3 →
      s.writeBar0 0 0x1_1008 v.toNat true true = State.driveIntx { s with port := { s.port with intEnable := BitVec.ofNat 5 v.toNat } } ∧
      s.writeBar0 0 0x1_1000 v.toNat true true =
        State.driveIntx { s with port := { s.port with intStatus := s.port.intStatus &&& ~~~ BitVec.ofNat 5 v.toNat } } ∧
      s.writeBar0 0 0x1_1008 v.toNat false true = s ∧
      (s.mir.st ≠ .unpaired → s.writeBar0 0 0x1_7000 v.toNat true true = s) ∧
      (s.mir.st = .unpaired → s.writeBar0 0 0x1_7000 v.toNat true true = { s with mir := { s.mir with
        winGib := bits v.toNat 6 0, syncFail := bit v.toNat 7, lagMib := bits v.toNat 23 8 } })) ∧
    (s.boot.state = 3 → s.writeBar0 0 0x1_1008 v.toNat true true = s ∧ s.mgmtReg 0x1_1008 = 0) ∧
    (s.barOpen 0 = true → ∀ w : BitVec 32,
      (s.arithLocked = false → exec (.devArithWrite w) s = .next { s with boot := { s.boot with
        writeIgnored := s.boot.writeIgnored && !bit w.toNat 2, deterministic := bit w.toNat 0 } }) ∧
      (s.arithLocked = true → exec (.devArithWrite w) s = .next { s with boot := { s.boot with writeIgnored := true } }))

/-- The fault collector (R433 to R444): the oldest event of a port's agent arrives and is counted; a recoverable one is entered in
the log, a severe one begins a reaction for which the Wicket waits, a fatal one freezes the log and enters the Portcullis; an event
during a reaction is merged and not logged. -/
def Obligations.FaultArrivals : Prop :=
  ∀ (s : State) (p : HubId) (e : FaultEvent) (q : List FaultEvent) (l : List (Nat × FaultEvent)) (cycles : Nat), s.collects = true →
    mapFind s.flt.agents p.val = some { queue := e :: q, pending := l } →
    let s1 : State := { s with flt := { s.flt.advance cycles with
      agents := mapPut s.flt.agents p.val { queue := q, pending := l } } }
    let t := s1.arrivalAt e false
    let x := s1.flt.source e.src.val
    exec (.faultArrival p none cycles) s = .next t ∧
      (e.src.val < s.flt.sources.length →
        (t.flt.source e.src.val).total = min (2 ^ 32 - 1) (x.total + e.events) ∧
        (bit x.cfg.toNat 14 = false → (t.flt.source e.src.val).count = min (x.count + e.events) 255)) ∧
      (s.flt.reaction = none → s.flt.frozen = false → bit x.cfg.toNat 14 = false →
        (s1.classOf e = 1 → e.ctx = none → t.flt.next = (s.flt.next + 1) % 64 ∧ t.flt.seqno = s.flt.seqno + 1 ∧ t.flt.reaction = none ∧
          ∃ n, mapFind t.flt.log s.flt.next = some n ∧ n.source.toNat = e.src.val ∧ n.cls = 1 ∧ n.unit = e.unit ∧
            n.detail = e.detail ∧ n.seqno = s.flt.seqno) ∧
        (s1.classOf e = 2 → ∀ o, severeOp e.unit = some o → s1.unitOut o.unit = false →
          t.wkt.waiting = s.wkt.waiting ++ [o] ∧ ∃ r, t.flt.reaction = some r ∧ r.fatal = false ∧ r.source.toNat = e.src.val ∧
            r.unit = e.unit ∧ r.slot = some s.flt.next) ∧
        (s1.classOf e = 3 → t.flt.frozen = true ∧ t.boot.noShutters = true ∧ t.port.frozen = true ∧ t.flt.alvState ≠ 1 ∧
          ∃ r, t.flt.reaction = some r ∧ r.fatal = true)) ∧
      (∀ r, s.flt.reaction = some r → s1.classOf e ≠ 3 → t.flt.next = s.flt.next ∧ t.flt.seqno = s.flt.seqno ∧ t.wkt = s.wkt ∧
        t.flt.reaction = some r) ∧
      (∀ x : FaultEvent, x.src.val ∈ [1, 3, 5, 7] → x.detail.toNat < 2 ^ 52 →
        (s.spoil x).mem.poisoned x.detail.toNat 1 = true ∧ (s.spoil x).mem.cells = s.mem.cells)

/-- The collector's own commands (R436 to R438, R442, R445, R447, R448): windows, the end of a reaction and its bound, the source
configuration, injection, unfreezing, and the ALV output. -/
def Obligations.CollectorControls : Prop :=
  ∀ (s : State) (src : Fin 32),
    (s.collects = true → s.flt.sources.length = 32 → ∃ t, exec (.windowRoll src) s = .next t ∧ (t.flt.source src.val).count = 0 ∧
      (t.flt.source src.val).timer = 0 ∧ (t.flt.source src.val).total = (s.flt.source src.val).total) ∧
    (∀ r, s.flt.reaction = some r → r.fatal = false →
      (s.wkt.waiting = [] → s.wkt.busy = none →
        exec .reactionEnd s = .next { s with flt := { s.flt with reaction := none, firstOpen := false } }) ∧
      (s.wkt.waiting ≠ [] → exec .reactionEnd s = .next s) ∧
      (∀ cycles, s.collects = true →
        (s.flt.time + cycles < r.began + 2 ^ 28 → exec (.reactionOverdue cycles) s = .next { s with flt := s.flt.advance cycles }) ∧
        (r.began + 2 ^ 28 ≤ s.flt.time + cycles → ∃ t, exec (.reactionOverdue cycles) s = .next t ∧ t.flt.frozen = true ∧
          t.port.frozen = true ∧ t.boot.noShutters = true))) ∧
    (s.port.linkUp = true → s.barOpen 0 = true →
      (∀ v : BitVec 64, s.flt.sources.length = 32 → ∃ t, exec (.fltSrcCfgWrite src v) s = .next t ∧
        (t.flt.source src.val).cfg.toNat = (if src.val ∈ [11, 12, 13, 19, 22, 23, 24, 28, 29, 31] then putBits (v.toNat % 2 ^ 16) 14 14 0
          else v.toNat % 2 ^ 16) ∧ (t.flt.source src.val).timer = 0 ∧ (t.flt.source src.val).count = 0 ∧
        (t.flt.source src.val).total = (s.flt.source src.val).total ∧ t.mem = s.mem) ∧
      (s.collects = true → exec .inject s = .next (s.arrivalAt (event (Fin.ofNat 32 s.flt.injectSrc.toNat) unitNone 0) true)) ∧
      (s.flt.reaction.any (·.fatal) = false → exec .unfreeze s = .next { s with flt := { s.flt with frozen := false } }) ∧
      (s.flt.reaction.any (·.fatal) = true → exec .unfreeze s = .next s)) ∧
    (s.flt.alvState = 1 → s.collects = true →
      (s.flt.alvRefreshed = true → ∃ t, exec .alvToggle s = .next t ∧ t.flt.alvLevel = !s.flt.alvLevel ∧ t.flt.alvRefreshed = false ∧
        t.out = s.out ++ [.alv !s.flt.alvLevel] ∧ t.flt.alvToggles.toNat = min (2 ^ 32 - 1) (s.flt.alvToggles.toNat + 1)) ∧
      (s.flt.alvRefreshed = false → ∃ t, exec .alvToggle s = .next t ∧ t.flt.alvState = 3 ∧ t.flt.alvLevel = false)) ∧
    (s.flt.alvState = 1 → s.boot.fwRunning = true → exec .alvRefresh s = .next { s with flt := { s.flt with alvRefreshed := true } })

/-- The Wicket's commands (R449 to R451, R454 to R456, R497): a host's write while BUSY only sets the ignored bit; an operation is refused with its
result or starts, a TEST by asking for its Shutters; firmware starts the severe reaction that waits first. An operation ends only
when what it waits for is over; then a drain and a return take effect and end DONE, a TEST marks its unit and keeps the slot's result,
a spare takes its slot's place, a retired bank, pseudo-channel or page is used up, and a link is repaired, or is down and reported. A
TEST without an answer fails. -/
def Obligations.WicketCommands : Prop :=
  ∀ (s : State) (u : BitVec 16) (arg : BitVec 32) (us : Nat),
    let rows (fw : Bool) : List (Instr × BitVec 4) := [(.drain u arg fw, 1), (.test u arg fw, 2), (.returnUnit u arg fw, 3),
      (.spare u arg fw, 4), (.retireBank u arg fw, 5), (.sparePc u arg fw, 6), (.retirePage u arg fw, 7), (.repairLink u arg fw, 8)]
    (∀ i op, (i, op) ∈ rows false → s.port.linkUp = true → s.barOpen 0 = true → s.boot.state ≠ 3 →
      let o : WktOp := { op := op, unit := u, arg := arg, fw := false }
      (s.wkt.isBusy = true → exec i s = .next { s with wkt := { s.wkt with ignored := true } }) ∧
      (s.wkt.isBusy = false →
        let t : State := { s with wkt := { s.wkt with cmdOp := op, cmdUnit := u, cmdArg := arg } }
        (∀ res, t.wktRefused o = some res → exec i s = .next (t.wktEnd o res 0)) ∧
        (t.wktRefused o = none →
          let w : State := { t with wkt := { t.wkt with
            busy := some o, lastOp := op, lastUnit := u
            tested := if op = 1 ∨ op = 2 ∨ op = 4 then setDel t.wkt.tested u.toNat else t.wkt.tested } }
          exec i s = .next (if op = 2 then w.askOpen (unitIslands u) else w)))) ∧
    (∀ i op rest, (i, op) ∈ rows true → s.wkt.busy = none → s.wkt.waiting = { op := op, unit := u, arg := arg, fw := true } :: rest →
      exec i s = .next (({ s with wkt := { s.wkt with waiting := rest } } : State).wktStart
        { op := op, unit := u, arg := arg, fw := true })) ∧
    (∀ o, s.wkt.busy = some o → ∀ pass, let n := unitIdx o.unit
      (s.wktReady o = false → exec (.wicketOperationDone pass us) s = .next s) ∧
      (s.wktReady o = true →
        (o.op = 1 → exec (.wicketOperationDone pass us) s = .next ((s.doDrain o.unit).wktEnd o 0 us)) ∧
        (o.op = 2 → exec (.wicketOperationDone pass us) s = .next (((if pass then { s with wkt := { s.wkt with
            tested := setAdd s.wkt.tested o.unit.toNat } } else s).slotTested o.unit pass).wktEnd o (if pass then 0 else 1) us)) ∧
        (o.op = 3 → exec (.wicketOperationDone pass us) s = .next (((s.doReturn o.unit).wktEnd o 0 us).boundaryPrograms)) ∧
        (o.op = 4 → exec (.wicketOperationDone pass us) s =
          .next ((s.doSpare (slotUnit o.unit).1 (slotUnit o.unit).2).wktEnd o 0 us)) ∧
        (o.op = 5 → exec (.wicketOperationDone pass us) s = .next (({ s with wkt := { s.wkt with
          banks := mapPut s.wkt.banks (n / 64) (mapGet [] s.wkt.banks (n / 64) ++ [n % 64]) } } : State).wktEnd o 0 us)) ∧
        (o.op = 6 → exec (.wicketOperationDone pass us) s = .next (({ s with wkt := { s.wkt with
          pcs := mapPut s.wkt.pcs (n / 64) (mapGet [] s.wkt.pcs (n / 64) ++ [n % 64]) } } : State).wktEnd o 0 us)) ∧
        (o.op = 7 → exec (.wicketOperationDone pass us) s = .next (({ s with wkt := { s.wkt with
          pages := mapPut s.wkt.pages (n / 64) (mapGet [] s.wkt.pages (n / 64) ++ [o.arg.toNat]) } } : State).wktEnd o 0 us)) ∧
        (o.op = 8 → pass = true → exec (.wicketOperationDone pass us) s = .next (({ s with wkt := { s.wkt with
          repaired := setAdd s.wkt.repaired n } } : State).wktEnd o 0 us)) ∧
        (o.op = 8 → pass = false → ∃ d, exec (.wicketOperationDone pass us) s = .next ((({ s with wkt := { s.wkt with
          linksDown := setAdd s.wkt.linksDown n } } : State).wktEnd o 5 us).report (event 11 o.unit d)))) ∧
      (o.op = 2 → exec .testTimeout s = .next (s.wktEnd o 1 2147483)) ∧ (o.op ≠ 2 → exec .testTimeout s = .next s)) ∧
    (∀ o res, (s.wktEnd o res us).wkt.busy = none ∧ (s.wktEnd o res us).wkt.result = BitVec.ofNat 4 res ∧
      (s.wktEnd o res us).wkt.lastOp = o.op ∧ (s.wktEnd o res us).wkt.lastUnit = o.unit ∧
      (s.wktEnd o res us).wkt.durationUs.toNat = min us (2 ^ 32 - 1)) ∧
    (s.wkt.busy = none → (∀ pass, exec (.wicketOperationDone pass us) s = .next s) ∧ exec .testTimeout s = .next s)

/-! ### Invariants of every step -/

/-- Memory keeps its canonical form (log entry 6): whatever command is carried out in whatever state, addresses stay strictly
rising and no byte is listed that reads as an unlisted one does; reset has the form. -/
def Obligations.MemoryFormKept : Prop :=
  State.reset.mem.wf = true ∧ ∀ s t : State, s.mem.wf = true → step s = .next t → t.mem.wf = true
end

