-- ==== Sys2Proof/Laws/Map.lean ====
section
/-! SUPPORT. The laws of the sorted maps: what is found after a write, and that writes keep the keys rising. -/

namespace Sys2Proof.Machine

variable {α : Type}

@[simp] theorem mapFind_mapPut (m : List (Nat × α)) (k j : Nat) (v : α) :
    mapFind (mapPut m k v) j = if j = k then some v else mapFind m j := by
  induction m with
  | nil => simp [mapPut, mapFind]
  | cons p m ih =>
    obtain ⟨a, w⟩ := p
    simp only [mapPut]
    split
    · by_cases h : j = k <;> simp [mapFind, h]
    · split
      · rename_i h1 h2; subst h2
        by_cases h : j = k <;> simp [mapFind, h]
      · rename_i h1 h2
        simp only [mapFind, ih]
        by_cases h : j = a
        · have : ¬ j = k := by omega
          simp [h]; omega
        · simp [h]

@[simp] theorem mapFind_mapDel (m : List (Nat × α)) (k j : Nat) :
    mapFind (mapDel m k) j = if j = k then none else mapFind m j := by
  induction m with
  | nil => simp [mapDel, mapFind]
  | cons p m ih =>
    obtain ⟨a, w⟩ := p
    unfold mapDel at ih ⊢
    by_cases h : a = k
    · subst h
      simp only [List.filter_cons, ne_eq, not_true, decide_false, Bool.false_eq_true, if_false, ih, mapFind]
      by_cases h : j = a <;> simp [h]
    · simp only [List.filter_cons, ne_eq, h, not_false_eq_true, decide_true, if_true, mapFind, ih]
      by_cases h' : j = a
      · have : ¬ j = k := by omega
        simp [h', h]
      · simp [h']

theorem mapGet_mapSet [DecidableEq α] (d : α) (m : List (Nat × α)) (k j : Nat) (v : α) :
    mapGet d (mapSet d m k v) j = if j = k then v else mapGet d m j := by
  unfold mapSet mapGet
  by_cases h : v = d <;> by_cases h' : j = k <;> simp [h, h']

@[simp] theorem mapGet_mapSet_self [DecidableEq α] (d : α) (m : List (Nat × α)) (k : Nat) (v : α) :
    mapGet d (mapSet d m k v) k = v := by simp [mapGet_mapSet]

theorem keysRise_tail {p : Nat × α} {m : List (Nat × α)} (h : keysRise (p :: m) = true) : keysRise m = true := by
  cases m with
  | nil => rfl
  | cons q m => simp only [keysRise, Bool.and_eq_true] at h; exact h.2

/-- In a map whose keys rise, every key is above the first. -/
theorem keysRise_lt {p q : Nat × α} {m : List (Nat × α)} (h : keysRise (p :: m) = true) (hq : q ∈ m) : p.1 < q.1 := by
  induction m generalizing p with
  | nil => simp at hq
  | cons r m ih =>
    simp only [keysRise, Bool.and_eq_true, decide_eq_true_eq] at h
    rcases List.mem_cons.mp hq with rfl | hq
    · exact h.1
    · exact Nat.lt_trans h.1 (ih h.2 hq)

/-- Keys that rise, put behind a key below them all. -/
theorem keysRise_cons {p : Nat × α} {m : List (Nat × α)} (h : keysRise m = true) (hp : ∀ q ∈ m, p.1 < q.1) :
    keysRise (p :: m) = true := by
  cases m with
  | nil => rfl
  | cons q m => simp only [keysRise, Bool.and_eq_true, decide_eq_true_eq]; exact ⟨hp q (by simp), h⟩

theorem keysRise_filter {m : List (Nat × α)} (f : Nat × α → Bool) (h : keysRise m = true) : keysRise (m.filter f) = true := by
  induction m with
  | nil => rfl
  | cons p m ih =>
    rw [List.filter_cons]
    split
    · exact keysRise_cons (ih (keysRise_tail h)) (fun q hq => keysRise_lt h (List.mem_filter.mp hq).1)
    · exact ih (keysRise_tail h)

theorem mem_mapPut {m : List (Nat × α)} {k : Nat} {v : α} {q : Nat × α} (h : q ∈ mapPut m k v) : q = (k, v) ∨ q ∈ m := by
  induction m with
  | nil => simpa [mapPut] using h
  | cons p m ih =>
    obtain ⟨a, w⟩ := p
    simp only [mapPut] at h
    split at h
    · simpa using h
    · split at h
      · rcases List.mem_cons.mp h with h | h <;> simp [h]
      · rcases List.mem_cons.mp h with h | h
        · simp [h]
        · rcases ih h with h | h <;> simp [h]

theorem keysRise_mapPut {m : List (Nat × α)} (k : Nat) (v : α) (h : keysRise m = true) : keysRise (mapPut m k v) = true := by
  induction m with
  | nil => rfl
  | cons p m ih =>
    obtain ⟨a, w⟩ := p
    simp only [mapPut]
    split
    · rename_i hk; simp [keysRise, hk, h]
    · split
      · rename_i h1 h2; subst h2
        exact keysRise_cons (keysRise_tail h) (fun q hq => keysRise_lt (p := (k, w)) h hq)
      · rename_i h1 h2
        refine keysRise_cons (ih (keysRise_tail h)) (fun q hq => ?_)
        rcases mem_mapPut hq with rfl | hq
        · show a < k; omega
        · exact keysRise_lt (p := (a, w)) h hq

theorem keysRise_mapDel {m : List (Nat × α)} (k : Nat) (h : keysRise m = true) : keysRise (mapDel m k) = true :=
  keysRise_filter _ h

end Sys2Proof.Machine
end

