-- ==== Sys2Proof/Laws/Memory.lean ====
section
/-! SUPPORT. The laws of memory: what a byte reads after each operation, and that each operation keeps the canonical form
(log entry 6). -/

namespace Sys2Proof.Machine

/-! ### What an unlisted byte reads as -/

/-- Unlisted bytes read alike where nothing is open in a different way. -/
theorem Memory.unlisted_of_open {m n : Memory} (h : m.scratch = n.scratch) (h' : m.lost = n.lost) (k : Nat) :
    m.unlisted k = n.unlisted k := by
  simp [Memory.unlisted, h, h']

@[simp] theorem Memory.put_scratch (m : Memory) (k : Nat) (v : Byte) : (m.put k v).scratch = m.scratch := rfl

@[simp] theorem Memory.put_lost (m : Memory) (k : Nat) (v : Byte) : (m.put k v).lost = m.lost := rfl

@[simp] theorem Memory.put_poison (m : Memory) (k : Nat) (v : Byte) : (m.put k v).poison = m.poison := rfl

@[simp] theorem Memory.put_unlisted (m : Memory) (k j : Nat) (v : Byte) : (m.put k v).unlisted j = m.unlisted j :=
  Memory.unlisted_of_open rfl rfl j

@[simp] theorem Memory.write_scratch (m : Memory) (k : Nat) (bs : Bytes) : (m.write k bs).scratch = m.scratch := by
  induction bs generalizing m k with
  | nil => rfl
  | cons b bs ih => simp [Memory.write, ih]

@[simp] theorem Memory.write_lost (m : Memory) (k : Nat) (bs : Bytes) : (m.write k bs).lost = m.lost := by
  induction bs generalizing m k with
  | nil => rfl
  | cons b bs ih => simp [Memory.write, ih]

@[simp] theorem Memory.write_poison (m : Memory) (k : Nat) (bs : Bytes) : (m.write k bs).poison = m.poison := by
  induction bs generalizing m k with
  | nil => rfl
  | cons b bs ih => simp [Memory.write, ih]

/-! ### Reading after writing -/

theorem Memory.byte_put (m : Memory) (k j : Nat) (v : Byte) : (m.put k v).byte j = if j = k then v else m.byte j := by
  unfold Memory.byte
  rw [Memory.put_unlisted]
  by_cases h : v = m.unlisted k
  · have : (m.put k v).cells = mapDel m.cells k := by simp [Memory.put, h]
    rw [this, mapFind_mapDel]
    by_cases hj : j = k
    · subst hj; simp [h]
    · simp [hj]
  · have : (m.put k v).cells = mapPut m.cells k v := by simp [Memory.put, h]
    rw [this, mapFind_mapPut]
    by_cases hj : j = k <;> simp [hj]

theorem Memory.byte_write (m : Memory) (k j : Nat) (bs : Bytes) :
    (m.write k bs).byte j = if k ≤ j ∧ j < k + bs.length then bs.getD (j - k) 0 else m.byte j := by
  induction bs generalizing m k with
  | nil => simp [Memory.write]
  | cons b bs ih =>
    rw [Memory.write, ih, Memory.byte_put]
    simp only [List.length_cons]
    by_cases hj : j = k
    · subst hj
      simp
    · by_cases hk : k + 1 ≤ j ∧ j < k + 1 + bs.length
      · have h2 : k ≤ j ∧ j < k + (bs.length + 1) := by omega
        obtain ⟨d, hd⟩ : ∃ d, j - k = d + 1 := ⟨j - k - 1, by omega⟩
        have h3 : j - (k + 1) = d := by omega
        rw [if_pos hk, if_pos h2, hd, h3]; rfl
      · have h2 : ¬ (k ≤ j ∧ j < k + (bs.length + 1)) := by omega
        rw [if_neg hk, if_neg h2, if_neg hj]

@[simp] theorem Memory.read_length (m : Memory) (k n : Nat) : (m.read k n).length = n := by simp [Memory.read]

/-- What was written is read back. -/
theorem Memory.read_write (m : Memory) (k : Nat) (bs : Bytes) : (m.write k bs).read k bs.length = bs := by
  apply List.ext_getElem
  · simp
  · intro i h1 h2
    have h : i < bs.length := h2
    simp only [Memory.read, List.getElem_map, List.getElem_range, Memory.byte_write]
    rw [if_pos (by omega), show k + i - k = i by omega, List.getD_eq_getElem?_getD, List.getElem?_eq_getElem h]; rfl

/-- A range apart from the written bytes reads as before. -/
theorem Memory.read_write_apart (m : Memory) (k j n : Nat) (bs : Bytes) (h : j + n ≤ k ∨ k + bs.length ≤ j) :
    (m.write k bs).read j n = m.read j n := by
  apply List.map_congr_left
  intro i hi
  have : i < n := by simpa using hi
  rw [Memory.byte_write, if_neg (by omega)]

/-- A store changes no byte outside its range (R194). -/
theorem Memory.byte_store_apart (m : Memory) (k j : Nat) (bs : Bytes) (h : j < k ∨ k + bs.length ≤ j) :
    (m.store k bs).byte j = m.byte j := by
  unfold Memory.store
  split
  · have e : ∀ (n : Memory) (p : List Nat), Memory.byte { n with poison := p } j = n.byte j := fun _ _ => rfl
    rw [e, Memory.byte_write, if_neg (by simp; omega)]
  · rw [Memory.byte_write, if_neg (by omega)]

/-- A store to words of which none is poisoned is a plain write. -/
theorem Memory.store_clean (m : Memory) (k : Nat) (bs : Bytes) (h : m.poisoned k bs.length = false) :
    m.store k bs = m.write k bs := by
  simp [Memory.store, h]

/-! ### The canonical form is kept -/

theorem Memory.wf_iff (m : Memory) : m.wf = true ↔ keysRise m.cells = true ∧ ∀ c ∈ m.cells, c.2 ≠ m.unlisted c.1 := by
  simp [Memory.wf]

theorem Memory.wf_of {m n : Memory} (h : m.wf = true) (hc : n.cells = m.cells) (hs : n.scratch = m.scratch)
    (hl : n.lost = m.lost) : n.wf = true := by
  rw [Memory.wf_iff] at h ⊢
  rw [hc]
  exact ⟨h.1, fun c hm => by rw [Memory.unlisted_of_open hs hl]; exact h.2 c hm⟩

theorem Memory.put_wf {m : Memory} (k : Nat) (v : Byte) (h : m.wf = true) : (m.put k v).wf = true := by
  rw [Memory.wf_iff] at h ⊢
  by_cases hv : v = m.unlisted k
  · have : (m.put k v).cells = mapDel m.cells k := by simp [Memory.put, hv]
    rw [this]
    refine ⟨keysRise_mapDel k h.1, fun c hc => ?_⟩
    rw [Memory.put_unlisted]
    exact h.2 c (List.mem_filter.mp hc).1
  · have : (m.put k v).cells = mapPut m.cells k v := by simp [Memory.put, hv]
    rw [this]
    refine ⟨keysRise_mapPut k v h.1, fun c hc => ?_⟩
    rw [Memory.put_unlisted]
    rcases mem_mapPut hc with rfl | hc
    · exact hv
    · exact h.2 c hc

theorem Memory.write_wf {m : Memory} (k : Nat) (bs : Bytes) (h : m.wf = true) : (m.write k bs).wf = true := by
  induction bs generalizing m k with
  | nil => exact h
  | cons b bs ih => exact ih _ (Memory.put_wf k b h)

theorem Memory.store_wf {m : Memory} (k : Nat) (bs : Bytes) (h : m.wf = true) : (m.store k bs).wf = true := by
  unfold Memory.store
  split
  · exact Memory.wf_of (Memory.write_wf k _ h) rfl rfl rfl
  · exact Memory.write_wf k bs h

theorem Memory.poison_wf {m : Memory} (p : List Nat) (h : m.wf = true) : Memory.wf { m with poison := p } = true :=
  Memory.wf_of h rfl rfl rfl

theorem Memory.poisonLine_wf {m : Memory} (k : Nat) (h : m.wf = true) : (m.poisonLine k).wf = true := Memory.poison_wf _ h

/-- Memory with some of its cells gone. -/
theorem Memory.filter_wf {m : Memory} (f : Host.Cell → Bool) (p : List Nat) (h : m.wf = true) :
    Memory.wf { m with cells := m.cells.filter f, poison := p } = true := by
  rw [Memory.wf_iff] at h ⊢
  exact ⟨keysRise_filter f h.1, fun c hc => h.2 c (List.mem_filter.mp hc).1⟩

/-- Memory whose cells are some of another's, and whose unlisted bytes read alike at each of them. -/
theorem Memory.kept_wf {m n : Memory} (f : Host.Cell → Bool) (h : m.wf = true) (hc : n.cells = m.cells.filter f)
    (hu : ∀ c : Host.Cell, f c = true → n.unlisted c.1 = m.unlisted c.1) : n.wf = true := by
  rw [Memory.wf_iff] at h ⊢
  rw [hc]
  refine ⟨keysRise_filter f h.1, fun c hm => ?_⟩
  obtain ⟨hm, hf⟩ := List.mem_filter.mp hm
  rw [hu c hf]
  exact h.2 c hm

/-- Which open region an unlisted byte reads. -/
theorem Memory.unlisted_congr {m n : Memory} {k : Nat}
    (hcore : paTarget k ≤ 0x1F → k < 2 ^ 52 → 0x10 ≤ paTarget k → paOffset k < 2 ^ 25 → paOffset k % 2 ^ 20 < 0xF_0000 →
      mapFind n.scratch ((paTarget k - 0x10) * 32 + paOffset k / 2 ^ 20) =
        mapFind m.scratch ((paTarget k - 0x10) * 32 + paOffset k / 2 ^ 20))
    (hg : 2 ^ 51 ≤ k → k < 2 ^ 52 → mapFind n.lost (k / 2 ^ 21) = mapFind m.lost (k / 2 ^ 21)) :
    n.unlisted k = m.unlisted k := by
  unfold Memory.unlisted
  split
  · rename_i c
    simp only [Bool.and_eq_true, decide_eq_true_eq] at c
    obtain ⟨⟨⟨⟨c1, c2⟩, c3⟩, c4⟩, c5⟩ := c
    rw [hcore c2 c3 c1 c4 c5]
  · split
    · rename_i c
      simp only [Bool.and_eq_true, decide_eq_true_eq] at c
      rw [hg c.1 c.2]
    · rfl

/-- An entry whose key passes a test is found after filtering by that test. -/
theorem mapFind_filter_of {α : Type} (l : List (Nat × α)) (f : Nat → Bool) {j : Nat} (h : f j = true) :
    mapFind (l.filter (fun x => f x.1)) j = mapFind l j := by
  induction l with
  | nil => rfl
  | cons x l ih =>
    obtain ⟨k, v⟩ := x
    by_cases hk : f k = true
    · simp [hk, mapFind, ih]
    · have : j ≠ k := by rintro rfl; exact hk h
      simp [hk, mapFind, ih, this]

theorem Memory.zero_wf {m : Memory} (k n : Nat) (h : m.wf = true) : (m.zero k n).wf = true := by
  refine Memory.kept_wf (fun c => decide (c.1 < k) || decide (k + n ≤ c.1)) h rfl (fun c hc => ?_)
  simp only [Bool.or_eq_true, decide_eq_true_eq] at hc
  refine Memory.unlisted_congr (fun _ _ _ _ _ => rfl) (fun _ _ => ?_)
  refine mapFind_filter_of m.lost (fun x => decide (x * 2 ^ 21 < k) || decide (k + n < x * 2 ^ 21 + 2 ^ 21)) ?_
  simp only [Bool.or_eq_true, decide_eq_true_eq]
  omega

theorem paTarget_granule (k : Nat) : paTarget (k / 2 ^ 21 * 2 ^ 21) = paTarget k := by
  have t : ∀ x, paTarget x = x / 2 ^ 46 % 2 ^ 6 := fun x => by simp [paTarget, bits, Nat.shiftRight_eq_div_pow]
  rw [t, t]; omega

theorem paOffset_granule (k : Nat) : paOffset (k / 2 ^ 21 * 2 ^ 21) = paOffset k / 2 ^ 21 * 2 ^ 21 := by
  have o : ∀ x, paOffset x = x % 2 ^ 46 := fun x => by simp [paOffset, bits]
  rw [o, o]; omega

theorem hbmStack_granule (k : Nat) : hbmStack (k / 2 ^ 21 * 2 ^ 21) = hbmStack k := by
  unfold hbmStack; rw [paTarget_granule]

/-- A carve is whole granules. -/
theorem Coh.carveBytes_granules (c : Coh) : c.carveBytes = c.carveBytes / 2 ^ 21 * 2 ^ 21 := by
  have d : (2 : Nat) ^ 21 ∣ c.carveBytes := Dvd.dvd.mul_left (pow_dvd_pow 2 (by decide)) _
  exact (Nat.div_mul_cancel d).symm

theorem carve_granule_lt (x b n : Nat) :
    ((12 * ((2 ^ 36 - 1 - x / 2 ^ 21 * 2 ^ 21 % 2 ^ 36) / 2 ^ 21) + n) * 2 ^ 21 + x / 2 ^ 21 * 2 ^ 21 % 2 ^ 21 < b * 2 ^ 21) ↔
      ((12 * ((2 ^ 36 - 1 - x % 2 ^ 36) / 2 ^ 21) + n) * 2 ^ 21 + x % 2 ^ 21 < b * 2 ^ 21) := by
  omega

/-- Whether an address of stack n lies in the carve. -/
theorem Coh.carveOff_some (c : Coh) (k n : Nat) (h : hbmStack k = some n) : (c.carveOff k).isSome =
    decide ((12 * ((2 ^ 36 - 1 - paOffset k % 2 ^ 36) / 2 ^ 21) + n) * 2 ^ 21 + paOffset k % 2 ^ 21 < c.carveBytes) := by
  have t : ∀ (p : Prop) [Decidable p] (a : Nat), (if p then some a else none).isSome = decide p := fun p _ a => by
    by_cases h : p <;> simp [h]
  unfold Coh.carveOff
  rw [h]
  exact t _ _

/-- No address outside the stacks lies in the carve. -/
theorem Coh.carveOff_none (c : Coh) (k : Nat) (h : hbmStack k = none) : c.carveOff k = none := by
  unfold Coh.carveOff
  rw [h]

/-- Addresses of one granule of HBM lie in a carve together. -/
theorem Coh.carveOff_granule (c : Coh) (k : Nat) : (c.carveOff (k / 2 ^ 21 * 2 ^ 21)).isSome = (c.carveOff k).isSome := by
  cases h : hbmStack k with
  | none => rw [Coh.carveOff_none c k h, Coh.carveOff_none c _ ((hbmStack_granule k).trans h)]
  | some n =>
    rw [Coh.carveOff_some c k n h, Coh.carveOff_some c _ n ((hbmStack_granule k).trans h), paOffset_granule,
      Coh.carveBytes_granules]
    exact decide_eq_decide.mpr (carve_granule_lt _ _ n)

theorem Memory.zeroCarve_wf {m : Memory} (c : Coh) (h : m.wf = true) : (m.zeroCarve c).wf = true := by
  refine Memory.kept_wf (fun x => !(c.carveOff x.1).isSome) h rfl (fun x hx => ?_)
  refine Memory.unlisted_congr (fun _ _ _ _ _ => rfl) (fun _ _ => ?_)
  refine mapFind_filter_of m.lost (fun x => !(c.carveOff (x * 2 ^ 21)).isSome) ?_
  rw [Coh.carveOff_granule]
  exact hx

/-- A granule loses its contents: its cells are gone, and what its bytes read as is open. -/
theorem Memory.loseGranule_wf {m : Memory} (k d : Nat) (hk : k % 2 ^ 21 = 0) (h : m.wf = true) : (m.loseGranule k d).wf = true := by
  refine Memory.kept_wf (fun c => decide (c.1 < k) || decide (k + 2 ^ 21 ≤ c.1)) h rfl (fun c hc => ?_)
  simp only [Bool.or_eq_true, decide_eq_true_eq] at hc
  refine Memory.unlisted_congr (fun _ _ _ _ _ => rfl) (fun _ _ => ?_)
  show mapFind (mapPut m.lost (k / 2 ^ 21) d) _ = _
  rw [mapFind_mapPut, if_neg (by omega)]

theorem Memory.loseDirty_wf {m : Memory} (dc : List (Nat × DcSt)) (h : m.wf = true) : (m.loseDirty dc).wf = true := by
  unfold Memory.loseDirty
  generalize dc.filter _ = l
  induction l generalizing m with
  | nil => exact h
  | cons x l ih => exact ih (Memory.poisonLine_wf _ h)

/-! ### Program core SRAM -/

theorem coreSramPa_zero (g : Nat) : coreSramPa g 0 = (0x10 + g / 32) * 2 ^ 46 + g % 32 * 2 ^ 20 := by
  have h : (g % 32) <<< 20 < 2 ^ 46 := by
    rw [Nat.shiftLeft_eq]; have := Nat.mod_lt g (show 32 > 0 by decide); omega
  simp only [coreSramPa, Nat.or_zero]
  rw [← Nat.shiftLeft_add_eq_or_of_lt h, Nat.shiftLeft_eq, Nat.shiftLeft_eq]

/-- The core under whose number a byte of core SRAM is looked up in scratch is the core that holds it. -/
theorem scratch_core {k g : Nat} (c1 : 0x10 ≤ paTarget k) (c2 : paTarget k ≤ 0x1F) (c3 : k < 2 ^ 52)
    (e : (paTarget k - 0x10) * 32 + paOffset k / 2 ^ 20 = g) (c4 : paOffset k < 2 ^ 25) (c5 : paOffset k % 2 ^ 20 < 0xF_0000) :
    coreSramPa g 0 ≤ k ∧ k < coreSramPa g 0 + 0xF_0000 := by
  rw [coreSramPa_zero]
  have t : paTarget k = k / 2 ^ 46 % 2 ^ 6 := by simp [paTarget, bits, Nat.shiftRight_eq_div_pow]
  have o : paOffset k = k % 2 ^ 46 := by simp [paOffset, bits]
  omega

/-- A byte outside the program SRAM of the one core of which scratch has changed reads as before where it is not listed. -/
theorem Memory.unlisted_of_apart {m n : Memory} {g : Nat} (h : ∀ j, j ≠ g → mapFind n.scratch j = mapFind m.scratch j)
    (h' : n.lost = m.lost) {k : Nat}
    (hk : k < coreSramPa g 0 ∨ coreSramPa g 0 + 0xF_0000 ≤ k) : n.unlisted k = m.unlisted k := by
  refine Memory.unlisted_congr (fun c2 c3 c1 c4 c5 => h _ (fun e => ?_)) (fun _ _ => by rw [h'])
  have := scratch_core c1 c2 c3 e c4 c5
  omega

/-- Zeroing a range leaves the cells outside it. -/
theorem Memory.zero_cells (m : Memory) (k n : Nat) :
    (m.zero k n).cells = (m.zero k n).cells.filter (fun c => decide (c.1 < k) || decide (k + n ≤ c.1)) := by
  simp only [Memory.zero, List.filter_filter, Bool.and_self]

/-- The program SRAM of a core is zeroed and what it reads as changes: the form is kept. -/
theorem Memory.rescratch_wf {m x : Memory} {g n : Nat} (hx : x.wf = true) (hn : 0xF_0000 ≤ n)
    (e : x = m.zero (coreSramPa g 0) n) (l : List (Nat × Nat)) (hl : ∀ j, j ≠ g → mapFind l j = mapFind x.scratch j) :
    Memory.wf { x with scratch := l } = true := by
  refine Memory.kept_wf (fun c => decide (c.1 < coreSramPa g 0) || decide (coreSramPa g 0 + n ≤ c.1)) hx ?_ (fun c hc => ?_)
  · subst e; exact Memory.zero_cells m _ n
  · simp only [Bool.or_eq_true, decide_eq_true_eq] at hc
    refine Memory.unlisted_of_apart (m := x) (n := { x with scratch := l }) (g := g) hl rfl ?_
    omega

theorem Memory.loseCore_wf {m : Memory} (g : Nat) (h : m.wf = true) : (m.loseCore g).wf = true :=
  Memory.rescratch_wf (Memory.zero_wf (coreSramPa g 0) (2 ^ 20) h) (by decide) rfl (mapDel m.scratch g)
    (fun j hj => by rw [mapFind_mapDel, if_neg hj]; rfl)

/-- Core SRAM is handed to a raw program with open contents (R94). -/
theorem Memory.hand_wf {m : Memory} (g d : Nat) (h : m.wf = true) :
    Memory.wf { m.zero (coreSramPa g 0) 0xF_0000 with scratch := mapPut (m.zero (coreSramPa g 0) 0xF_0000).scratch g d } = true :=
  Memory.rescratch_wf (Memory.zero_wf (coreSramPa g 0) 0xF_0000 h) (Nat.le_refl _) rfl _
    (fun j hj => by rw [mapFind_mapPut, if_neg hj])

theorem Memory.puts_wf {m : Memory} (l : List Host.Cell) (h : m.wf = true) :
    (l.foldl (fun (m : Memory) c => m.put c.1 c.2) m).wf = true := by
  induction l generalizing m with
  | nil => exact h
  | cons x l ih => exact ih (Memory.put_wf x.1 x.2 h)

/-- A renamed core is one of the same cluster. -/
theorem newCore_cluster {cl : Nat} {old new : List Nat} {g h : Nat} (e : newCore cl old new g = some h) : h / 8 = cl := by
  unfold newCore at e
  cases ho : old[g - 8 * cl]? with
  | none => simp [ho] at e
  | some n =>
    simp only [ho, Option.bind_some, Option.map_eq_some_iff] at e
    obtain ⟨i, hi, rfl⟩ := e
    have := List.findIdx?_eq_some_iff_getElem.mp hi
    obtain ⟨hl, -⟩ := this
    have : i < 8 := by simp at hl; omega
    omega

/-- What cores of other clusters found in their SRAM stays with them. -/
theorem mapFind_rename {cl : Nat} {old new : List Nat} (sc : List (Nat × Nat)) {j : Nat} (hj : j / 8 ≠ cl) :
    mapFind (sc.foldr (fun x l => if x.1 / 8 ≠ cl then mapPut l x.1 x.2 else
      match newCore cl old new x.1 with
      | some h => mapPut l h x.2
      | none => l) []) j = mapFind sc j := by
  induction sc with
  | nil => rfl
  | cons x sc ih =>
    obtain ⟨g, d⟩ := x
    rw [List.foldr_cons]
    by_cases hg : g / 8 = cl
    · have hne : j ≠ g := by intro h; exact hj (h ▸ hg)
      simp only [ne_eq, hg, not_true, if_false, mapFind, hne]
      split
      · rename_i h hh
        have := newCore_cluster hh
        rw [mapFind_mapPut, if_neg (by intro h'; exact hj (h' ▸ this)), ← ih]
      · rw [← ih]
    · simp only [ne_eq, hg, not_false_eq_true, if_true, mapFind, mapFind_mapPut]
      split
      · rfl
      · rw [← ih]

theorem Memory.renameCores_wf {m : Memory} (cl : Nat) (old new : List Nat) (h : m.wf = true) : (m.renameCores cl old new).wf = true := by
  unfold Memory.renameCores
  extract_lets mine rename scratch rest moved hurt
  refine Memory.poison_wf _ (Memory.puts_wf _ ?_)
  have hm := (Memory.wf_iff m).mp h
  refine (Memory.wf_iff _).mpr ⟨keysRise_filter _ hm.1, fun c hc => ?_⟩
  obtain ⟨hc, hk⟩ := List.mem_filter.mp hc
  have : rest.unlisted c.1 = m.unlisted c.1 := by
    refine Memory.unlisted_congr (fun c2 c3 c1 c4 _ => ?_) (fun _ _ => rfl)
    have hs : sramCore c.1 = some ((paTarget c.1 - 0x10) * 32 + bits (paOffset c.1) 24 20) := by
      simp [sramCore, c1, c2]; omega
    have hb : bits (paOffset c.1) 24 20 = paOffset c.1 / 2 ^ 20 := by
      simp only [bits, Nat.shiftRight_eq_div_pow]; omega
    rw [hb] at hs
    simp only [mine, hs, Option.any_some, Bool.not_eq_true', decide_eq_false_iff_not] at hk
    rw [show rest.scratch = scratch from rfl, show mapFind scratch _ = _ from mapFind_rename m.scratch hk]
  rw [this]
  exact hm.2 c hc

theorem State.fundamental_wf (s : State) (h : s.mem.wf = true) : s.fundamental.mem.wf = true := by
  have hd := (Memory.wf_iff _).mp (Memory.loseDirty_wf s.coh.dc h)
  refine (Memory.wf_iff _).mpr ⟨keysRise_filter _ hd.1, fun c hc => ?_⟩
  obtain ⟨hc, hk⟩ := List.mem_filter.mp hc
  have hk : 2 ^ 64 ≤ c.1 := by simpa [isHostKey] using hk
  have e : ∀ n : Memory, n.unlisted c.1 = 0 := by
    intro n
    unfold Memory.unlisted
    rw [if_neg, if_neg] <;> simp only [Bool.and_eq_true, decide_eq_true_eq] <;> intro hh <;> omega
  rw [e]
  have := hd.2 c hc
  rwa [e] at this

/-- Reset memory lists nothing. -/
theorem State.reset_mem_wf : State.reset.mem.wf = true := rfl

end Sys2Proof.Machine
end

