-- ==== Sys2Proof/Laws/Buffers.lean ====
section
/-! SUPPORT. What reading a packet's buffer in device memory comes to (R293, R353), and that what it waits for does not depend on the
contents of memory. -/

namespace Sys2Proof.Machine

/-- A buffer of one piece in the device's memory, allowed, ready and without poison, at a target that answers, is read at its key. -/
theorem State.readBuf_device (s s1 : State) (who : Waiter) (tag ptr len : Nat) (hm : s.mayName false tag ptr len .read = true)
    (hp : pagesOf ptr len = [(ptr, len)]) (h0 : space ptr ≠ 0) (hs : space ptr = 1 ∨ space ptr = 2)
    (hk : isHostKey (s.physOf 0 false tag ptr) = false) (ha : s.allowed (s.physOf 0 false tag ptr) true false tag false = true)
    (hd : s.answers (s.physOf 0 false tag ptr) = true)
    (hr : s.linesReady (s.physOf 0 false tag ptr) len false = (true, s1))
    (hq : s1.mem.poisoned (s.physOf 0 false tag ptr) len = false) :
    s.readBuf who tag ptr len = (.data (s1.mem.read (s.physOf 0 false tag ptr) len), s1) := by
  simp [State.readBuf, State.readPiece, State.spot, hm, hp, h0, hs, hk, ha, hd, hr, hq]

/-- The device cache and the homes do not look at memory. -/
theorem State.dcReady_mem (s : State) (m : Memory) (l : Nat) (w v : Bool) :
    ({ s with mem := m } : State).dcReady l w v = ((s.dcReady l w v).1, { (s.dcReady l w v).2 with mem := m }) := by
  by_cases h1 : (!s.coh.wbi && s.coh.cacheEnable && s.coh.dcHolds l w) = true
  · simp only [State.dcReady, h1, if_true]
  · by_cases h2 : (s.coh.d2h.any (fun p => p.1 = l) || !s.cacheSends) = true
    · have h3 : (s.coh.d2h.any (fun p => p.1 = l) || !({ s with mem := m } : State).cacheSends) = true := h2
      simp only [State.dcReady, h1, h2, h3, if_true, if_false, Bool.false_eq_true]
    · have h3 : ¬ (s.coh.d2h.any (fun p => p.1 = l) || !({ s with mem := m } : State).cacheSends) = true := h2
      simp only [State.dcReady, h1, h2, h3, if_false, Bool.false_eq_true]

theorem State.refuseReq_mem (s : State) (m : Memory) (a l : Nat) :
    ({ s with mem := m } : State).refuseReq a l = { s.refuseReq a l with mem := m } := by
  by_cases h : (s.coh.refuse a l).1 = true <;> simp only [State.refuseReq, State.send, h, if_true, if_false, Bool.false_eq_true]

theorem State.homeReady_mem (s : State) (m : Memory) (a l : Nat) (w : Bool) :
    ({ s with mem := m } : State).homeReady a l w = ((s.homeReady a l w).1, { (s.homeReady a l w).2 with mem := m }) := by
  cases he : s.coh.entry l with
  | none => by_cases h1 : s.coh.turn a l = true <;> simp only [State.homeReady, State.refuseReq_mem, he, h1, if_true, if_false, Bool.false_eq_true]
  | some e =>
    by_cases h1 : (e.trans.isSome || !s.coh.turn a l) = true
    · simp only [State.homeReady, State.refuseReq_mem, he, h1, if_true]
    · by_cases h2 : e.hostHolds (!w) = true
      · by_cases h3 : (s.port.frozen || !s.port.linkUp) = true <;>
          simp only [State.homeReady, he, h1, h2, h3, if_true, if_false, Bool.false_eq_true]
      · simp only [State.homeReady, he, h1, h2, if_false, Bool.false_eq_true]

theorem State.linesReady_mem (s : State) (m : Memory) (k n : Nat) (w : Bool) :
    ({ s with mem := m } : State).linesReady k n w = ((s.linesReady k n w).1, { (s.linesReady k n w).2 with mem := m }) := by
  simp only [State.linesReady]
  generalize linesOf k n = l
  suffices h : ∀ (l : List (Nat × Nat)) (b : Bool) (s : State),
      l.foldl (fun a p =>
        let r := if isHostKey p.1 then a.2.dcReady (lineOf (p.1 - 2 ^ 64)) w (decide (p.2 = 64))
                 else if needsHome p.1 then a.2.homeReady 1536 (lineOf p.1) w else (true, a.2)
        (a.1 && r.1, r.2)) (b, { s with mem := m }) =
      (let x := l.foldl (fun a p =>
        let r := if isHostKey p.1 then a.2.dcReady (lineOf (p.1 - 2 ^ 64)) w (decide (p.2 = 64))
                 else if needsHome p.1 then a.2.homeReady 1536 (lineOf p.1) w else (true, a.2)
        (a.1 && r.1, r.2)) (b, s)
       (x.1, { x.2 with mem := m })) from h l true s
  intro l
  induction l with
  | nil => intro b s; rfl
  | cons p l ih =>
    intro b s
    simp only [List.foldl_cons, State.dcReady_mem, State.homeReady_mem]
    split
    · exact ih _ _
    · split
      · exact ih _ _
      · exact ih _ _

end Sys2Proof.Machine
end

