-- ==== Sys2Proof/Laws/State.lean ====
section
/-! SUPPORT. What each update of the state leaves: one lemma for each field and update, so that no proof unfolds an update,
and what is read back at the place written. -/

namespace Sys2Proof.Machine

/-! ### setCore -/

@[simp] theorem State.setCore_pending (s : State) (g : Nat) (c : Core) : (s.setCore g c).pending = s.pending := rfl
@[simp] theorem State.setCore_mem (s : State) (g : Nat) (c : Core) : (s.setCore g c).mem = s.mem := rfl
@[simp] theorem State.setCore_own (s : State) (g : Nat) (c : Core) : (s.setCore g c).own = s.own := rfl
@[simp] theorem State.setCore_fences (s : State) (g : Nat) (c : Core) : (s.setCore g c).fences = s.fences := rfl
@[simp] theorem State.setCore_regulators (s : State) (g : Nat) (c : Core) : (s.setCore g c).regulators = s.regulators := rfl
@[simp] theorem State.setCore_ctxs (s : State) (g : Nat) (c : Core) : (s.setCore g c).ctxs = s.ctxs := rfl
@[simp] theorem State.setCore_ctxGens (s : State) (g : Nat) (c : Core) : (s.setCore g c).ctxGens = s.ctxGens := rfl
@[simp] theorem State.setCore_fw (s : State) (g : Nat) (c : Core) : (s.setCore g c).fw = s.fw := rfl
@[simp] theorem State.setCore_xlt (s : State) (g : Nat) (c : Core) : (s.setCore g c).xlt = s.xlt := rfl
@[simp] theorem State.setCore_coh (s : State) (g : Nat) (c : Core) : (s.setCore g c).coh = s.coh := rfl
@[simp] theorem State.setCore_flt (s : State) (g : Nat) (c : Core) : (s.setCore g c).flt = s.flt := rfl
@[simp] theorem State.setCore_rings (s : State) (g : Nat) (c : Core) : (s.setCore g c).rings = s.rings := rfl
@[simp] theorem State.setCore_fns (s : State) (g : Nat) (c : Core) : (s.setCore g c).fns = s.fns := rfl
@[simp] theorem State.setCore_port (s : State) (g : Nat) (c : Core) : (s.setCore g c).port = s.port := rfl
@[simp] theorem State.setCore_srv (s : State) (g : Nat) (c : Core) : (s.setCore g c).srv = s.srv := rfl
@[simp] theorem State.setCore_finders (s : State) (g : Nat) (c : Core) : (s.setCore g c).finders = s.finders := rfl
@[simp] theorem State.setCore_joins (s : State) (g : Nat) (c : Core) : (s.setCore g c).joins = s.joins := rfl
@[simp] theorem State.setCore_issues (s : State) (g : Nat) (c : Core) : (s.setCore g c).issues = s.issues := rfl
@[simp] theorem State.setCore_exchanges (s : State) (g : Nat) (c : Core) : (s.setCore g c).exchanges = s.exchanges := rfl
@[simp] theorem State.setCore_sec (s : State) (g : Nat) (c : Core) : (s.setCore g c).sec = s.sec := rfl
@[simp] theorem State.setCore_pwr (s : State) (g : Nat) (c : Core) : (s.setCore g c).pwr = s.pwr := rfl
@[simp] theorem State.setCore_wkt (s : State) (g : Nat) (c : Core) : (s.setCore g c).wkt = s.wkt := rfl
@[simp] theorem State.setCore_boot (s : State) (g : Nat) (c : Core) : (s.setCore g c).boot = s.boot := rfl
@[simp] theorem State.setCore_mir (s : State) (g : Nat) (c : Core) : (s.setCore g c).mir = s.mir := rfl
@[simp] theorem State.setCore_out (s : State) (g : Nat) (c : Core) : (s.setCore g c).out = s.out := rfl
@[simp] theorem State.setCore_fresh (s : State) (g : Nat) (c : Core) : (s.setCore g c).fresh = s.fresh := rfl

/-! ### modCore -/

@[simp] theorem State.modCore_pending (s : State) (g : Nat) (f : Core → Core) : (s.modCore g f).pending = s.pending := rfl
@[simp] theorem State.modCore_mem (s : State) (g : Nat) (f : Core → Core) : (s.modCore g f).mem = s.mem := rfl
@[simp] theorem State.modCore_own (s : State) (g : Nat) (f : Core → Core) : (s.modCore g f).own = s.own := rfl
@[simp] theorem State.modCore_fences (s : State) (g : Nat) (f : Core → Core) : (s.modCore g f).fences = s.fences := rfl
@[simp] theorem State.modCore_regulators (s : State) (g : Nat) (f : Core → Core) : (s.modCore g f).regulators = s.regulators := rfl
@[simp] theorem State.modCore_ctxs (s : State) (g : Nat) (f : Core → Core) : (s.modCore g f).ctxs = s.ctxs := rfl
@[simp] theorem State.modCore_ctxGens (s : State) (g : Nat) (f : Core → Core) : (s.modCore g f).ctxGens = s.ctxGens := rfl
@[simp] theorem State.modCore_fw (s : State) (g : Nat) (f : Core → Core) : (s.modCore g f).fw = s.fw := rfl
@[simp] theorem State.modCore_xlt (s : State) (g : Nat) (f : Core → Core) : (s.modCore g f).xlt = s.xlt := rfl
@[simp] theorem State.modCore_coh (s : State) (g : Nat) (f : Core → Core) : (s.modCore g f).coh = s.coh := rfl
@[simp] theorem State.modCore_flt (s : State) (g : Nat) (f : Core → Core) : (s.modCore g f).flt = s.flt := rfl
@[simp] theorem State.modCore_rings (s : State) (g : Nat) (f : Core → Core) : (s.modCore g f).rings = s.rings := rfl
@[simp] theorem State.modCore_fns (s : State) (g : Nat) (f : Core → Core) : (s.modCore g f).fns = s.fns := rfl
@[simp] theorem State.modCore_port (s : State) (g : Nat) (f : Core → Core) : (s.modCore g f).port = s.port := rfl
@[simp] theorem State.modCore_srv (s : State) (g : Nat) (f : Core → Core) : (s.modCore g f).srv = s.srv := rfl
@[simp] theorem State.modCore_finders (s : State) (g : Nat) (f : Core → Core) : (s.modCore g f).finders = s.finders := rfl
@[simp] theorem State.modCore_joins (s : State) (g : Nat) (f : Core → Core) : (s.modCore g f).joins = s.joins := rfl
@[simp] theorem State.modCore_issues (s : State) (g : Nat) (f : Core → Core) : (s.modCore g f).issues = s.issues := rfl
@[simp] theorem State.modCore_exchanges (s : State) (g : Nat) (f : Core → Core) : (s.modCore g f).exchanges = s.exchanges := rfl
@[simp] theorem State.modCore_sec (s : State) (g : Nat) (f : Core → Core) : (s.modCore g f).sec = s.sec := rfl
@[simp] theorem State.modCore_pwr (s : State) (g : Nat) (f : Core → Core) : (s.modCore g f).pwr = s.pwr := rfl
@[simp] theorem State.modCore_wkt (s : State) (g : Nat) (f : Core → Core) : (s.modCore g f).wkt = s.wkt := rfl
@[simp] theorem State.modCore_boot (s : State) (g : Nat) (f : Core → Core) : (s.modCore g f).boot = s.boot := rfl
@[simp] theorem State.modCore_mir (s : State) (g : Nat) (f : Core → Core) : (s.modCore g f).mir = s.mir := rfl
@[simp] theorem State.modCore_out (s : State) (g : Nat) (f : Core → Core) : (s.modCore g f).out = s.out := rfl
@[simp] theorem State.modCore_fresh (s : State) (g : Nat) (f : Core → Core) : (s.modCore g f).fresh = s.fresh := rfl

/-! ### setCtx -/

@[simp] theorem State.setCtx_pending (s : State) (t : Nat) (c : Ctx) : (s.setCtx t c).pending = s.pending := rfl
@[simp] theorem State.setCtx_cores (s : State) (t : Nat) (c : Ctx) : (s.setCtx t c).cores = s.cores := rfl
@[simp] theorem State.setCtx_mem (s : State) (t : Nat) (c : Ctx) : (s.setCtx t c).mem = s.mem := rfl
@[simp] theorem State.setCtx_own (s : State) (t : Nat) (c : Ctx) : (s.setCtx t c).own = s.own := rfl
@[simp] theorem State.setCtx_fences (s : State) (t : Nat) (c : Ctx) : (s.setCtx t c).fences = s.fences := rfl
@[simp] theorem State.setCtx_regulators (s : State) (t : Nat) (c : Ctx) : (s.setCtx t c).regulators = s.regulators := rfl
@[simp] theorem State.setCtx_ctxGens (s : State) (t : Nat) (c : Ctx) : (s.setCtx t c).ctxGens = s.ctxGens := rfl
@[simp] theorem State.setCtx_fw (s : State) (t : Nat) (c : Ctx) : (s.setCtx t c).fw = s.fw := rfl
@[simp] theorem State.setCtx_xlt (s : State) (t : Nat) (c : Ctx) : (s.setCtx t c).xlt = s.xlt := rfl
@[simp] theorem State.setCtx_coh (s : State) (t : Nat) (c : Ctx) : (s.setCtx t c).coh = s.coh := rfl
@[simp] theorem State.setCtx_flt (s : State) (t : Nat) (c : Ctx) : (s.setCtx t c).flt = s.flt := rfl
@[simp] theorem State.setCtx_rings (s : State) (t : Nat) (c : Ctx) : (s.setCtx t c).rings = s.rings := rfl
@[simp] theorem State.setCtx_fns (s : State) (t : Nat) (c : Ctx) : (s.setCtx t c).fns = s.fns := rfl
@[simp] theorem State.setCtx_port (s : State) (t : Nat) (c : Ctx) : (s.setCtx t c).port = s.port := rfl
@[simp] theorem State.setCtx_srv (s : State) (t : Nat) (c : Ctx) : (s.setCtx t c).srv = s.srv := rfl
@[simp] theorem State.setCtx_finders (s : State) (t : Nat) (c : Ctx) : (s.setCtx t c).finders = s.finders := rfl
@[simp] theorem State.setCtx_joins (s : State) (t : Nat) (c : Ctx) : (s.setCtx t c).joins = s.joins := rfl
@[simp] theorem State.setCtx_issues (s : State) (t : Nat) (c : Ctx) : (s.setCtx t c).issues = s.issues := rfl
@[simp] theorem State.setCtx_exchanges (s : State) (t : Nat) (c : Ctx) : (s.setCtx t c).exchanges = s.exchanges := rfl
@[simp] theorem State.setCtx_sec (s : State) (t : Nat) (c : Ctx) : (s.setCtx t c).sec = s.sec := rfl
@[simp] theorem State.setCtx_pwr (s : State) (t : Nat) (c : Ctx) : (s.setCtx t c).pwr = s.pwr := rfl
@[simp] theorem State.setCtx_wkt (s : State) (t : Nat) (c : Ctx) : (s.setCtx t c).wkt = s.wkt := rfl
@[simp] theorem State.setCtx_boot (s : State) (t : Nat) (c : Ctx) : (s.setCtx t c).boot = s.boot := rfl
@[simp] theorem State.setCtx_mir (s : State) (t : Nat) (c : Ctx) : (s.setCtx t c).mir = s.mir := rfl
@[simp] theorem State.setCtx_out (s : State) (t : Nat) (c : Ctx) : (s.setCtx t c).out = s.out := rfl
@[simp] theorem State.setCtx_fresh (s : State) (t : Nat) (c : Ctx) : (s.setCtx t c).fresh = s.fresh := rfl

/-! ### setFn -/

@[simp] theorem State.setFn_pending (s : State) (f : Nat) (x : Fn) : (s.setFn f x).pending = s.pending := rfl
@[simp] theorem State.setFn_cores (s : State) (f : Nat) (x : Fn) : (s.setFn f x).cores = s.cores := rfl
@[simp] theorem State.setFn_mem (s : State) (f : Nat) (x : Fn) : (s.setFn f x).mem = s.mem := rfl
@[simp] theorem State.setFn_own (s : State) (f : Nat) (x : Fn) : (s.setFn f x).own = s.own := rfl
@[simp] theorem State.setFn_fences (s : State) (f : Nat) (x : Fn) : (s.setFn f x).fences = s.fences := rfl
@[simp] theorem State.setFn_regulators (s : State) (f : Nat) (x : Fn) : (s.setFn f x).regulators = s.regulators := rfl
@[simp] theorem State.setFn_ctxs (s : State) (f : Nat) (x : Fn) : (s.setFn f x).ctxs = s.ctxs := rfl
@[simp] theorem State.setFn_ctxGens (s : State) (f : Nat) (x : Fn) : (s.setFn f x).ctxGens = s.ctxGens := rfl
@[simp] theorem State.setFn_fw (s : State) (f : Nat) (x : Fn) : (s.setFn f x).fw = s.fw := rfl
@[simp] theorem State.setFn_xlt (s : State) (f : Nat) (x : Fn) : (s.setFn f x).xlt = s.xlt := rfl
@[simp] theorem State.setFn_coh (s : State) (f : Nat) (x : Fn) : (s.setFn f x).coh = s.coh := rfl
@[simp] theorem State.setFn_flt (s : State) (f : Nat) (x : Fn) : (s.setFn f x).flt = s.flt := rfl
@[simp] theorem State.setFn_rings (s : State) (f : Nat) (x : Fn) : (s.setFn f x).rings = s.rings := rfl
@[simp] theorem State.setFn_port (s : State) (f : Nat) (x : Fn) : (s.setFn f x).port = s.port := rfl
@[simp] theorem State.setFn_srv (s : State) (f : Nat) (x : Fn) : (s.setFn f x).srv = s.srv := rfl
@[simp] theorem State.setFn_finders (s : State) (f : Nat) (x : Fn) : (s.setFn f x).finders = s.finders := rfl
@[simp] theorem State.setFn_joins (s : State) (f : Nat) (x : Fn) : (s.setFn f x).joins = s.joins := rfl
@[simp] theorem State.setFn_issues (s : State) (f : Nat) (x : Fn) : (s.setFn f x).issues = s.issues := rfl
@[simp] theorem State.setFn_exchanges (s : State) (f : Nat) (x : Fn) : (s.setFn f x).exchanges = s.exchanges := rfl
@[simp] theorem State.setFn_sec (s : State) (f : Nat) (x : Fn) : (s.setFn f x).sec = s.sec := rfl
@[simp] theorem State.setFn_pwr (s : State) (f : Nat) (x : Fn) : (s.setFn f x).pwr = s.pwr := rfl
@[simp] theorem State.setFn_wkt (s : State) (f : Nat) (x : Fn) : (s.setFn f x).wkt = s.wkt := rfl
@[simp] theorem State.setFn_boot (s : State) (f : Nat) (x : Fn) : (s.setFn f x).boot = s.boot := rfl
@[simp] theorem State.setFn_mir (s : State) (f : Nat) (x : Fn) : (s.setFn f x).mir = s.mir := rfl
@[simp] theorem State.setFn_out (s : State) (f : Nat) (x : Fn) : (s.setFn f x).out = s.out := rfl
@[simp] theorem State.setFn_fresh (s : State) (f : Nat) (x : Fn) : (s.setFn f x).fresh = s.fresh := rfl

/-! ### setRing -/

@[simp] theorem State.setRing_pending (s : State) (f r : Nat) (x : Ring) : (s.setRing f r x).pending = s.pending := rfl
@[simp] theorem State.setRing_cores (s : State) (f r : Nat) (x : Ring) : (s.setRing f r x).cores = s.cores := rfl
@[simp] theorem State.setRing_mem (s : State) (f r : Nat) (x : Ring) : (s.setRing f r x).mem = s.mem := rfl
@[simp] theorem State.setRing_own (s : State) (f r : Nat) (x : Ring) : (s.setRing f r x).own = s.own := rfl
@[simp] theorem State.setRing_fences (s : State) (f r : Nat) (x : Ring) : (s.setRing f r x).fences = s.fences := rfl
@[simp] theorem State.setRing_regulators (s : State) (f r : Nat) (x : Ring) : (s.setRing f r x).regulators = s.regulators := rfl
@[simp] theorem State.setRing_ctxs (s : State) (f r : Nat) (x : Ring) : (s.setRing f r x).ctxs = s.ctxs := rfl
@[simp] theorem State.setRing_ctxGens (s : State) (f r : Nat) (x : Ring) : (s.setRing f r x).ctxGens = s.ctxGens := rfl
@[simp] theorem State.setRing_fw (s : State) (f r : Nat) (x : Ring) : (s.setRing f r x).fw = s.fw := rfl
@[simp] theorem State.setRing_xlt (s : State) (f r : Nat) (x : Ring) : (s.setRing f r x).xlt = s.xlt := rfl
@[simp] theorem State.setRing_coh (s : State) (f r : Nat) (x : Ring) : (s.setRing f r x).coh = s.coh := rfl
@[simp] theorem State.setRing_flt (s : State) (f r : Nat) (x : Ring) : (s.setRing f r x).flt = s.flt := rfl
@[simp] theorem State.setRing_fns (s : State) (f r : Nat) (x : Ring) : (s.setRing f r x).fns = s.fns := rfl
@[simp] theorem State.setRing_port (s : State) (f r : Nat) (x : Ring) : (s.setRing f r x).port = s.port := rfl
@[simp] theorem State.setRing_srv (s : State) (f r : Nat) (x : Ring) : (s.setRing f r x).srv = s.srv := rfl
@[simp] theorem State.setRing_finders (s : State) (f r : Nat) (x : Ring) : (s.setRing f r x).finders = s.finders := rfl
@[simp] theorem State.setRing_joins (s : State) (f r : Nat) (x : Ring) : (s.setRing f r x).joins = s.joins := rfl
@[simp] theorem State.setRing_issues (s : State) (f r : Nat) (x : Ring) : (s.setRing f r x).issues = s.issues := rfl
@[simp] theorem State.setRing_exchanges (s : State) (f r : Nat) (x : Ring) : (s.setRing f r x).exchanges = s.exchanges := rfl
@[simp] theorem State.setRing_sec (s : State) (f r : Nat) (x : Ring) : (s.setRing f r x).sec = s.sec := rfl
@[simp] theorem State.setRing_pwr (s : State) (f r : Nat) (x : Ring) : (s.setRing f r x).pwr = s.pwr := rfl
@[simp] theorem State.setRing_wkt (s : State) (f r : Nat) (x : Ring) : (s.setRing f r x).wkt = s.wkt := rfl
@[simp] theorem State.setRing_boot (s : State) (f r : Nat) (x : Ring) : (s.setRing f r x).boot = s.boot := rfl
@[simp] theorem State.setRing_mir (s : State) (f r : Nat) (x : Ring) : (s.setRing f r x).mir = s.mir := rfl
@[simp] theorem State.setRing_out (s : State) (f r : Nat) (x : Ring) : (s.setRing f r x).out = s.out := rfl
@[simp] theorem State.setRing_fresh (s : State) (f r : Nat) (x : Ring) : (s.setRing f r x).fresh = s.fresh := rfl

/-! ### send -/

@[simp] theorem State.send_pending (s : State) (m : OutMsg) : (s.send m).pending = s.pending := rfl
@[simp] theorem State.send_cores (s : State) (m : OutMsg) : (s.send m).cores = s.cores := rfl
@[simp] theorem State.send_mem (s : State) (m : OutMsg) : (s.send m).mem = s.mem := rfl
@[simp] theorem State.send_own (s : State) (m : OutMsg) : (s.send m).own = s.own := rfl
@[simp] theorem State.send_fences (s : State) (m : OutMsg) : (s.send m).fences = s.fences := rfl
@[simp] theorem State.send_regulators (s : State) (m : OutMsg) : (s.send m).regulators = s.regulators := rfl
@[simp] theorem State.send_ctxs (s : State) (m : OutMsg) : (s.send m).ctxs = s.ctxs := rfl
@[simp] theorem State.send_ctxGens (s : State) (m : OutMsg) : (s.send m).ctxGens = s.ctxGens := rfl
@[simp] theorem State.send_fw (s : State) (m : OutMsg) : (s.send m).fw = s.fw := rfl
@[simp] theorem State.send_xlt (s : State) (m : OutMsg) : (s.send m).xlt = s.xlt := rfl
@[simp] theorem State.send_coh (s : State) (m : OutMsg) : (s.send m).coh = s.coh := rfl
@[simp] theorem State.send_flt (s : State) (m : OutMsg) : (s.send m).flt = s.flt := rfl
@[simp] theorem State.send_rings (s : State) (m : OutMsg) : (s.send m).rings = s.rings := rfl
@[simp] theorem State.send_fns (s : State) (m : OutMsg) : (s.send m).fns = s.fns := rfl
@[simp] theorem State.send_port (s : State) (m : OutMsg) : (s.send m).port = s.port := rfl
@[simp] theorem State.send_srv (s : State) (m : OutMsg) : (s.send m).srv = s.srv := rfl
@[simp] theorem State.send_finders (s : State) (m : OutMsg) : (s.send m).finders = s.finders := rfl
@[simp] theorem State.send_joins (s : State) (m : OutMsg) : (s.send m).joins = s.joins := rfl
@[simp] theorem State.send_issues (s : State) (m : OutMsg) : (s.send m).issues = s.issues := rfl
@[simp] theorem State.send_exchanges (s : State) (m : OutMsg) : (s.send m).exchanges = s.exchanges := rfl
@[simp] theorem State.send_sec (s : State) (m : OutMsg) : (s.send m).sec = s.sec := rfl
@[simp] theorem State.send_pwr (s : State) (m : OutMsg) : (s.send m).pwr = s.pwr := rfl
@[simp] theorem State.send_wkt (s : State) (m : OutMsg) : (s.send m).wkt = s.wkt := rfl
@[simp] theorem State.send_boot (s : State) (m : OutMsg) : (s.send m).boot = s.boot := rfl
@[simp] theorem State.send_mir (s : State) (m : OutMsg) : (s.send m).mir = s.mir := rfl
@[simp] theorem State.send_out (s : State) (m : OutMsg) : (s.send m).out = s.out ++ [m] := rfl
@[simp] theorem State.send_fresh (s : State) (m : OutMsg) : (s.send m).fresh = s.fresh := rfl

/-! ### draw -/

@[simp] theorem State.draw_pending (s : State) : (s.draw.2).pending = s.pending := rfl
@[simp] theorem State.draw_cores (s : State) : (s.draw.2).cores = s.cores := rfl
@[simp] theorem State.draw_mem (s : State) : (s.draw.2).mem = s.mem := rfl
@[simp] theorem State.draw_own (s : State) : (s.draw.2).own = s.own := rfl
@[simp] theorem State.draw_fences (s : State) : (s.draw.2).fences = s.fences := rfl
@[simp] theorem State.draw_regulators (s : State) : (s.draw.2).regulators = s.regulators := rfl
@[simp] theorem State.draw_ctxs (s : State) : (s.draw.2).ctxs = s.ctxs := rfl
@[simp] theorem State.draw_ctxGens (s : State) : (s.draw.2).ctxGens = s.ctxGens := rfl
@[simp] theorem State.draw_fw (s : State) : (s.draw.2).fw = s.fw := rfl
@[simp] theorem State.draw_xlt (s : State) : (s.draw.2).xlt = s.xlt := rfl
@[simp] theorem State.draw_coh (s : State) : (s.draw.2).coh = s.coh := rfl
@[simp] theorem State.draw_flt (s : State) : (s.draw.2).flt = s.flt := rfl
@[simp] theorem State.draw_rings (s : State) : (s.draw.2).rings = s.rings := rfl
@[simp] theorem State.draw_fns (s : State) : (s.draw.2).fns = s.fns := rfl
@[simp] theorem State.draw_port (s : State) : (s.draw.2).port = s.port := rfl
@[simp] theorem State.draw_srv (s : State) : (s.draw.2).srv = s.srv := rfl
@[simp] theorem State.draw_finders (s : State) : (s.draw.2).finders = s.finders := rfl
@[simp] theorem State.draw_joins (s : State) : (s.draw.2).joins = s.joins := rfl
@[simp] theorem State.draw_issues (s : State) : (s.draw.2).issues = s.issues := rfl
@[simp] theorem State.draw_exchanges (s : State) : (s.draw.2).exchanges = s.exchanges := rfl
@[simp] theorem State.draw_sec (s : State) : (s.draw.2).sec = s.sec := rfl
@[simp] theorem State.draw_pwr (s : State) : (s.draw.2).pwr = s.pwr := rfl
@[simp] theorem State.draw_wkt (s : State) : (s.draw.2).wkt = s.wkt := rfl
@[simp] theorem State.draw_boot (s : State) : (s.draw.2).boot = s.boot := rfl
@[simp] theorem State.draw_mir (s : State) : (s.draw.2).mir = s.mir := rfl
@[simp] theorem State.draw_out (s : State) : (s.draw.2).out = s.out := rfl
@[simp] theorem State.draw_fresh (s : State) : (s.draw.2).fresh = s.fresh + 1 := rfl

/-! ### report -/

@[simp] theorem State.report_pending (s : State) (e : FaultEvent) : (s.report e).pending = s.pending := rfl
@[simp] theorem State.report_cores (s : State) (e : FaultEvent) : (s.report e).cores = s.cores := rfl
@[simp] theorem State.report_mem (s : State) (e : FaultEvent) : (s.report e).mem = s.mem := rfl
@[simp] theorem State.report_own (s : State) (e : FaultEvent) : (s.report e).own = s.own := rfl
@[simp] theorem State.report_fences (s : State) (e : FaultEvent) : (s.report e).fences = s.fences := rfl
@[simp] theorem State.report_regulators (s : State) (e : FaultEvent) : (s.report e).regulators = s.regulators := rfl
@[simp] theorem State.report_ctxs (s : State) (e : FaultEvent) : (s.report e).ctxs = s.ctxs := rfl
@[simp] theorem State.report_ctxGens (s : State) (e : FaultEvent) : (s.report e).ctxGens = s.ctxGens := rfl
@[simp] theorem State.report_fw (s : State) (e : FaultEvent) : (s.report e).fw = s.fw := rfl
@[simp] theorem State.report_xlt (s : State) (e : FaultEvent) : (s.report e).xlt = s.xlt := rfl
@[simp] theorem State.report_coh (s : State) (e : FaultEvent) : (s.report e).coh = s.coh := rfl
@[simp] theorem State.report_rings (s : State) (e : FaultEvent) : (s.report e).rings = s.rings := rfl
@[simp] theorem State.report_fns (s : State) (e : FaultEvent) : (s.report e).fns = s.fns := rfl
@[simp] theorem State.report_port (s : State) (e : FaultEvent) : (s.report e).port = s.port := rfl
@[simp] theorem State.report_srv (s : State) (e : FaultEvent) : (s.report e).srv = s.srv := rfl
@[simp] theorem State.report_finders (s : State) (e : FaultEvent) : (s.report e).finders = s.finders := rfl
@[simp] theorem State.report_joins (s : State) (e : FaultEvent) : (s.report e).joins = s.joins := rfl
@[simp] theorem State.report_issues (s : State) (e : FaultEvent) : (s.report e).issues = s.issues := rfl
@[simp] theorem State.report_exchanges (s : State) (e : FaultEvent) : (s.report e).exchanges = s.exchanges := rfl
@[simp] theorem State.report_sec (s : State) (e : FaultEvent) : (s.report e).sec = s.sec := rfl
@[simp] theorem State.report_pwr (s : State) (e : FaultEvent) : (s.report e).pwr = s.pwr := rfl
@[simp] theorem State.report_wkt (s : State) (e : FaultEvent) : (s.report e).wkt = s.wkt := rfl
@[simp] theorem State.report_boot (s : State) (e : FaultEvent) : (s.report e).boot = s.boot := rfl
@[simp] theorem State.report_mir (s : State) (e : FaultEvent) : (s.report e).mir = s.mir := rfl
@[simp] theorem State.report_out (s : State) (e : FaultEvent) : (s.report e).out = s.out := rfl
@[simp] theorem State.report_fresh (s : State) (e : FaultEvent) : (s.report e).fresh = s.fresh := rfl

/-! ### setSlots -/

@[simp] theorem State.setSlots_pending (s : State) (cl : Nat) (l : List Nat) : (s.setSlots cl l).pending = s.pending := rfl
@[simp] theorem State.setSlots_cores (s : State) (cl : Nat) (l : List Nat) : (s.setSlots cl l).cores = s.cores := rfl
@[simp] theorem State.setSlots_mem (s : State) (cl : Nat) (l : List Nat) : (s.setSlots cl l).mem = s.mem := rfl
@[simp] theorem State.setSlots_own (s : State) (cl : Nat) (l : List Nat) : (s.setSlots cl l).own = s.own := rfl
@[simp] theorem State.setSlots_fences (s : State) (cl : Nat) (l : List Nat) : (s.setSlots cl l).fences = s.fences := rfl
@[simp] theorem State.setSlots_regulators (s : State) (cl : Nat) (l : List Nat) : (s.setSlots cl l).regulators = s.regulators := rfl
@[simp] theorem State.setSlots_ctxs (s : State) (cl : Nat) (l : List Nat) : (s.setSlots cl l).ctxs = s.ctxs := rfl
@[simp] theorem State.setSlots_ctxGens (s : State) (cl : Nat) (l : List Nat) : (s.setSlots cl l).ctxGens = s.ctxGens := rfl
@[simp] theorem State.setSlots_fw (s : State) (cl : Nat) (l : List Nat) : (s.setSlots cl l).fw = s.fw := rfl
@[simp] theorem State.setSlots_xlt (s : State) (cl : Nat) (l : List Nat) : (s.setSlots cl l).xlt = s.xlt := rfl
@[simp] theorem State.setSlots_coh (s : State) (cl : Nat) (l : List Nat) : (s.setSlots cl l).coh = s.coh := rfl
@[simp] theorem State.setSlots_flt (s : State) (cl : Nat) (l : List Nat) : (s.setSlots cl l).flt = s.flt := rfl
@[simp] theorem State.setSlots_rings (s : State) (cl : Nat) (l : List Nat) : (s.setSlots cl l).rings = s.rings := rfl
@[simp] theorem State.setSlots_fns (s : State) (cl : Nat) (l : List Nat) : (s.setSlots cl l).fns = s.fns := rfl
@[simp] theorem State.setSlots_port (s : State) (cl : Nat) (l : List Nat) : (s.setSlots cl l).port = s.port := rfl
@[simp] theorem State.setSlots_srv (s : State) (cl : Nat) (l : List Nat) : (s.setSlots cl l).srv = s.srv := rfl
@[simp] theorem State.setSlots_finders (s : State) (cl : Nat) (l : List Nat) : (s.setSlots cl l).finders = s.finders := rfl
@[simp] theorem State.setSlots_joins (s : State) (cl : Nat) (l : List Nat) : (s.setSlots cl l).joins = s.joins := rfl
@[simp] theorem State.setSlots_issues (s : State) (cl : Nat) (l : List Nat) : (s.setSlots cl l).issues = s.issues := rfl
@[simp] theorem State.setSlots_exchanges (s : State) (cl : Nat) (l : List Nat) : (s.setSlots cl l).exchanges = s.exchanges := rfl
@[simp] theorem State.setSlots_sec (s : State) (cl : Nat) (l : List Nat) : (s.setSlots cl l).sec = s.sec := rfl
@[simp] theorem State.setSlots_pwr (s : State) (cl : Nat) (l : List Nat) : (s.setSlots cl l).pwr = s.pwr := rfl
@[simp] theorem State.setSlots_boot (s : State) (cl : Nat) (l : List Nat) : (s.setSlots cl l).boot = s.boot := rfl
@[simp] theorem State.setSlots_mir (s : State) (cl : Nat) (l : List Nat) : (s.setSlots cl l).mir = s.mir := rfl
@[simp] theorem State.setSlots_out (s : State) (cl : Nat) (l : List Nat) : (s.setSlots cl l).out = s.out := rfl
@[simp] theorem State.setSlots_fresh (s : State) (cl : Nat) (l : List Nat) : (s.setSlots cl l).fresh = s.fresh := rfl

/-! ### unwait -/

@[simp] theorem State.unwait_pending (s : State) (who : Waiter) (va : Nat) : (s.unwait who va).pending = s.pending := rfl
@[simp] theorem State.unwait_cores (s : State) (who : Waiter) (va : Nat) : (s.unwait who va).cores = s.cores := rfl
@[simp] theorem State.unwait_mem (s : State) (who : Waiter) (va : Nat) : (s.unwait who va).mem = s.mem := rfl
@[simp] theorem State.unwait_own (s : State) (who : Waiter) (va : Nat) : (s.unwait who va).own = s.own := rfl
@[simp] theorem State.unwait_fences (s : State) (who : Waiter) (va : Nat) : (s.unwait who va).fences = s.fences := rfl
@[simp] theorem State.unwait_regulators (s : State) (who : Waiter) (va : Nat) : (s.unwait who va).regulators = s.regulators := rfl
@[simp] theorem State.unwait_ctxs (s : State) (who : Waiter) (va : Nat) : (s.unwait who va).ctxs = s.ctxs := rfl
@[simp] theorem State.unwait_ctxGens (s : State) (who : Waiter) (va : Nat) : (s.unwait who va).ctxGens = s.ctxGens := rfl
@[simp] theorem State.unwait_fw (s : State) (who : Waiter) (va : Nat) : (s.unwait who va).fw = s.fw := rfl
@[simp] theorem State.unwait_coh (s : State) (who : Waiter) (va : Nat) : (s.unwait who va).coh = s.coh := rfl
@[simp] theorem State.unwait_flt (s : State) (who : Waiter) (va : Nat) : (s.unwait who va).flt = s.flt := rfl
@[simp] theorem State.unwait_rings (s : State) (who : Waiter) (va : Nat) : (s.unwait who va).rings = s.rings := rfl
@[simp] theorem State.unwait_fns (s : State) (who : Waiter) (va : Nat) : (s.unwait who va).fns = s.fns := rfl
@[simp] theorem State.unwait_port (s : State) (who : Waiter) (va : Nat) : (s.unwait who va).port = s.port := rfl
@[simp] theorem State.unwait_srv (s : State) (who : Waiter) (va : Nat) : (s.unwait who va).srv = s.srv := rfl
@[simp] theorem State.unwait_finders (s : State) (who : Waiter) (va : Nat) : (s.unwait who va).finders = s.finders := rfl
@[simp] theorem State.unwait_joins (s : State) (who : Waiter) (va : Nat) : (s.unwait who va).joins = s.joins := rfl
@[simp] theorem State.unwait_issues (s : State) (who : Waiter) (va : Nat) : (s.unwait who va).issues = s.issues := rfl
@[simp] theorem State.unwait_exchanges (s : State) (who : Waiter) (va : Nat) : (s.unwait who va).exchanges = s.exchanges := rfl
@[simp] theorem State.unwait_sec (s : State) (who : Waiter) (va : Nat) : (s.unwait who va).sec = s.sec := rfl
@[simp] theorem State.unwait_pwr (s : State) (who : Waiter) (va : Nat) : (s.unwait who va).pwr = s.pwr := rfl
@[simp] theorem State.unwait_wkt (s : State) (who : Waiter) (va : Nat) : (s.unwait who va).wkt = s.wkt := rfl
@[simp] theorem State.unwait_boot (s : State) (who : Waiter) (va : Nat) : (s.unwait who va).boot = s.boot := rfl
@[simp] theorem State.unwait_mir (s : State) (who : Waiter) (va : Nat) : (s.unwait who va).mir = s.mir := rfl
@[simp] theorem State.unwait_out (s : State) (who : Waiter) (va : Nat) : (s.unwait who va).out = s.out := rfl
@[simp] theorem State.unwait_fresh (s : State) (who : Waiter) (va : Nat) : (s.unwait who va).fresh = s.fresh := rfl

/-! ### dropIo -/

@[simp] theorem State.dropIo_pending (s : State) (who : Waiter) : (s.dropIo who).pending = s.pending := rfl
@[simp] theorem State.dropIo_cores (s : State) (who : Waiter) : (s.dropIo who).cores = s.cores := rfl
@[simp] theorem State.dropIo_mem (s : State) (who : Waiter) : (s.dropIo who).mem = s.mem := rfl
@[simp] theorem State.dropIo_own (s : State) (who : Waiter) : (s.dropIo who).own = s.own := rfl
@[simp] theorem State.dropIo_fences (s : State) (who : Waiter) : (s.dropIo who).fences = s.fences := rfl
@[simp] theorem State.dropIo_regulators (s : State) (who : Waiter) : (s.dropIo who).regulators = s.regulators := rfl
@[simp] theorem State.dropIo_ctxs (s : State) (who : Waiter) : (s.dropIo who).ctxs = s.ctxs := rfl
@[simp] theorem State.dropIo_ctxGens (s : State) (who : Waiter) : (s.dropIo who).ctxGens = s.ctxGens := rfl
@[simp] theorem State.dropIo_fw (s : State) (who : Waiter) : (s.dropIo who).fw = s.fw := rfl
@[simp] theorem State.dropIo_xlt (s : State) (who : Waiter) : (s.dropIo who).xlt = s.xlt := rfl
@[simp] theorem State.dropIo_coh (s : State) (who : Waiter) : (s.dropIo who).coh = s.coh := rfl
@[simp] theorem State.dropIo_flt (s : State) (who : Waiter) : (s.dropIo who).flt = s.flt := rfl
@[simp] theorem State.dropIo_rings (s : State) (who : Waiter) : (s.dropIo who).rings = s.rings := rfl
@[simp] theorem State.dropIo_fns (s : State) (who : Waiter) : (s.dropIo who).fns = s.fns := rfl
@[simp] theorem State.dropIo_srv (s : State) (who : Waiter) : (s.dropIo who).srv = s.srv := rfl
@[simp] theorem State.dropIo_finders (s : State) (who : Waiter) : (s.dropIo who).finders = s.finders := rfl
@[simp] theorem State.dropIo_joins (s : State) (who : Waiter) : (s.dropIo who).joins = s.joins := rfl
@[simp] theorem State.dropIo_issues (s : State) (who : Waiter) : (s.dropIo who).issues = s.issues := rfl
@[simp] theorem State.dropIo_exchanges (s : State) (who : Waiter) : (s.dropIo who).exchanges = s.exchanges := rfl
@[simp] theorem State.dropIo_sec (s : State) (who : Waiter) : (s.dropIo who).sec = s.sec := rfl
@[simp] theorem State.dropIo_pwr (s : State) (who : Waiter) : (s.dropIo who).pwr = s.pwr := rfl
@[simp] theorem State.dropIo_wkt (s : State) (who : Waiter) : (s.dropIo who).wkt = s.wkt := rfl
@[simp] theorem State.dropIo_boot (s : State) (who : Waiter) : (s.dropIo who).boot = s.boot := rfl
@[simp] theorem State.dropIo_mir (s : State) (who : Waiter) : (s.dropIo who).mir = s.mir := rfl
@[simp] theorem State.dropIo_out (s : State) (who : Waiter) : (s.dropIo who).out = s.out := rfl
@[simp] theorem State.dropIo_fresh (s : State) (who : Waiter) : (s.dropIo who).fresh = s.fresh := rfl

/-! ### modRegulator -/

@[simp] theorem State.modRegulator_pending (s : State) (i : Nat) (f : Regulator → Regulator) : (s.modRegulator i f).pending = s.pending := rfl
@[simp] theorem State.modRegulator_cores (s : State) (i : Nat) (f : Regulator → Regulator) : (s.modRegulator i f).cores = s.cores := rfl
@[simp] theorem State.modRegulator_mem (s : State) (i : Nat) (f : Regulator → Regulator) : (s.modRegulator i f).mem = s.mem := rfl
@[simp] theorem State.modRegulator_own (s : State) (i : Nat) (f : Regulator → Regulator) : (s.modRegulator i f).own = s.own := rfl
@[simp] theorem State.modRegulator_fences (s : State) (i : Nat) (f : Regulator → Regulator) : (s.modRegulator i f).fences = s.fences := rfl
@[simp] theorem State.modRegulator_ctxs (s : State) (i : Nat) (f : Regulator → Regulator) : (s.modRegulator i f).ctxs = s.ctxs := rfl
@[simp] theorem State.modRegulator_ctxGens (s : State) (i : Nat) (f : Regulator → Regulator) : (s.modRegulator i f).ctxGens = s.ctxGens := rfl
@[simp] theorem State.modRegulator_fw (s : State) (i : Nat) (f : Regulator → Regulator) : (s.modRegulator i f).fw = s.fw := rfl
@[simp] theorem State.modRegulator_xlt (s : State) (i : Nat) (f : Regulator → Regulator) : (s.modRegulator i f).xlt = s.xlt := rfl
@[simp] theorem State.modRegulator_coh (s : State) (i : Nat) (f : Regulator → Regulator) : (s.modRegulator i f).coh = s.coh := rfl
@[simp] theorem State.modRegulator_flt (s : State) (i : Nat) (f : Regulator → Regulator) : (s.modRegulator i f).flt = s.flt := rfl
@[simp] theorem State.modRegulator_rings (s : State) (i : Nat) (f : Regulator → Regulator) : (s.modRegulator i f).rings = s.rings := rfl
@[simp] theorem State.modRegulator_fns (s : State) (i : Nat) (f : Regulator → Regulator) : (s.modRegulator i f).fns = s.fns := rfl
@[simp] theorem State.modRegulator_port (s : State) (i : Nat) (f : Regulator → Regulator) : (s.modRegulator i f).port = s.port := rfl
@[simp] theorem State.modRegulator_srv (s : State) (i : Nat) (f : Regulator → Regulator) : (s.modRegulator i f).srv = s.srv := rfl
@[simp] theorem State.modRegulator_finders (s : State) (i : Nat) (f : Regulator → Regulator) : (s.modRegulator i f).finders = s.finders := rfl
@[simp] theorem State.modRegulator_joins (s : State) (i : Nat) (f : Regulator → Regulator) : (s.modRegulator i f).joins = s.joins := rfl
@[simp] theorem State.modRegulator_issues (s : State) (i : Nat) (f : Regulator → Regulator) : (s.modRegulator i f).issues = s.issues := rfl
@[simp] theorem State.modRegulator_exchanges (s : State) (i : Nat) (f : Regulator → Regulator) : (s.modRegulator i f).exchanges = s.exchanges := rfl
@[simp] theorem State.modRegulator_sec (s : State) (i : Nat) (f : Regulator → Regulator) : (s.modRegulator i f).sec = s.sec := rfl
@[simp] theorem State.modRegulator_pwr (s : State) (i : Nat) (f : Regulator → Regulator) : (s.modRegulator i f).pwr = s.pwr := rfl
@[simp] theorem State.modRegulator_wkt (s : State) (i : Nat) (f : Regulator → Regulator) : (s.modRegulator i f).wkt = s.wkt := rfl
@[simp] theorem State.modRegulator_boot (s : State) (i : Nat) (f : Regulator → Regulator) : (s.modRegulator i f).boot = s.boot := rfl
@[simp] theorem State.modRegulator_mir (s : State) (i : Nat) (f : Regulator → Regulator) : (s.modRegulator i f).mir = s.mir := rfl
@[simp] theorem State.modRegulator_out (s : State) (i : Nat) (f : Regulator → Regulator) : (s.modRegulator i f).out = s.out := rfl
@[simp] theorem State.modRegulator_fresh (s : State) (i : Nat) (f : Regulator → Regulator) : (s.modRegulator i f).fresh = s.fresh := rfl

/-! ### setFinder -/

@[simp] theorem State.setFinder_pending (s : State) (d : Nat) (x : Finder) : (s.setFinder d x).pending = s.pending := rfl
@[simp] theorem State.setFinder_cores (s : State) (d : Nat) (x : Finder) : (s.setFinder d x).cores = s.cores := rfl
@[simp] theorem State.setFinder_mem (s : State) (d : Nat) (x : Finder) : (s.setFinder d x).mem = s.mem := rfl
@[simp] theorem State.setFinder_own (s : State) (d : Nat) (x : Finder) : (s.setFinder d x).own = s.own := rfl
@[simp] theorem State.setFinder_fences (s : State) (d : Nat) (x : Finder) : (s.setFinder d x).fences = s.fences := rfl
@[simp] theorem State.setFinder_regulators (s : State) (d : Nat) (x : Finder) : (s.setFinder d x).regulators = s.regulators := rfl
@[simp] theorem State.setFinder_ctxs (s : State) (d : Nat) (x : Finder) : (s.setFinder d x).ctxs = s.ctxs := rfl
@[simp] theorem State.setFinder_ctxGens (s : State) (d : Nat) (x : Finder) : (s.setFinder d x).ctxGens = s.ctxGens := rfl
@[simp] theorem State.setFinder_fw (s : State) (d : Nat) (x : Finder) : (s.setFinder d x).fw = s.fw := rfl
@[simp] theorem State.setFinder_xlt (s : State) (d : Nat) (x : Finder) : (s.setFinder d x).xlt = s.xlt := rfl
@[simp] theorem State.setFinder_coh (s : State) (d : Nat) (x : Finder) : (s.setFinder d x).coh = s.coh := rfl
@[simp] theorem State.setFinder_flt (s : State) (d : Nat) (x : Finder) : (s.setFinder d x).flt = s.flt := rfl
@[simp] theorem State.setFinder_rings (s : State) (d : Nat) (x : Finder) : (s.setFinder d x).rings = s.rings := rfl
@[simp] theorem State.setFinder_fns (s : State) (d : Nat) (x : Finder) : (s.setFinder d x).fns = s.fns := rfl
@[simp] theorem State.setFinder_port (s : State) (d : Nat) (x : Finder) : (s.setFinder d x).port = s.port := rfl
@[simp] theorem State.setFinder_srv (s : State) (d : Nat) (x : Finder) : (s.setFinder d x).srv = s.srv := rfl
@[simp] theorem State.setFinder_joins (s : State) (d : Nat) (x : Finder) : (s.setFinder d x).joins = s.joins := rfl
@[simp] theorem State.setFinder_issues (s : State) (d : Nat) (x : Finder) : (s.setFinder d x).issues = s.issues := rfl
@[simp] theorem State.setFinder_exchanges (s : State) (d : Nat) (x : Finder) : (s.setFinder d x).exchanges = s.exchanges := rfl
@[simp] theorem State.setFinder_sec (s : State) (d : Nat) (x : Finder) : (s.setFinder d x).sec = s.sec := rfl
@[simp] theorem State.setFinder_pwr (s : State) (d : Nat) (x : Finder) : (s.setFinder d x).pwr = s.pwr := rfl
@[simp] theorem State.setFinder_wkt (s : State) (d : Nat) (x : Finder) : (s.setFinder d x).wkt = s.wkt := rfl
@[simp] theorem State.setFinder_boot (s : State) (d : Nat) (x : Finder) : (s.setFinder d x).boot = s.boot := rfl
@[simp] theorem State.setFinder_mir (s : State) (d : Nat) (x : Finder) : (s.setFinder d x).mir = s.mir := rfl
@[simp] theorem State.setFinder_out (s : State) (d : Nat) (x : Finder) : (s.setFinder d x).out = s.out := rfl
@[simp] theorem State.setFinder_fresh (s : State) (d : Nat) (x : Finder) : (s.setFinder d x).fresh = s.fresh := rfl

/-! ### loseResv -/

@[simp] theorem State.loseResv_pending (s : State) (line g : Nat) : (s.loseResv line g).pending = s.pending := rfl
@[simp] theorem State.loseResv_mem (s : State) (line g : Nat) : (s.loseResv line g).mem = s.mem := rfl
@[simp] theorem State.loseResv_own (s : State) (line g : Nat) : (s.loseResv line g).own = s.own := rfl
@[simp] theorem State.loseResv_fences (s : State) (line g : Nat) : (s.loseResv line g).fences = s.fences := rfl
@[simp] theorem State.loseResv_regulators (s : State) (line g : Nat) : (s.loseResv line g).regulators = s.regulators := rfl
@[simp] theorem State.loseResv_ctxs (s : State) (line g : Nat) : (s.loseResv line g).ctxs = s.ctxs := rfl
@[simp] theorem State.loseResv_ctxGens (s : State) (line g : Nat) : (s.loseResv line g).ctxGens = s.ctxGens := rfl
@[simp] theorem State.loseResv_fw (s : State) (line g : Nat) : (s.loseResv line g).fw = s.fw := rfl
@[simp] theorem State.loseResv_xlt (s : State) (line g : Nat) : (s.loseResv line g).xlt = s.xlt := rfl
@[simp] theorem State.loseResv_coh (s : State) (line g : Nat) : (s.loseResv line g).coh = s.coh := rfl
@[simp] theorem State.loseResv_flt (s : State) (line g : Nat) : (s.loseResv line g).flt = s.flt := rfl
@[simp] theorem State.loseResv_rings (s : State) (line g : Nat) : (s.loseResv line g).rings = s.rings := rfl
@[simp] theorem State.loseResv_fns (s : State) (line g : Nat) : (s.loseResv line g).fns = s.fns := rfl
@[simp] theorem State.loseResv_port (s : State) (line g : Nat) : (s.loseResv line g).port = s.port := rfl
@[simp] theorem State.loseResv_srv (s : State) (line g : Nat) : (s.loseResv line g).srv = s.srv := rfl
@[simp] theorem State.loseResv_finders (s : State) (line g : Nat) : (s.loseResv line g).finders = s.finders := rfl
@[simp] theorem State.loseResv_joins (s : State) (line g : Nat) : (s.loseResv line g).joins = s.joins := rfl
@[simp] theorem State.loseResv_issues (s : State) (line g : Nat) : (s.loseResv line g).issues = s.issues := rfl
@[simp] theorem State.loseResv_exchanges (s : State) (line g : Nat) : (s.loseResv line g).exchanges = s.exchanges := rfl
@[simp] theorem State.loseResv_sec (s : State) (line g : Nat) : (s.loseResv line g).sec = s.sec := rfl
@[simp] theorem State.loseResv_pwr (s : State) (line g : Nat) : (s.loseResv line g).pwr = s.pwr := rfl
@[simp] theorem State.loseResv_wkt (s : State) (line g : Nat) : (s.loseResv line g).wkt = s.wkt := rfl
@[simp] theorem State.loseResv_boot (s : State) (line g : Nat) : (s.loseResv line g).boot = s.boot := rfl
@[simp] theorem State.loseResv_mir (s : State) (line g : Nat) : (s.loseResv line g).mir = s.mir := rfl
@[simp] theorem State.loseResv_out (s : State) (line g : Nat) : (s.loseResv line g).out = s.out := rfl
@[simp] theorem State.loseResv_fresh (s : State) (line g : Nat) : (s.loseResv line g).fresh = s.fresh := rfl

/-! ### Read back what was written -/

@[simp] theorem State.setCore_core_self (s : State) (g : Nat) (c : Core) : (s.setCore g c).core g = c := by
  simp [State.setCore, State.core]

theorem State.setCore_core (s : State) (g h : Nat) (c : Core) : (s.setCore g c).core h = if h = g then c else s.core h := by
  simp [State.setCore, State.core, mapGet_mapSet]

@[simp] theorem State.modCore_core_self (s : State) (g : Nat) (f : Core → Core) : (s.modCore g f).core g = f (s.core g) := by
  simp [State.modCore]

theorem State.modCore_core (s : State) (g h : Nat) (f : Core → Core) :
    (s.modCore g f).core h = if h = g then f (s.core g) else s.core h := by
  simp [State.modCore, State.setCore_core]

theorem State.setCtx_ctx (s : State) (t u : Nat) (c : Ctx) : (s.setCtx t c).ctx u = if u = t then c else s.ctx u := by
  simp [State.setCtx, State.ctx, mapGet_mapSet]

theorem State.setFn_fn (s : State) (f h : Nat) (x : Fn) : (s.setFn f x).fn h = if h = f then x else s.fn h := by
  simp [State.setFn, State.fn, mapGet_mapSet]

theorem State.setRing_ring_self (s : State) (f r : Nat) (x : Ring) : (s.setRing f r x).ring f r = x := by
  simp [State.setRing, State.ring]

@[simp] theorem State.report_core (s : State) (e : FaultEvent) (g : Nat) : (s.report e).core g = s.core g := rfl
@[simp] theorem State.send_core (s : State) (m : OutMsg) (g : Nat) : (s.send m).core g = s.core g := rfl
@[simp] theorem State.dropIo_core (s : State) (w : Waiter) (g : Nat) : (s.dropIo w).core g = s.core g := rfl
@[simp] theorem State.draw_fst (s : State) : s.draw.1 = Config.free s.fresh := rfl

/-! ### A core -/

@[simp] theorem Core.setReg_zero (c : Core) (v : Word) : c.setReg 0#5 v = c := by simp [Core.setReg]

@[simp] theorem Core.reg_zero (c : Core) : c.reg 0#5 = 0 := by simp [Core.reg]

theorem Core.setReg_reg (c : Core) (r r' : Reg) (v : Word) :
    (c.setReg r v).reg r' = if r' = r ∧ r ≠ 0 then v else c.reg r' := by
  unfold Core.setReg Core.reg
  by_cases h : r = 0
  · simp [h]
  · by_cases h' : r' = r
    · subst h'; rw [if_neg h, if_neg h, if_pos ⟨rfl, h⟩]; simp
    · have : r'.toNat ≠ r.toNat := fun e => h' (BitVec.eq_of_toNat_eq e)
      rw [if_neg h]; simp only [mapGet_mapSet, if_neg this, h', false_and, if_false]

/-- The trap of an exception: what it saves, where it goes. -/
theorem Core.trap_spec (c : Core) (intr : Bool) (cause : Nat) (epc tval : Word) :
    (c.trap intr cause epc tval).mepc = epc ∧ (c.trap intr cause epc tval).mtval = tval ∧
      (c.trap intr cause epc tval).machineMode = true ∧ (c.trap intr cause epc tval).pc = trapPc c.mtvec intr cause ∧
      (c.trap intr cause epc tval).resv = none ∧ (c.trap intr cause epc tval).x = c.x := ⟨rfl, rfl, rfl, rfl, rfl, rfl⟩

end Sys2Proof.Machine
end

