-- ==== Sys2Proof/Laws/Packets.lean ====
section
/-! SUPPORT. What the frame of a packet row does: it carries out a packet that is ready, and nothing where none may start. -/

namespace Sys2Proof.Machine

/-- A row carries out the packet that is ready. -/
theorem State.packet_ready {s : State} {f : FnId} {r : RingId} {q : PktSeq} {op : Nat} {sel : Pkt → Bool} {p : Pkt}
    (k : Pkt → State → State) (h : s.ready f r q op sel p = true) : s.packet f r q op sel k = .next (k p (s.begun f r q p)) := by
  simp only [State.ready, Bool.and_eq_true, Bool.or_eq_true, decide_eq_true_eq, Bool.not_eq_true'] at h
  obtain ⟨⟨⟨⟨⟨h1, h2⟩, h3⟩, h4⟩, h5⟩, h6⟩ := h
  have h7 : ¬ (3 ≤ op ∧ (¬ (s.ctx p.ctx).valid = true ∨
      ((s.ctx p.ctx).draining = true ∧ (s.ctx p.ctx).detachBy ≠ some (f.val, r.val, q)))) := by
    rintro ⟨a, b⟩
    rcases h6 with h6 | ⟨h6, h7⟩
    · omega
    · rcases b with b | ⟨b, c⟩
      · exact b h6
      · rcases h7 with h7 | h7
        · simp [h7] at b
        · exact c h7
  unfold State.packet State.begun
  simp only [h1]
  rw [if_neg (by simp [h2, h3, h4, h5]), if_neg (by simpa using h7)]

/-- A row for which no packet may start leaves everything. -/
theorem State.packet_none {s : State} {f : FnId} {r : RingId} {q : PktSeq} (op : Nat) (sel : Pkt → Bool)
    (k : Pkt → State → State) (h : (s.ring f r).startable q = none) : s.packet f r q op sel k = .next s := by
  simp only [State.packet, h]

/-- A row always goes on. -/
theorem State.packet_next (s : State) (f : FnId) (r : RingId) (q : PktSeq) (op : Nat) (sel : Pkt → Bool)
    (k : Pkt → State → State) : ∃ t, s.packet f r q op sel k = .next t := by
  unfold State.packet
  split
  · exact ⟨_, rfl⟩
  · split
    · exact ⟨_, rfl⟩
    · simp only []; split <;> exact ⟨_, rfl⟩

end Sys2Proof.Machine
end

