-- ==== Sys2Proof/WellFormed.lean ====
section
/-! DEFINITION. Well-formed commands: the bounds that the part's own widths put on operands that the types leave open (log entry
2). A command whose operands are typed exactly has no bound to keep. -/

namespace Sys2Proof

/-- Every number of a list below n. -/
def each (n : Nat) (l : List Nat) : List (Nat × Nat) := l.map (fun x => (x, n))

/-- Every run of bytes exactly n long. -/
def exactly (n : Nat) (l : List Bytes) : List (Nat × Nat) := l.flatMap (fun b => [(b.length, n + 1), (n, b.length + 1)])

/-- Bytes of a register space (R325, R346). -/
def barBytes (b : Bar) : Nat :=
  match b with
  | .bar0 => 2 ^ 24
  | .bar2 => 2 ^ 24
  | .cfg => 2 ^ 12

/-- The bounds of a command's operands: (value, bound). -/
def Instr.limits (i : Instr) : List (Nat × Nat) :=
  match i with
  | .load _ _ _ _ _ _ => []
  | .store _ _ _ _ _ _ => []
  | .storeBufferDrain _ entry _ => [(entry, 16)]
  | .amo _ _ _ _ _ _ _ _ => []
  | .lr _ _ _ _ _ _ => []
  | .sc _ _ _ _ _ _ _ => []
  | .reservationTimeout _ => []
  | .fence _ _ _ _ => []
  | .fenceI _ => []
  | .csrAccess _ _ _ _ _ _ => []
  | .ebreak _ _ => []
  | .exit _ => []
  | .report _ => []
  | .rendezvous _ => []
  | .rendezvousReturn _ => []
  | .takeInterrupt _ => []
  | .wcyccmpMatch _ => []
  | .programEnd _ _ _ => []
  | .edisp _ _ _ _ _ _ => []
  | .commandStart _ _ => []
  | .operandRelease _ _ => []
  | .commandCompletion _ _ => []
  | .ewait _ _ _ _ => []
  | .ewaitReturn _ => []
  | .eqstat _ _ _ _ => []
  | .eclr _ _ _ _ => []
  | .semsig _ _ _ _ => []
  | .semwait _ _ _ _ => []
  | .semwaitGrant _ _ => []
  | .semtry _ _ _ _ => []
  | .semrd _ _ _ _ => []
  | .semset _ _ _ _ => []
  | .lbar _ _ _ _ => []
  | .sbar _ _ _ _ => []
  | .fbar _ _ _ _ => []
  | .barrierMarkerComplete _ => []
  | .barrierTimeout _ => []
  | .storeTimeout _ => []
  | .amofaddS _ _ _ _ _ _ => []
  | .amofmaxS _ _ _ _ _ _ => []
  | .amofaddBf _ _ _ _ _ _ => []
  | .amofmaxBf _ _ _ _ _ _ => []
  | .mnop _ => []
  | .mmul _ => []
  | .mdrain _ => []
  | .mcbload _ => []
  | .vnop _ => []
  | .vadd _ => []
  | .vsub _ => []
  | .vmul _ => []
  | .vfma _ => []
  | .vmax _ => []
  | .vmin _ => []
  | .vcvt _ => []
  | .vsfu _ => []
  | .vgsilu _ => []
  | .vrope _ => []
  | .vrmax _ => []
  | .vrsum _ => []
  | .vrssq _ => []
  | .vsmax _ => []
  | .vtopk _ => []
  | .dnop _ _ => []
  | .copy _ _ => []
  | .strided _ _ => []
  | .gather _ _ => []
  | .scatter _ _ => []
  | .kvput _ _ => []
  | .kvget _ _ => []
  | .exchange _ _ => []
  | .combine _ _ order => each (2 ^ 20) order
  | .reduce _ _ order => each (2 ^ 20) order
  | .collectiveTimeout _ _ => []
  | .prefetchLevel0 _ _ => []
  | .prefetchLevel1 _ _ => []
  | .prefetchLevel2 _ _ => []
  | .prefetchLevel3 _ _ => []
  | .finderRankTimeout _ => []
  | .finderStagingDone _ _ => []
  | .tileStart _ _ => []
  | .targetTimeout _ _ => []
  | .ownershipEntryWrite _ _ => []
  | .ownershipFence _ => []
  | .ownershipFenceDone _ => []
  | .regulatorWindow _ => []
  | .patrolScrub _ flip _ => [(flip, 73)]
  | .atsCompletion _ _ _ _ _ _ _ _ => []
  | .pageRequest _ _ _ => []
  | .pageRequestResponse _ _ _ => []
  | .pageRequestOverdue _ _ => []
  | .invalidationRequest _ _ _ => []
  | .invalidationCompletion _ _ => []
  | .gets _ _ => []
  | .getm _ _ => []
  | .putm _ _ => []
  | .putmAck _ _ => []
  | .forward _ => []
  | .invalidate _ _ => []
  | .invalidateAck _ _ => []
  | .nackRetry _ _ => []
  | .homeWaitTimeout _ => []
  | .bisnpResponse _ dirty => exactly 64 dirty.toList
  | .hostCxlMemRead _ _ => []
  | .hostCxlMemWrite _ data _ => exactly 64 [data]
  | .snpdata _ => []
  | .snpinv _ => []
  | .snpcur _ => []
  | .hostCacheResponse _ _ data => exactly 64 [data]
  | .cacheEnable _ => []
  | .cacheWbi => []
  | .cacheWbiDone => []
  | .gpfPhase1 => []
  | .cohDcCfgWrite _ => []
  | .cohHdmCfgWrite _ => []
  | .carveChangeDone => []
  | .decoderCommit _ _ _ _ => []
  | .sqDoorbell _ _ _ => []
  | .cqDoorbell _ _ _ => []
  | .ringEnable _ _ => []
  | .ringDisable _ _ => []
  | .ringDrainDone _ _ => []
  | .resume _ _ => []
  | .packetRead _ _ => []
  | .phaseReread _ _ => []
  | .tornReread _ _ => []
  | .completionWrite _ _ _ => []
  | .msixUnmask _ v => each 2048 v.toList
  | .identify _ _ _ => []
  | .attachContext _ _ _ _ _ granules => each (2 ^ 52) granules
  | .detachContext _ _ _ => []
  | .detachComplete _ => []
  | .loadModel _ _ _ _ granules => each (2 ^ 52) granules
  | .loadModelComplete => []
  | .unloadModel _ _ _ => []
  | .openSequence _ _ _ _ => []
  | .appendTokens _ _ _ => []
  | .generate _ _ _ => []
  | .cancelSequence _ _ _ => []
  | .cancelProgram _ _ _ => []
  | .closeSequence _ _ _ => []
  | .forkSequence _ _ _ _ pages => each (2 ^ 52) pages
  | .snapshotSequence _ _ _ => []
  | .restoreSequence _ _ _ _ pages => each (2 ^ 52) pages
  | .runProgram _ _ _ => []
  | .prefetchTranslate _ _ _ => []
  | .prefetchTranslateFaults _ _ _ => []
  | .prefetchCopy _ _ _ => []
  | .adviseAdd _ _ _ => []
  | .adviseRemove _ _ _ => []
  | .adviseClear _ _ _ => []
  | .flush _ _ _ => []
  | .fenceRing _ _ _ => []
  | .fenceContext _ _ _ => []
  | .powerHintHeavy _ _ _ => []
  | .powerHintLight _ _ _ => []
  | .powerHintClear _ _ _ => []
  | .hintExpiry => []
  | .sealSessionInstall _ _ _ => []
  | .sealSessionDestroy _ _ _ => []
  | .mirrorStatus _ _ _ => []
  | .pair _ _ _ => []
  | .unpair _ _ _ => []
  | .setMode _ _ _ => []
  | .resync _ _ _ => []
  | .promote _ _ _ => []
  | .querySequenceCounts _ _ _ => []
  | .querySequences _ _ _ => []
  | .queryFinder _ _ _ => []
  | .queryRegulators _ _ _ => []
  | .queryTranslationCaches _ _ _ => []
  | .queryRingCounts _ _ _ => []
  | .diagnoseEcho _ _ _ => []
  | .diagnoseNightLog _ _ _ => []
  | .stepBoundary pages => each (2 ^ 52) pages
  | .draftSample _ logits => [(logits.length, 2 ^ 18 + 1)]
  | .sample _ logits => [(logits.length, 2 ^ 18 + 1)]
  | .verifyDrafts _ rows => (rows.length, 9) :: rows.map (fun x => (x.length, 2 ^ 18 + 1))
  | .stepCommit _ => []
  | .initiateFlr _ => []
  | .flrQuiesceDone _ => []
  | .vfEnable => []
  | .vfDisable => []
  | .d3hotEntry => []
  | .d0Entry => []
  | .busMasterDisable _ => []
  | .hotReset => []
  | .fundamentalReset => []
  | .linkUp => []
  | .linkDown => []
  | .hostLinkError _ => []
  | .poisonedRequest _ => []
  | .pcForce => []
  | .pcClear => []
  | .removeRequest => []
  | .removeCancel => []
  | .removeReady => []
  | .cxlioCompletion _ _ data => [(data.length, 4097)]
  | .completionTimeout _ => []
  | .doeRequest _ _ _ => []
  | .spdmRequest _ => []
  | .ideKmRequest _ => []
  | .lockInterfaceRequest _ _ => []
  | .tdispRequest _ _ => []
  | .newNonce => []
  | .debugTokenRequest => []
  | .debugTokenRead token _ => exactly 192 token.toList
  | .devArithWrite _ => []
  | .railReport _ mw => [(mw, 2 ^ 32)]
  | .telemetryTimeout _ => []
  | .pwrCapWrite _ => []
  | .pwrModeWrite _ => []
  | .heliostatPeriod waits => (waits.length, 17) :: waits.map (fun w => (w.1, w.2 + 1))
  | .repeatableLouvreTick => []
  | .dieAgentTick _ => []
  | .voltageReached _ _ => []
  | .droopDetect _ _ => []
  | .droopRecover _ _ => []
  | .sensorRead _ _ _ => []
  | .thermalTrip _ _ => []
  | .shutterWave => []
  | .regFail _ _ => []
  | .refclkLoss => []
  | .inputVoltageWarn mv => [(mv, 2 ^ 32)]
  | .powerRemoved => []
  | .setCap _ _ _ _ => []
  | .getStatus _ _ _ => []
  | .readNightLog _ _ _ _ _ => []
  | .getThermal _ _ _ => []
  | .stageB0 => []
  | .stageB1 => []
  | .stageB2 _ _ => []
  | .stageB3 _ => []
  | .stageB4 res => each 12 res.failed ++ each 12 (res.lost.map (·.1)) ++ each 64 (res.lost.map (·.2))
  | .stageB5 _ => []
  | .stageB6 _ => []
  | .stageBoundExpiry _ _ => []
  | .faultArrival _ _ _ => []
  | .windowRoll _ => []
  | .reactionEnd => []
  | .reactionOverdue _ => []
  | .fltSrcCfgWrite _ _ => []
  | .inject => []
  | .unfreeze => []
  | .alvToggle => []
  | .alvRefresh => []
  | .drain _ _ _ => []
  | .test _ _ _ => []
  | .returnUnit _ _ _ => []
  | .spare _ _ _ => []
  | .retireBank _ _ _ => []
  | .sparePc _ _ _ => []
  | .retirePage _ _ _ => []
  | .repairLink _ _ _ => []
  | .wicketOperationDone _ _ => []
  | .testTimeout => []
  | .hello _ b => (b.nonce.length, 33) :: exactly 97 [b.ephPub]
  | .finish _ _ => []
  | .bind _ _ _ => []
  | .commandFrame _ _ _ => []
  | .sequenceFrame _ _ _ => []
  | .kvFrame _ _ _ avail => each (2 ^ 52) avail
  | .samplerFrame _ _ _ => []
  | .sessionFrame _ _ _ => []
  | .commitFrame _ _ _ => []
  | .resyncFrame _ _ _ avail => each (2 ^ 52) avail
  | .ack _ _ _ => []
  | .takeover _ _ _ => []
  | .ackTimer => []
  | .journalResend => []
  | .mirrorSilence => []
  | .laneLockLoss _ => []
  | .registerWrite _ bar off _ _ => [(off.toNat, barBytes bar)]
  | .registerReadClear _ bar off _ => [(off.toNat, barBytes bar)]
  | .busMasterEnable _ => []
  | .memorySpaceEnableClear _ => []
  | .atsPriEnableClear _ _ => []
  | .phaseMark _ => []
  | .resyncComplete => []
  | .hotResetReadiness => []
  | .frameTagFailure _ => []
  | .receiveWindowOverrun => []
  | .ecallOtherFunction _ => []

/-- A command keeps the bounds of its operands. -/
def Instr.wellFormed (i : Instr) : Bool := i.limits.all (fun x => decide (x.1 < x.2))

end Sys2Proof
end

