-- ==== Sys2Proof/Laws/PerInstr.lean ====
section
/-! SUPPORT. One lemma per command: in a well-formed command every operand keeps its bound. -/

namespace Sys2Proof.Laws.Operands

/-- A well-formed command keeps each bound of its operands. -/
def Statement (i : Instr) : Prop := i.wellFormed = true → ∀ x ∈ i.limits, x.1 < x.2

/-- The lemma for any command. -/
theorem holds (i : Instr) : Statement i := by
  intro h x hx
  exact of_decide_eq_true (List.all_eq_true.mp h x hx)

theorem load {a0} {a1} {a2} {a3} {a4} {a5} : Statement (.load a0 a1 a2 a3 a4 a5) := holds _
theorem store {a0} {a1} {a2} {a3} {a4} {a5} : Statement (.store a0 a1 a2 a3 a4 a5) := holds _
theorem storeBufferDrain {a0} {a1} {a2} : Statement (.storeBufferDrain a0 a1 a2) := holds _
theorem amo {a0} {a1} {a2} {a3} {a4} {a5} {a6} {a7} : Statement (.amo a0 a1 a2 a3 a4 a5 a6 a7) := holds _
theorem lr {a0} {a1} {a2} {a3} {a4} {a5} : Statement (.lr a0 a1 a2 a3 a4 a5) := holds _
theorem sc {a0} {a1} {a2} {a3} {a4} {a5} {a6} : Statement (.sc a0 a1 a2 a3 a4 a5 a6) := holds _
theorem reservationTimeout {a0} : Statement (.reservationTimeout a0) := holds _
theorem fence {a0} {a1} {a2} {a3} : Statement (.fence a0 a1 a2 a3) := holds _
theorem fenceI {a0} : Statement (.fenceI a0) := holds _
theorem csrAccess {a0} {a1} {a2} {a3} {a4} {a5} : Statement (.csrAccess a0 a1 a2 a3 a4 a5) := holds _
theorem ebreak {a0} {a1} : Statement (.ebreak a0 a1) := holds _
theorem exit {a0} : Statement (.exit a0) := holds _
theorem report {a0} : Statement (.report a0) := holds _
theorem rendezvous {a0} : Statement (.rendezvous a0) := holds _
theorem rendezvousReturn {a0} : Statement (.rendezvousReturn a0) := holds _
theorem takeInterrupt {a0} : Statement (.takeInterrupt a0) := holds _
theorem wcyccmpMatch {a0} : Statement (.wcyccmpMatch a0) := holds _
theorem programEnd {a0} {a1} {a2} : Statement (.programEnd a0 a1 a2) := holds _
theorem edisp {a0} {a1} {a2} {a3} {a4} {a5} : Statement (.edisp a0 a1 a2 a3 a4 a5) := holds _
theorem commandStart {a0} {a1} : Statement (.commandStart a0 a1) := holds _
theorem operandRelease {a0} {a1} : Statement (.operandRelease a0 a1) := holds _
theorem commandCompletion {a0} {a1} : Statement (.commandCompletion a0 a1) := holds _
theorem ewait {a0} {a1} {a2} {a3} : Statement (.ewait a0 a1 a2 a3) := holds _
theorem ewaitReturn {a0} : Statement (.ewaitReturn a0) := holds _
theorem eqstat {a0} {a1} {a2} {a3} : Statement (.eqstat a0 a1 a2 a3) := holds _
theorem eclr {a0} {a1} {a2} {a3} : Statement (.eclr a0 a1 a2 a3) := holds _
theorem semsig {a0} {a1} {a2} {a3} : Statement (.semsig a0 a1 a2 a3) := holds _
theorem semwait {a0} {a1} {a2} {a3} : Statement (.semwait a0 a1 a2 a3) := holds _
theorem semwaitGrant {a0} {a1} : Statement (.semwaitGrant a0 a1) := holds _
theorem semtry {a0} {a1} {a2} {a3} : Statement (.semtry a0 a1 a2 a3) := holds _
theorem semrd {a0} {a1} {a2} {a3} : Statement (.semrd a0 a1 a2 a3) := holds _
theorem semset {a0} {a1} {a2} {a3} : Statement (.semset a0 a1 a2 a3) := holds _
theorem lbar {a0} {a1} {a2} {a3} : Statement (.lbar a0 a1 a2 a3) := holds _
theorem sbar {a0} {a1} {a2} {a3} : Statement (.sbar a0 a1 a2 a3) := holds _
theorem fbar {a0} {a1} {a2} {a3} : Statement (.fbar a0 a1 a2 a3) := holds _
theorem barrierMarkerComplete {a0} : Statement (.barrierMarkerComplete a0) := holds _
theorem barrierTimeout {a0} : Statement (.barrierTimeout a0) := holds _
theorem storeTimeout {a0} : Statement (.storeTimeout a0) := holds _
theorem amofaddS {a0} {a1} {a2} {a3} {a4} {a5} : Statement (.amofaddS a0 a1 a2 a3 a4 a5) := holds _
theorem amofmaxS {a0} {a1} {a2} {a3} {a4} {a5} : Statement (.amofmaxS a0 a1 a2 a3 a4 a5) := holds _
theorem amofaddBf {a0} {a1} {a2} {a3} {a4} {a5} : Statement (.amofaddBf a0 a1 a2 a3 a4 a5) := holds _
theorem amofmaxBf {a0} {a1} {a2} {a3} {a4} {a5} : Statement (.amofmaxBf a0 a1 a2 a3 a4 a5) := holds _
theorem mnop {a0} : Statement (.mnop a0) := holds _
theorem mmul {a0} : Statement (.mmul a0) := holds _
theorem mdrain {a0} : Statement (.mdrain a0) := holds _
theorem mcbload {a0} : Statement (.mcbload a0) := holds _
theorem vnop {a0} : Statement (.vnop a0) := holds _
theorem vadd {a0} : Statement (.vadd a0) := holds _
theorem vsub {a0} : Statement (.vsub a0) := holds _
theorem vmul {a0} : Statement (.vmul a0) := holds _
theorem vfma {a0} : Statement (.vfma a0) := holds _
theorem vmax {a0} : Statement (.vmax a0) := holds _
theorem vmin {a0} : Statement (.vmin a0) := holds _
theorem vcvt {a0} : Statement (.vcvt a0) := holds _
theorem vsfu {a0} : Statement (.vsfu a0) := holds _
theorem vgsilu {a0} : Statement (.vgsilu a0) := holds _
theorem vrope {a0} : Statement (.vrope a0) := holds _
theorem vrmax {a0} : Statement (.vrmax a0) := holds _
theorem vrsum {a0} : Statement (.vrsum a0) := holds _
theorem vrssq {a0} : Statement (.vrssq a0) := holds _
theorem vsmax {a0} : Statement (.vsmax a0) := holds _
theorem vtopk {a0} : Statement (.vtopk a0) := holds _
theorem dnop {a0} {a1} : Statement (.dnop a0 a1) := holds _
theorem copy {a0} {a1} : Statement (.copy a0 a1) := holds _
theorem strided {a0} {a1} : Statement (.strided a0 a1) := holds _
theorem gather {a0} {a1} : Statement (.gather a0 a1) := holds _
theorem scatter {a0} {a1} : Statement (.scatter a0 a1) := holds _
theorem kvput {a0} {a1} : Statement (.kvput a0 a1) := holds _
theorem kvget {a0} {a1} : Statement (.kvget a0 a1) := holds _
theorem exchange {a0} {a1} : Statement (.exchange a0 a1) := holds _
theorem combine {a0} {a1} {a2} : Statement (.combine a0 a1 a2) := holds _
theorem reduce {a0} {a1} {a2} : Statement (.reduce a0 a1 a2) := holds _
theorem collectiveTimeout {a0} {a1} : Statement (.collectiveTimeout a0 a1) := holds _
theorem prefetchLevel0 {a0} {a1} : Statement (.prefetchLevel0 a0 a1) := holds _
theorem prefetchLevel1 {a0} {a1} : Statement (.prefetchLevel1 a0 a1) := holds _
theorem prefetchLevel2 {a0} {a1} : Statement (.prefetchLevel2 a0 a1) := holds _
theorem prefetchLevel3 {a0} {a1} : Statement (.prefetchLevel3 a0 a1) := holds _
theorem finderRankTimeout {a0} : Statement (.finderRankTimeout a0) := holds _
theorem finderStagingDone {a0} {a1} : Statement (.finderStagingDone a0 a1) := holds _
theorem tileStart {a0} {a1} : Statement (.tileStart a0 a1) := holds _
theorem targetTimeout {a0} {a1} : Statement (.targetTimeout a0 a1) := holds _
theorem ownershipEntryWrite {a0} {a1} : Statement (.ownershipEntryWrite a0 a1) := holds _
theorem ownershipFence {a0} : Statement (.ownershipFence a0) := holds _
theorem ownershipFenceDone {a0} : Statement (.ownershipFenceDone a0) := holds _
theorem regulatorWindow {a0} : Statement (.regulatorWindow a0) := holds _
theorem patrolScrub {a0} {a1} {a2} : Statement (.patrolScrub a0 a1 a2) := holds _
theorem atsCompletion {a0} {a1} {a2} {a3} {a4} {a5} {a6} {a7} : Statement (.atsCompletion a0 a1 a2 a3 a4 a5 a6 a7) := holds _
theorem pageRequest {a0} {a1} {a2} : Statement (.pageRequest a0 a1 a2) := holds _
theorem pageRequestResponse {a0} {a1} {a2} : Statement (.pageRequestResponse a0 a1 a2) := holds _
theorem pageRequestOverdue {a0} {a1} : Statement (.pageRequestOverdue a0 a1) := holds _
theorem invalidationRequest {a0} {a1} {a2} : Statement (.invalidationRequest a0 a1 a2) := holds _
theorem invalidationCompletion {a0} {a1} : Statement (.invalidationCompletion a0 a1) := holds _
theorem gets {a0} {a1} : Statement (.gets a0 a1) := holds _
theorem getm {a0} {a1} : Statement (.getm a0 a1) := holds _
theorem putm {a0} {a1} : Statement (.putm a0 a1) := holds _
theorem putmAck {a0} {a1} : Statement (.putmAck a0 a1) := holds _
theorem forward {a0} : Statement (.forward a0) := holds _
theorem invalidate {a0} {a1} : Statement (.invalidate a0 a1) := holds _
theorem invalidateAck {a0} {a1} : Statement (.invalidateAck a0 a1) := holds _
theorem nackRetry {a0} {a1} : Statement (.nackRetry a0 a1) := holds _
theorem homeWaitTimeout {a0} : Statement (.homeWaitTimeout a0) := holds _
theorem bisnpResponse {a0} {a1} : Statement (.bisnpResponse a0 a1) := holds _
theorem hostCxlMemRead {a0} {a1} : Statement (.hostCxlMemRead a0 a1) := holds _
theorem hostCxlMemWrite {a0} {a1} {a2} : Statement (.hostCxlMemWrite a0 a1 a2) := holds _
theorem snpdata {a0} : Statement (.snpdata a0) := holds _
theorem snpinv {a0} : Statement (.snpinv a0) := holds _
theorem snpcur {a0} : Statement (.snpcur a0) := holds _
theorem hostCacheResponse {a0} {a1} {a2} : Statement (.hostCacheResponse a0 a1 a2) := holds _
theorem cacheEnable {a0} : Statement (.cacheEnable a0) := holds _
theorem cacheWbi : Statement (.cacheWbi) := holds _
theorem cacheWbiDone : Statement (.cacheWbiDone) := holds _
theorem gpfPhase1 : Statement (.gpfPhase1) := holds _
theorem cohDcCfgWrite {a0} : Statement (.cohDcCfgWrite a0) := holds _
theorem cohHdmCfgWrite {a0} : Statement (.cohHdmCfgWrite a0) := holds _
theorem carveChangeDone : Statement (.carveChangeDone) := holds _
theorem decoderCommit {a0} {a1} {a2} {a3} : Statement (.decoderCommit a0 a1 a2 a3) := holds _
theorem sqDoorbell {a0} {a1} {a2} : Statement (.sqDoorbell a0 a1 a2) := holds _
theorem cqDoorbell {a0} {a1} {a2} : Statement (.cqDoorbell a0 a1 a2) := holds _
theorem ringEnable {a0} {a1} : Statement (.ringEnable a0 a1) := holds _
theorem ringDisable {a0} {a1} : Statement (.ringDisable a0 a1) := holds _
theorem ringDrainDone {a0} {a1} : Statement (.ringDrainDone a0 a1) := holds _
theorem resume {a0} {a1} : Statement (.resume a0 a1) := holds _
theorem packetRead {a0} {a1} : Statement (.packetRead a0 a1) := holds _
theorem phaseReread {a0} {a1} : Statement (.phaseReread a0 a1) := holds _
theorem tornReread {a0} {a1} : Statement (.tornReread a0 a1) := holds _
theorem completionWrite {a0} {a1} {a2} : Statement (.completionWrite a0 a1 a2) := holds _
theorem msixUnmask {a0} {a1} : Statement (.msixUnmask a0 a1) := holds _
theorem identify {a0} {a1} {a2} : Statement (.identify a0 a1 a2) := holds _
theorem attachContext {a0} {a1} {a2} {a3} {a4} {a5} : Statement (.attachContext a0 a1 a2 a3 a4 a5) := holds _
theorem detachContext {a0} {a1} {a2} : Statement (.detachContext a0 a1 a2) := holds _
theorem detachComplete {a0} : Statement (.detachComplete a0) := holds _
theorem loadModel {a0} {a1} {a2} {a3} {a4} : Statement (.loadModel a0 a1 a2 a3 a4) := holds _
theorem loadModelComplete : Statement (.loadModelComplete) := holds _
theorem unloadModel {a0} {a1} {a2} : Statement (.unloadModel a0 a1 a2) := holds _
theorem openSequence {a0} {a1} {a2} {a3} : Statement (.openSequence a0 a1 a2 a3) := holds _
theorem appendTokens {a0} {a1} {a2} : Statement (.appendTokens a0 a1 a2) := holds _
theorem generate {a0} {a1} {a2} : Statement (.generate a0 a1 a2) := holds _
theorem cancelSequence {a0} {a1} {a2} : Statement (.cancelSequence a0 a1 a2) := holds _
theorem cancelProgram {a0} {a1} {a2} : Statement (.cancelProgram a0 a1 a2) := holds _
theorem closeSequence {a0} {a1} {a2} : Statement (.closeSequence a0 a1 a2) := holds _
theorem forkSequence {a0} {a1} {a2} {a3} {a4} : Statement (.forkSequence a0 a1 a2 a3 a4) := holds _
theorem snapshotSequence {a0} {a1} {a2} : Statement (.snapshotSequence a0 a1 a2) := holds _
theorem restoreSequence {a0} {a1} {a2} {a3} {a4} : Statement (.restoreSequence a0 a1 a2 a3 a4) := holds _
theorem runProgram {a0} {a1} {a2} : Statement (.runProgram a0 a1 a2) := holds _
theorem prefetchTranslate {a0} {a1} {a2} : Statement (.prefetchTranslate a0 a1 a2) := holds _
theorem prefetchTranslateFaults {a0} {a1} {a2} : Statement (.prefetchTranslateFaults a0 a1 a2) := holds _
theorem prefetchCopy {a0} {a1} {a2} : Statement (.prefetchCopy a0 a1 a2) := holds _
theorem adviseAdd {a0} {a1} {a2} : Statement (.adviseAdd a0 a1 a2) := holds _
theorem adviseRemove {a0} {a1} {a2} : Statement (.adviseRemove a0 a1 a2) := holds _
theorem adviseClear {a0} {a1} {a2} : Statement (.adviseClear a0 a1 a2) := holds _
theorem flush {a0} {a1} {a2} : Statement (.flush a0 a1 a2) := holds _
theorem fenceRing {a0} {a1} {a2} : Statement (.fenceRing a0 a1 a2) := holds _
theorem fenceContext {a0} {a1} {a2} : Statement (.fenceContext a0 a1 a2) := holds _
theorem powerHintHeavy {a0} {a1} {a2} : Statement (.powerHintHeavy a0 a1 a2) := holds _
theorem powerHintLight {a0} {a1} {a2} : Statement (.powerHintLight a0 a1 a2) := holds _
theorem powerHintClear {a0} {a1} {a2} : Statement (.powerHintClear a0 a1 a2) := holds _
theorem hintExpiry : Statement (.hintExpiry) := holds _
theorem sealSessionInstall {a0} {a1} {a2} : Statement (.sealSessionInstall a0 a1 a2) := holds _
theorem sealSessionDestroy {a0} {a1} {a2} : Statement (.sealSessionDestroy a0 a1 a2) := holds _
theorem mirrorStatus {a0} {a1} {a2} : Statement (.mirrorStatus a0 a1 a2) := holds _
theorem pair {a0} {a1} {a2} : Statement (.pair a0 a1 a2) := holds _
theorem unpair {a0} {a1} {a2} : Statement (.unpair a0 a1 a2) := holds _
theorem setMode {a0} {a1} {a2} : Statement (.setMode a0 a1 a2) := holds _
theorem resync {a0} {a1} {a2} : Statement (.resync a0 a1 a2) := holds _
theorem promote {a0} {a1} {a2} : Statement (.promote a0 a1 a2) := holds _
theorem querySequenceCounts {a0} {a1} {a2} : Statement (.querySequenceCounts a0 a1 a2) := holds _
theorem querySequences {a0} {a1} {a2} : Statement (.querySequences a0 a1 a2) := holds _
theorem queryFinder {a0} {a1} {a2} : Statement (.queryFinder a0 a1 a2) := holds _
theorem queryRegulators {a0} {a1} {a2} : Statement (.queryRegulators a0 a1 a2) := holds _
theorem queryTranslationCaches {a0} {a1} {a2} : Statement (.queryTranslationCaches a0 a1 a2) := holds _
theorem queryRingCounts {a0} {a1} {a2} : Statement (.queryRingCounts a0 a1 a2) := holds _
theorem diagnoseEcho {a0} {a1} {a2} : Statement (.diagnoseEcho a0 a1 a2) := holds _
theorem diagnoseNightLog {a0} {a1} {a2} : Statement (.diagnoseNightLog a0 a1 a2) := holds _
theorem stepBoundary {a0} : Statement (.stepBoundary a0) := holds _
theorem draftSample {a0} {a1} : Statement (.draftSample a0 a1) := holds _
theorem sample {a0} {a1} : Statement (.sample a0 a1) := holds _
theorem verifyDrafts {a0} {a1} : Statement (.verifyDrafts a0 a1) := holds _
theorem stepCommit {a0} : Statement (.stepCommit a0) := holds _
theorem initiateFlr {a0} : Statement (.initiateFlr a0) := holds _
theorem flrQuiesceDone {a0} : Statement (.flrQuiesceDone a0) := holds _
theorem vfEnable : Statement (.vfEnable) := holds _
theorem vfDisable : Statement (.vfDisable) := holds _
theorem d3hotEntry : Statement (.d3hotEntry) := holds _
theorem d0Entry : Statement (.d0Entry) := holds _
theorem busMasterDisable {a0} : Statement (.busMasterDisable a0) := holds _
theorem hotReset : Statement (.hotReset) := holds _
theorem fundamentalReset : Statement (.fundamentalReset) := holds _
theorem linkUp : Statement (.linkUp) := holds _
theorem linkDown : Statement (.linkDown) := holds _
theorem hostLinkError {a0} : Statement (.hostLinkError a0) := holds _
theorem poisonedRequest {a0} : Statement (.poisonedRequest a0) := holds _
theorem pcForce : Statement (.pcForce) := holds _
theorem pcClear : Statement (.pcClear) := holds _
theorem removeRequest : Statement (.removeRequest) := holds _
theorem removeCancel : Statement (.removeCancel) := holds _
theorem removeReady : Statement (.removeReady) := holds _
theorem cxlioCompletion {a0} {a1} {a2} : Statement (.cxlioCompletion a0 a1 a2) := holds _
theorem completionTimeout {a0} : Statement (.completionTimeout a0) := holds _
theorem doeRequest {a0} {a1} {a2} : Statement (.doeRequest a0 a1 a2) := holds _
theorem spdmRequest {a0} : Statement (.spdmRequest a0) := holds _
theorem ideKmRequest {a0} : Statement (.ideKmRequest a0) := holds _
theorem lockInterfaceRequest {a0} {a1} : Statement (.lockInterfaceRequest a0 a1) := holds _
theorem tdispRequest {a0} {a1} : Statement (.tdispRequest a0 a1) := holds _
theorem newNonce : Statement (.newNonce) := holds _
theorem debugTokenRequest : Statement (.debugTokenRequest) := holds _
theorem debugTokenRead {a0} {a1} : Statement (.debugTokenRead a0 a1) := holds _
theorem devArithWrite {a0} : Statement (.devArithWrite a0) := holds _
theorem railReport {a0} {a1} : Statement (.railReport a0 a1) := holds _
theorem telemetryTimeout {a0} : Statement (.telemetryTimeout a0) := holds _
theorem pwrCapWrite {a0} : Statement (.pwrCapWrite a0) := holds _
theorem pwrModeWrite {a0} : Statement (.pwrModeWrite a0) := holds _
theorem heliostatPeriod {a0} : Statement (.heliostatPeriod a0) := holds _
theorem repeatableLouvreTick : Statement (.repeatableLouvreTick) := holds _
theorem dieAgentTick {a0} : Statement (.dieAgentTick a0) := holds _
theorem voltageReached {a0} {a1} : Statement (.voltageReached a0 a1) := holds _
theorem droopDetect {a0} {a1} : Statement (.droopDetect a0 a1) := holds _
theorem droopRecover {a0} {a1} : Statement (.droopRecover a0 a1) := holds _
theorem sensorRead {a0} {a1} {a2} : Statement (.sensorRead a0 a1 a2) := holds _
theorem thermalTrip {a0} {a1} : Statement (.thermalTrip a0 a1) := holds _
theorem shutterWave : Statement (.shutterWave) := holds _
theorem regFail {a0} {a1} : Statement (.regFail a0 a1) := holds _
theorem refclkLoss : Statement (.refclkLoss) := holds _
theorem inputVoltageWarn {a0} : Statement (.inputVoltageWarn a0) := holds _
theorem powerRemoved : Statement (.powerRemoved) := holds _
theorem setCap {a0} {a1} {a2} {a3} : Statement (.setCap a0 a1 a2 a3) := holds _
theorem getStatus {a0} {a1} {a2} : Statement (.getStatus a0 a1 a2) := holds _
theorem readNightLog {a0} {a1} {a2} {a3} {a4} : Statement (.readNightLog a0 a1 a2 a3 a4) := holds _
theorem getThermal {a0} {a1} {a2} : Statement (.getThermal a0 a1 a2) := holds _
theorem stageB0 : Statement (.stageB0) := holds _
theorem stageB1 : Statement (.stageB1) := holds _
theorem stageB2 {a0} {a1} : Statement (.stageB2 a0 a1) := holds _
theorem stageB3 {a0} : Statement (.stageB3 a0) := holds _
theorem stageB4 {a0} : Statement (.stageB4 a0) := holds _
theorem stageB5 {a0} : Statement (.stageB5 a0) := holds _
theorem stageB6 {a0} : Statement (.stageB6 a0) := holds _
theorem stageBoundExpiry {a0} {a1} : Statement (.stageBoundExpiry a0 a1) := holds _
theorem faultArrival {a0} {a1} {a2} : Statement (.faultArrival a0 a1 a2) := holds _
theorem windowRoll {a0} : Statement (.windowRoll a0) := holds _
theorem reactionEnd : Statement (.reactionEnd) := holds _
theorem reactionOverdue {a0} : Statement (.reactionOverdue a0) := holds _
theorem fltSrcCfgWrite {a0} {a1} : Statement (.fltSrcCfgWrite a0 a1) := holds _
theorem inject : Statement (.inject) := holds _
theorem unfreeze : Statement (.unfreeze) := holds _
theorem alvToggle : Statement (.alvToggle) := holds _
theorem alvRefresh : Statement (.alvRefresh) := holds _
theorem drain {a0} {a1} {a2} : Statement (.drain a0 a1 a2) := holds _
theorem test {a0} {a1} {a2} : Statement (.test a0 a1 a2) := holds _
theorem returnUnit {a0} {a1} {a2} : Statement (.returnUnit a0 a1 a2) := holds _
theorem spare {a0} {a1} {a2} : Statement (.spare a0 a1 a2) := holds _
theorem retireBank {a0} {a1} {a2} : Statement (.retireBank a0 a1 a2) := holds _
theorem sparePc {a0} {a1} {a2} : Statement (.sparePc a0 a1 a2) := holds _
theorem retirePage {a0} {a1} {a2} : Statement (.retirePage a0 a1 a2) := holds _
theorem repairLink {a0} {a1} {a2} : Statement (.repairLink a0 a1 a2) := holds _
theorem wicketOperationDone {a0} {a1} : Statement (.wicketOperationDone a0 a1) := holds _
theorem testTimeout : Statement (.testTimeout) := holds _
theorem hello {a0} {a1} : Statement (.hello a0 a1) := holds _
theorem finish {a0} {a1} : Statement (.finish a0 a1) := holds _
theorem bind {a0} {a1} {a2} : Statement (.bind a0 a1 a2) := holds _
theorem commandFrame {a0} {a1} {a2} : Statement (.commandFrame a0 a1 a2) := holds _
theorem sequenceFrame {a0} {a1} {a2} : Statement (.sequenceFrame a0 a1 a2) := holds _
theorem kvFrame {a0} {a1} {a2} {a3} : Statement (.kvFrame a0 a1 a2 a3) := holds _
theorem samplerFrame {a0} {a1} {a2} : Statement (.samplerFrame a0 a1 a2) := holds _
theorem sessionFrame {a0} {a1} {a2} : Statement (.sessionFrame a0 a1 a2) := holds _
theorem commitFrame {a0} {a1} {a2} : Statement (.commitFrame a0 a1 a2) := holds _
theorem resyncFrame {a0} {a1} {a2} {a3} : Statement (.resyncFrame a0 a1 a2 a3) := holds _
theorem ack {a0} {a1} {a2} : Statement (.ack a0 a1 a2) := holds _
theorem takeover {a0} {a1} {a2} : Statement (.takeover a0 a1 a2) := holds _
theorem ackTimer : Statement (.ackTimer) := holds _
theorem journalResend : Statement (.journalResend) := holds _
theorem mirrorSilence : Statement (.mirrorSilence) := holds _
theorem laneLockLoss {a0} : Statement (.laneLockLoss a0) := holds _
theorem registerWrite {a0} {a1} {a2} {a3} {a4} : Statement (.registerWrite a0 a1 a2 a3 a4) := holds _
theorem registerReadClear {a0} {a1} {a2} {a3} : Statement (.registerReadClear a0 a1 a2 a3) := holds _
theorem busMasterEnable {a0} : Statement (.busMasterEnable a0) := holds _
theorem memorySpaceEnableClear {a0} : Statement (.memorySpaceEnableClear a0) := holds _
theorem atsPriEnableClear {a0} {a1} : Statement (.atsPriEnableClear a0 a1) := holds _
theorem phaseMark {a0} : Statement (.phaseMark a0) := holds _
theorem resyncComplete : Statement (.resyncComplete) := holds _
theorem hotResetReadiness : Statement (.hotResetReadiness) := holds _
theorem frameTagFailure {a0} : Statement (.frameTagFailure a0) := holds _
theorem receiveWindowOverrun : Statement (.receiveWindowOverrun) := holds _
theorem ecallOtherFunction {a0} : Statement (.ecallOtherFunction a0) := holds _

end Sys2Proof.Laws.Operands
end

