-- ==== Sys2Proof/Tests/Slice0.lean ====
section
/-! SUPPORT. Tests on small states. A theorem named witness_<Name> shows states and operands that meet all hypotheses of each clause
of the obligation <Name>; where a hypothesis says what a function answers, the answer that the function gives is used. A theorem
named test_<what> checks one command or operation against a value that the spec states or that follows from it by hand. -/

namespace Sys2Proof.Tests

-- One proof at a time: many kernel evaluations side by side reserve more thread stacks than the memory limit allows.
set_option Elab.async false

open Sys2Proof Sys2Proof.Machine

/-! ### A small running part -/

/-- Context 1: function 0, PASID 5, one arena granule. -/
def ctx1 : Ctx :=
  { Ctx.none with valid := true, pasid := 5, hdmWr := true, arena := [(0, hbmPa 0 0)], arenaBytes := 2 ^ 21 }

/-- The PF with every enable that serving needs. -/
def pf : Fn := { Fn.pf with mse := true, bme := true, atsEnable := true, priEnable := true, priAlloc := 32 }

/-- The part after bring-up, with compute die 0 alone in service. -/
def up : State :=
  { State.reset with
    boot := { Boot.reset with next := 7, fwRunning := true, state := 1, stage := 6, islandsOpen := [0, 1, 2, 3, 64] ++ (List.range 20).map (80 + ·) }
    wkt := { Wkt.reset with inService := (List.range 4).map (fun k => (k, [0, 1, 2, 3, 4, 5, 6, 7])) }
    port := { Port.reset with linkUp := true, ready := true }
    fns := [(0, pf)]
    ctxs := [(1, ctx1)] }

/-- The running part with core 0 changed. -/
def upCore (f : Core → Core) : State := up.setCore 0 (f Core.reset)

/-! ### The machine and the sequencer -/

theorem witness_StepRunsFront : up.pending = [] ∧ State.reset.pending = [] := by decide

theorem test_step_idles : step up = .next up := by rfl

/-- A core that may name the whole carve, with a0 at the first byte of its bulk window, a1 7 and a2 at byte 0x40 of its SRAM. -/
def busy (f : Core → Core) : State :=
  { upCore (fun c => f { c with x := [(10, 0x1000_0002_0000_0000), (11, 7), (12, 0x4000_0000_0000_0040)] }) with
    fw := { Ctx.none with hdmBytes := 2 ^ 35, hdmWr := true } }

def idle : State := busy id

/-- The key of a0's place. -/
def bulkKey : Nat := (idle.tgt (idle.seqReq 0) 0x1000_0002_0000_0000).key

theorem witness_RegisterZero : (5 : Reg) ≠ 0 ∧ (6 : Reg) ≠ 5 := by decide

/-- A core whose firmware holds its first arena granule device-strict, with a0 at its start. -/
def strictly : State :=
  { busy (fun c => { c with x := [(10, 0x2000_0000_0000_0000), (11, 7)] }) with
    fw := { Ctx.none with hdmBytes := 2 ^ 35, hdmWr := true, arena := [(0, hbmPa 0 0)], arenaBytes := 2 ^ 21, strict := [0] } }

/-- A load of n bytes at a place may be carried out. -/
def mayLoad (s : State) (a n : Nat) : Bool :=
  let q := s.seqReq 0
  s.canIssue 0 && !s.shutOut 0 && s.mayName q.fw q.tag a n .read && decide ((s.seqPrep q a n .read).1 = .ready) &&
    (!s.strictRange 0 q.fw q.tag a n || (decide (a % n = 0) && !s.strictPending 0))

theorem witness_LoadCompletes :
    let a := (effAddr ((idle.core 0).reg 12) 0x008).toNat
    let q := idle.seqReq 0
    let r := idle.seqPrep q a 8 .read
    let v := busy (fun c => (sbEntries 0x4000_0000_0000_0048 (natLe 0x1122 8) q false).foldl Core.buffer c)
    let w := v.seqPrep q a 8 .read
    let b := 0x2000_0000_0000_0000
    let x := strictly.seqPrep (strictly.seqReq 0) b 8 .read
    (mayLoad idle a 8 = true ∧ idle.strictRange 0 q.fw q.tag a 8 = false ∧ r.2.forward 0 (r.2.placesOf q a 8) = .none ∧
      (r.2.readRange q (r.2.unitCore 0) a 8).1 = some [0, 0, 0, 0, 0, 0, 0, 0]) ∧
    (mayLoad v a 8 = true ∧ w.2.forward 0 (w.2.placesOf q a 8) = .all (natLe 0x1122 8)) ∧
    (mayLoad strictly b 8 = true ∧ strictly.strictRange 0 true 0 b 8 = true ∧
      (x.2.readRange (strictly.seqReq 0) (x.2.unitCore 0) b 8).1 = some [0, 0, 0, 0, 0, 0, 0, 0]) := by decide

/-- A store buffer entry for the core's own SRAM. -/
def entryAt (off : Nat) (merge : Bool) (bs : List (Nat × Byte)) : SbEntry :=
  { line := 0x4000_0000_0000_0000 + off, ptr := BitVec.ofNat 64 (0x4000_0000_0000_0000 + off), bytes := bs, fw := true, tag := 0,
    pasid := 0, merge := merge }

/-- A core whose store buffer holds one entry. -/
def storing (merge : Bool) : State := busy (fun c => { c with sb := [entryAt 0x40 merge [(0, 1), (9, 2)]] })

/-- The part of storing's entry that word 0 selects may drain. -/
def drains (merge : Bool) : Bool :=
  let s := storing merge
  let e := entryAt 0x40 merge [(0, 1), (9, 2)]
  let part := if merge then e.bytes.filter (fun b => b.1 / 8 = 0) else e.bytes
  let q := s.sbReq 0 e
  let ls := sbLines e.line part
  let r := ls.foldl (fun (a : Ready × State) l => let r := a.2.seqPrep q l.1 1 .write; (a.1.and r.1, r.2)) (.ready, s)
  decide ((s.core 0).sb[0]? = some e) && !part.isEmpty && s.coreUp 0 && mayDrain (s.core 0).sb 0 && decide (r.1 = .ready) &&
    ls.all (fun l => !r.2.lineRefused q l.1 && r.2.lineAnswers q l.1 && !(r.2.tgt q l.1).io && decide (l.2.map (·.1)).Nodup) &&
    r.2.mem.poison.isEmpty

theorem witness_StoresBufferedThenDrained :
    (let a := effAddr ((idle.core 0).reg 12) 0
     let q := idle.seqReq 0
     let es := sbEntries a.toNat (natLe ((idle.core 0).reg 11).toNat 8) q
       (!(idle.core 0).machineMode && bit (idle.core 0).wctx.toNat 32)
     idle.canIssue 0 = true ∧ idle.shutOut 0 = false ∧ idle.mayName q.fw q.tag a.toNat 8 .write = true ∧
       idle.strictRange 0 q.fw q.tag a.toNat 8 = false ∧ (idle.storePrep q a.toNat 8).1 = .ready ∧
       ((idle.storePrep q a.toNat 8).2.core 0).sbRoom es = true) ∧
    (let b := 0x2000_0000_0000_0000
     strictly.canIssue 0 = true ∧ strictly.shutOut 0 = false ∧ strictly.mayName true 0 b 8 .write = true ∧
       strictly.strictRange 0 true 0 b 8 = true ∧ b % 8 = 0 ∧ strictly.strictPending 0 = false ∧
       strictly.allowed (strictly.physOf 0 true 0 b) true false 0 true = true ∧ strictly.answers (strictly.physOf 0 true 0 b) = true) ∧
    drains false = true ∧ drains true = true := by decide

/-- What an atomic needs of a state with a0 at byte n of the bulk window. -/
def atomicOk (s : State) (n : Nat) : Bool :=
  let p := (s.core 0).reg 10
  let q := s.seqReq 0
  let r := s.atomPrep q p.toNat n
  let t := r.2.tgt q p.toNat
  s.canIssue 0 && decide (p.toNat % n = 0) && !s.shutOut 0 && decide (space p.toNat < 3) &&
    s.mayName q.fw q.tag p.toNat n .atomic && !s.strict 0 q.fw q.tag p.toNat && (s.core 0).sb.isEmpty &&
    decide (r.1 = .ready) && !r.2.noAtomic q p.toNat && !r.2.buffersLine 0 t.key &&
    (isHostKey t.key || r.2.allowed t.key q.fw t.host q.tag true) && !r.2.mem.poisoned t.key n

/-- The same part in deterministic mode. -/
def idleDet : State := { idle with boot := { idle.boot with deterministic := true } }

theorem witness_AtomicsAndReservations :
    ([8, 4, 2].all (fun n => atomicOk idle n) && [4, 2].all (fun n => atomicOk idleDet n)) = true ∧
      idle.boot.deterministic = false ∧ idleDet.boot.deterministic = true := by decide

/-- What LR and SC need of a state with a0 in the bulk window. -/
def reserveOk (s : State) (n : Nat) : Bool :=
  let p := (s.core 0).reg 10
  let q := s.seqReq 0
  let r := s.seqPrep q p.toNat n .atomic
  let t := r.2.tgt q p.toNat
  s.canIssue 0 && decide (p.toNat % n = 0) && !s.shutOut 0 && decide (space p.toNat < 3) &&
    s.mayName q.fw q.tag p.toNat n .atomic && !s.strict 0 q.fw q.tag p.toNat && (s.core 0).sb.isEmpty &&
    decide (r.1 = .ready) && !r.2.noAtomic q p.toNat && !r.2.buffersLine 0 t.key

/-- A core that holds a reservation on a0's line. -/
def reserving : State := busy (fun c => { c with resv := some bulkKey })

theorem witness_AtomicsAndReservations_reservations :
    reserveOk idle 8 = true ∧ reserveOk idle 4 = true ∧ (idle.core 0).resv = none ∧
    (let q := idle.seqReq 0
     ((idle.seqPrep q 0x1000_0002_0000_0000 8 .atomic).2.readRange q 0 0x1000_0002_0000_0000 8).1 = some [0, 0, 0, 0, 0, 0, 0, 0]) ∧
    (let q := reserving.seqReq 0
     let r := reserving.seqPrep q 0x1000_0002_0000_0000 8 .atomic
     let t := r.2.tgt q 0x1000_0002_0000_0000
     reserveOk reserving 8 = true ∧ (reserving.core 0).resv ≠ none ∧ (r.2.core 0).resv = some (lineOf t.key) ∧
       r.2.allowed t.key q.fw t.host q.tag true = true ∧ r.2.mem.poisoned t.key 8 = false) := by decide

/-- A core in user mode. -/
def userCore : State := busy (fun c => { c with machineMode := false })

/-- A core with the cycle interrupt pending and enabled. -/
def timed : State := busy (fun c => { c with mie := 0x4_0000, mcycle := 100, wcyccmp := 100, mstatus := 0x20_0008 })

/-- A core with interrupt i pending and every interrupt enabled. -/
def interrupted (i : Nat) : State :=
  busy (fun c => { c with
    mie := 0x7_0808, mstatus := 0x20_0008, mcycle := 100
    wcyccmp := if i = 18 then 100 else 101, mip := if i = 11 then 0x800 else if i = 3 then 8 else 0
    wengerr := if i = 16 then 1 else 0, wsemovf := if i = 17 then 1 else 0 })

/-- A raw program of context 1 on core 0, which has made n calls. -/
def prog (n : Nat) : Program :=
  { f := 0, r := 0, q := 3, ctx := 1, entry := 0x100, arg := 0, limit := 0, buf := 0, started := true,
    cores := [{ g := 0, exited := false, code := 0, result := 0, calls := n }], ending := .running, fault := none, dies := [0], silent := false }

/-- Core 0 runs it, with call number a in a7. -/
def calling (a : Word) : State :=
  { userCore with
    cores := [(0, { Core.reset with machineMode := false, x := [(10, 9), (17, a)], wctx := 0x2_0000_0001 })]
    srv := { up.srv with programs := [prog 0] } }

/-- Core 0 waits at its first rendezvous. -/
def meeting : State :=
  { up with cores := [(0, { Core.reset with wait := .rendezvous 1, mepc := 0x104 })], srv := { up.srv with programs := [prog 1] } }

/-- Core 0 runs a raw program with a time limit. -/
def limited : State :=
  { userCore with srv := { up.srv with programs := [{ prog 0 with limit := 100 }] } }

theorem witness_CsrAccessAndInterrupts :
    (idle.canIssue 0 = true ∧ (idle.core 0).mayCsr 0x340 = true ∧ bits 0x340 11 10 ≠ 3 ∧ idle.csr 0 0x340 = some 0) ∧
    ((idle.core 0).mayCsr 0xF14 = true ∧ bits 0xF14 11 10 = 3 ∧ idle.csr 0 0x123 = none) ∧
    (userCore.canIssue 0 = true ∧ (userCore.core 0).mayCsr 0x340 = false) ∧
    ([16, 17, 11, 3, 18].all (fun i =>
      let c := (interrupted i).core 0
      (interrupted i).coreUp 0 && !c.parked && c.wait.breaks && bit c.mstatus.toNat 3 && bit c.mie.toNat i &&
        [16, 17, 11, 3, 18].all (fun j => bit c.mipNow.toNat j == decide (i = j))) = true) ∧
    (bit (limited.core 0).mcountinhibit.toNat 0 = false ∧ (limited.programOf 0).map (·.limit) = some 100) := by decide

theorem witness_ExceptionsAndEnvironmentCalls :
    (idle.canIssue 0 = true ∧ (idle.core 0).machineMode = true ∧ (idle.core 0).parked = false) ∧
    ([0, 1, 2, 3].all (fun a => (calling a).canIssue 0 && !((calling a).core 0).machineMode && decide ((calling a).programOf 0 = some (prog 0)) &&
      ((calling a).progCore 0).isSome && decide (((calling a).core 0).a7 = a.toNat)) = true) ∧
    ((meeting.core 0).wait = .rendezvous 1 ∧ meeting.programOf 0 = some (prog 1) ∧ (prog 1).met 1 = true ∧ meeting.coreUp 0 = true ∧
      (meeting.core 0).parked = false) := by decide

/-! ### Queues, semaphores, barriers -/

/-- A command with a ticket in a phase; its bytes are 32 zeros but for the opcode. -/
def cmdOf (op : Byte) (sync : BitVec 64) (ph : CmdPhase) : EngCmd :=
  { ticket := 1, bytes := op :: List.replicate 31 0, sync := sync, user := false, wctx := 0, phase := ph, desc := 0, tile := 0, checked := false,
    joined := false }

/-- Core 0 with n such commands in queue q, and queue q halted or not. -/
def queued (q n : Nat) (c : EngCmd) (wengerr : Word) : State :=
  busy (fun k => { (k.setQueue q { items := List.replicate n (.cmd c), issued := 1, completed := 0 }) with wengerr := wengerr })

theorem witness_QueuesDispatchAndProgress :
    (idle.canIssue 0 = true ∧ idle.badCommand 0 0 0x40 = false ∧ (idle.core 0).sramPerformed = true ∧
      idle.mem.poisoned (coreSramPa 0 0x40) 32 = false ∧ syncBad 0 = false ∧ (idle.core 0).halted 0 = false ∧
      ((idle.core 0).queue 0).used 0 + (cmdOf 0 0 .queued).entries 0 ≤ queueDepth 0) ∧
    (let s := queued 0 16 (cmdOf 0 0 .queued) 0
     s.canIssue 0 = true ∧ s.badCommand 0 0 0x40 = false ∧ (s.core 0).halted 0 = false ∧
       queueDepth 0 < ((s.core 0).queue 0).used 0 + (cmdOf 0 0 .queued).entries 0) ∧
    (let s := queued 0 0 (cmdOf 0 0 .queued) 1
     s.canIssue 0 = true ∧ s.badCommand 0 0 0x40 = false ∧ (s.core 0).halted 0 = true) ∧
    ([(1, 0, CmdPhase.queued), (1, 0x40, .queued), (1, 0x40, .waiting), (1, 0, .finished), (1, 0, .released), (0xF, 0, .queued)].all
      (fun (x : Byte × BitVec 64 × CmdPhase) =>
        let s := queued 0 1 (cmdOf x.1 x.2.1 x.2.2) 0
        decide (s.head 0 0 = some (cmdOf x.1 x.2.1 x.2.2)) && s.coreUp 0 && !(s.core 0).halted 0) = true) ∧
    syncWaitEn 0 = false ∧ syncWaitEn 0x40 = true ∧ reservedOp 0 (cmdOf 1 0 .queued).bytes = false ∧
    reservedOp 0 (cmdOf 0xF 0 .queued).bytes = true := by decide

/-- Core 0 waits for ticket 1 of queue 0, which has reached it. -/
def reached : State := busy (fun c => { (c.setQueue 0 { items := [], issued := 1, completed := 1 }) with wait := .queue 0 1 5 })

theorem witness_EngineControl :
    (idle.canIssue 0 = true ∧ (4 : BitVec 12).toNat ≤ 4 ∧ (3 : BitVec 12).toNat < 4) ∧
    ((reached.core 0).wait = .queue 0 1 5 ∧ reached.coreUp 0 = true ∧ (reached.core 0).ewaitDone 0 1 = true) ∧
    (let s := queued 3 2 (cmdOf 1 0 .queued) 8
     s.canIssue 0 = true ∧ (s.core 0).halted 3 = true) ∧ (idle.core 0).halted 3 = false := by decide

/-- Core 0 waits first in line for 2 of semaphore 63. -/
def semWaiting : State := busy (fun c => { c with wait := .sem 63 2 5, semWaits := [(63, 0)], sems := [(63, 2)] })

theorem witness_SemaphoreInstrs :
    (idle.canIssue 0 = true ∧ (idle.core 0).sramPerformed = true ∧ (63 : BitVec 12).toNat < 64) ∧
    (semWaiting.coreUp 0 = true ∧ (semWaiting.core 0).semWaits.find? (fun w => w.1 = 63) = some (63, 0) ∧
      (semWaiting.core 0).wait = .sem 63 2 5 ∧ 2 ≤ (semWaiting.core 0).sem 63) := by decide

/-- A core whose store buffer holds a store to a stack that does not answer. -/
def deadStore (w : SeqWait) (bs : List Barrier) : State :=
  let e : SbEntry := { line := 0x1000_0002_0000_0000, ptr := 0x1000_0002_0000_0000, bytes := [(0, 1)], fw := true, tag := 0, pasid := 0, merge := false }
  let s := busy (fun c => { c with wait := w, barriers := bs, sb := [e] })
  { s with boot := { s.boot with stackFailed := List.range 12 } }

/-- A full barrier of the sequencer alone whose marker has nothing before it. -/
def atBarrier : State := busy (fun c => { c with wait := .barrier 0, barriers := [{ id := 0, kind := .full, mask := 1 }] })

theorem witness_FenceActsAsBarrier :
    idle.canIssue 0 = true ∧ (idle.core 0).sb = [] ∧ (storing false).canIssue 0 = true ∧ ((storing false).core 0).sb ≠ [] := by decide

theorem witness_BarriersAndStoreTimeouts :
    (idle.canIssue 0 = true ∧ (idle.core 0).sb = [] ∧ 0 < (15 : BitVec 12).toNat ∧ (15 : BitVec 12).toNat < 16) ∧
    ((atBarrier.core 0).barriers.find? (fun b => (atBarrier.core 0).barrierDone b) = some { id := 0, kind := .full, mask := 1 } ∧
      atBarrier.coreUp 0 = true) ∧
    (let s := deadStore (.barrier 0) [{ id := 0, kind := .full, mask := 1 }]
     s.firstDead 0 = some 0x1000_0002_0000_0000 ∧ (s.core 0).parked = false ∧ (s.core 0).machineMode = true ∧ (s.core 0).wait = .barrier 0 ∧
       (s.core 0).barriers.any (fun b => b.id = 0 && b.kind = .load) = false) ∧
    (let s := deadStore (.barrier 0) [{ id := 0, kind := .load, mask := 1 }]
     s.firstDead 0 = some 0x1000_0002_0000_0000 ∧ (s.core 0).wait = .barrier 0 ∧
       (s.core 0).barriers.any (fun b => b.id = 0 && b.kind = .load) = true) ∧
    (let s := deadStore .none []
     s.firstDead 0 = some 0x1000_0002_0000_0000 ∧ (s.core 0).wait = .none) := by decide

/-! ### Engines, channels, collectives -/

/-- A started command of n bytes beginning with l. -/
def started (l : Bytes) (n : Nat) : EngCmd := { cmdOf 0 0 .started with bytes := l ++ List.replicate (n - l.length) 0 }

/-- Core 0 with that command at the head of queue q. -/
def engine (q : Nat) (c : EngCmd) : State := queued q 1 c 0

/-- MMUL of one row by one column over 32 elements, E4M3 both: weights from 0, activations from 0x100, entry (0, 0). -/
def mmulBytes : Bytes := [1, 0, 1, 0, 1, 0, 1, 1, 0, 0, 0, 0, 0, 0, 0, 1, 0, 2, 0, 2, 0]

/-- MDRAIN of entry (0, 0) to FP32 at 0x200, with row and column scales of 1. -/
def mdrainBytes : Bytes := [2, 9, 0, 0, 1, 0, 0, 1, 0, 2, 0]

/-- MCBLOAD of slot 1 from 0x300. -/
def mcbloadBytes : Bytes := [3, 0, 0, 1, 1, 0, 0, 0, 0, 3, 0]

/-- The state before an MMUL of 1.0 by 1.0, 32 times. -/
def ones : State :=
  let s := engine 0 (started mmulBytes 32)
  { s with mem := { s.mem with cells := ((List.range 32).map (fun i => (coreSramPa 0 i, 0x38))) ++
    ((List.range 32).map (fun i => (coreSramPa 0 (0x100 + i), 0x38))) } }

/-- Core 0 has an accumulator entry poisoned. -/
def spoiled (l : Bytes) : State :=
  let s := engine 0 (started l 32)
  s.modCore 0 (fun c => { c with accPoison := [0] })

theorem witness_MatrixCommands :
    ([[], mmulBytes, mdrainBytes, mcbloadBytes].all (fun l =>
      let c := started l 32
      let s := engine 0 c
      decide (s.head 0 0 = some c ∧ c.phase = .started ∧ s.coreUp 0 = true ∧ (s.core 0).halted 0 = false)) = true) ∧
    (mmulCheck (started mmulBytes 32) = 0 ∧ (mmulRun 0 (started mmulBytes 32) (engine 0 (started mmulBytes 32))).1 = 0) ∧
    (mdrainCheck (started mdrainBytes 32) = 0 ∧ (mdrainRun 0 (started mdrainBytes 32) (engine 0 (started mdrainBytes 32))).1 = 0 ∧
      (mdrainRun 0 (started mdrainBytes 32) (spoiled mdrainBytes)).1 ≠ 0) ∧
    (mcbloadCheck (started mcbloadBytes 32) = 0 ∧
      (mcbloadRun 0 (started mcbloadBytes 32) (engine 0 (started mcbloadBytes 32))).1 = 0) ∧
    (mmulCheck (started [1] 32) ≠ 0 ∧ mdrainCheck (started [2] 32) ≠ 0 ∧ mcbloadCheck (started [3] 32) ≠ 0 ∧
      nonzero (started [0, 1] 32).bytes 1 31 = true) := by decide

theorem witness_MatrixProducts :
    let c := started mmulBytes 32
    let f := mmulOf c.bytes
    ones.head 0 0 = some c ∧ c.phase = .started ∧ ones.coreUp 0 = true ∧ (ones.core 0).halted 0 = false ∧
      cmdByte c.bytes 0 = 1 ∧ mmulCheck c = 0 ∧ ones.sramPoison 0 f.ranges = none ∧ (ones.core 0).accPoison = [] ∧
      0 < f.m ∧ 0 < f.n := by decide

/-- 32 products of 1 and 1 sum to 32 (R106). -/
theorem test_mmul_sum : fpDecode .w40 (ones.mmulEntry 0 (mmulOf mmulBytes) false 0 0) = fpDecode .w40 (fpRound .w40 false (ofInt 32 0)) ∧
    f32 (rne32 (fpDecode .w40 (ones.mmulEntry 0 (mmulOf mmulBytes) false 0 0))) = f32 0x42000000 := by decide

/-- A vector command of opcode op: FP32 to FP32, one row of two columns, A at 0, B at 0x100 and C at 0x200 full, D at 0x300. -/
def vecBytes (op fn : Byte) (b c : Bool) (imm : Bytes) : Bytes :=
  [op, 0x99, 0, fn, 0, 0, 0, 0, if b then 1 else 0, 0, 0, if c then 2 else 0, 0, 0, 3, 0, 1, 0, 2, 0, 0, 0, 0, 0] ++ imm

/-- The vector commands of every opcode. -/
def vecAll : List (Byte × Bytes) :=
  [(1, vecBytes 1 0 true false []), (2, vecBytes 2 0 true false []), (3, vecBytes 3 0 true false []), (4, vecBytes 4 0 true true []),
   (5, vecBytes 5 0 true false []), (6, vecBytes 6 0 true false []), (7, vecBytes 7 0 false false []), (8, vecBytes 8 5 true false []),
   (9, vecBytes 9 0 true false []), (0xA, vecBytes 0xA 0 true true []), (0x10, vecBytes 0x10 1 false false []),
   (0x11, vecBytes 0x11 0 false false []), (0x12, vecBytes 0x12 0 false false []), (0x13, vecBytes 0x13 0 true true [0, 0, 0x80, 0x3F]),
   (0x14, vecBytes 0x14 2 false false [])]

theorem witness_VectorCommands :
    (vecAll.all (fun x =>
      let c := started x.2 32
      let s := engine 1 c
      decide (s.head 0 1 = some c ∧ c.phase = .started ∧ s.coreUp 0 = true ∧ (s.core 0).halted 1 = false ∧
        cmdByte c.bytes 0 = x.1.toNat ∧ vecCheck c = 0)) = true) ∧
    (let c := started (vecBytes 1 0 true false []) 32
     let s := engine 1 c
     (vecElem (fun a b _ => fadd a b) 0 c s).1 = 0 ∧
       (vecElem (fun a b _ => fadd a b) 0 c { s with mem := { s.mem with poison := [coreSramPa 0 0 / 8] } }).1 ≠ 0) ∧
    vecCheck (started [1] 32) ≠ 0 ∧ nonzero (started [] 32).bytes 1 31 = false := by decide

theorem witness_VectorFrame :
    let c := started (vecBytes 1 0 true false []) 32
    let s := engine 1 c
    s.head 0 1 = some c ∧ c.phase = .started ∧ vecCheck c = 0 ∧ (∃ t, exec (.vadd 0) s = .next t) ∧
      coreSramPa 0 0 + (vecOf c.bytes).dst = coreSramPa 0 0x300 := ⟨by decide, rfl, by decide, ⟨_, rfl⟩, rfl⟩

/-- 1.5 + 2.25 is 3.75 in FP32 (R117). -/
theorem test_vadd :
    let s := engine 1 (started (vecBytes 1 0 true false []) 32)
    let t := { s with mem := (s.mem.write (coreSramPa 0 0) (natLe 0x3FC00000 4)).write (coreSramPa 0 0x100) (natLe 0x40100000 4) }
    (vecElem (fun a b _ => fadd a b) 0 (started (vecBytes 1 0 true false []) 32) t).2.sramNat 0 0x300 4 = 0x40700000 := by decide

/-- A descriptor: type, formats, PARAM, SRC, DST and what follows from byte 24. -/
def desc (ty fmt : Byte) (param src dst : Nat) (rest : Bytes) : Bytes :=
  let l := [ty, 0, fmt, 0] ++ natLe param 4 ++ natLe src 8 ++ natLe dst 8 ++ rest
  l ++ List.replicate (64 - l.length) 0

/-- Places that the descriptors of these tests name: core SRAM of the core itself, and the bulk window. -/
def sramAt (o : Nat) : Nat := 0x4000_0000_0000_0000 + o
def bulkAt (o : Nat) : Nat := 0x1000_0002_0000_0000 + o

/-- One descriptor of each type that moves data and checks. -/
def descs : List Bytes :=
  [desc 0 0 0 0 0 [], desc 1 0 0 (sramAt 0x100) (bulkAt 0) (natLe 65 8),
   desc 2 0 16 (sramAt 0) (bulkAt 0) ([2, 0, 1, 0, 1, 0, 0, 0] ++ natLe 32 4 ++ natLe 0 8 ++ natLe 16 4),
   desc 3 0 8 (bulkAt 0) (sramAt 0x100) (natLe (sramAt 0x40) 8 ++ natLe 1 4 ++ natLe 1 4 ++ natLe 8 4 ++ natLe 8 4),
   desc 4 0 8 (sramAt 0x100) (bulkAt 0) (natLe (sramAt 0x40) 8 ++ natLe 1 4 ++ natLe 1 4 ++ natLe 8 4 ++ natLe 8 4)]

/-- Channel 0 of core 0 with a descriptor started. -/
def channel (d : Bytes) : State := engine 2 (started d 64)

/-- Context 1's part in core 0, which may name host memory. -/
def hostChan (d : Bytes) : State :=
  let s := engine 2 { started d 64 with user := true, wctx := 1, checked := true }
  { s with ctxs := [(1, { ctx1 with hostEn := true })] }

/-- KVPUT and KVGET of one token, one group, through a page table entry for the first page of the arena. -/
def kvDesc (ty fmt : Byte) (src dst : Nat) : Bytes :=
  desc ty fmt 0 src dst (natLe (sramAt 0x40) 8 ++ [1, 0, 1, 0, 0, 0, 16, 0, 1, 0, 0, 0])

/-- Channel 0 with such a descriptor, and the entry in place. -/
def kvChan (d : Bytes) : State :=
  let c := { started d 64 with user := true, wctx := 1 }
  let s := engine 2 c
  { s with mem := s.mem.write (coreSramPa 0 0x40) (natLe 0x2000_0000_0000_0001 8), own := [(hbmPa 0 0, 0x9001)] }.modCore 0 (fun c => { c with residentTag := 1 })

theorem witness_DmaDescriptors :
    (descs.zipIdx.all (fun x =>
      let s := channel x.1
      let c := started x.1 64
      let q := dmaReq 0 0 c
      let r := runTiles (fun y i => y.tile q x.1 i) (tileCount x.1) 0 s
      decide (s.running 0 0 (· = x.2) = some c ∧ s.dmaCheck q x.1 0 = 0 ∧ r.2.1 = .done)) = true) ∧
    ((channel (desc 1 0 0 0 0 [])).dmaCheck (dmaReq 0 0 (started (desc 1 0 0 0 0 []) 64)) (desc 1 0 0 0 0 []) 0 ≠ 0) ∧
    (let d := desc 1 0 0 0x1000 (sramAt 0x100) (natLe 64 8)
     let c := { started d 64 with user := true, wctx := 1, checked := true }
     let s := hostChan d
     s.running 0 0 (· = 1) = some c ∧ (runTiles (fun y i => y.tile (dmaReq 0 0 c) d i) (tileCount d) 0 s).2.1 = .wait) ∧
    (let d := desc 3 0 8 (bulkAt 0) (sramAt 0x100) (natLe (sramAt 0x40) 8 ++ natLe 1 4 ++ natLe 0 4 ++ natLe 8 4 ++ natLe 8 4)
     let c := started d 64
     (runTiles (fun y i => y.tile (dmaReq 0 0 c) d i) (tileCount d) 0 (channel d)).2.1 = .err 0x32) ∧
    (let d := desc 1 0 0 (sramAt 0x100) (bulkAt 0) (natLe 65 8)
     let c := { started d 64 with checked := true }
     (engine 2 c).running 0 0 (fun t => decide (t ≤ 6)) = some c ∧
       (runTiles (fun y i => y.tile (dmaReq 0 0 c) d i) (tileCount d) 0 (engine 2 c)).2.1 = .done) ∧
    ([(5, kvDesc 5 0x09 (sramAt 0x200) 0), (6, kvDesc 6 0x90 0 (sramAt 0x200))].all (fun x =>
      let s := kvChan x.2
      let c := { started x.2 64 with user := true, wctx := 1 }
      let q := dmaReq 0 0 c
      decide (s.running 0 0 (· = x.1) = some c ∧ s.dmaCheck q x.2 0 = 0 ∧
        (runTiles (fun y i => y.tile q x.2 i) (tileCount x.2) 0 s).2.1 = .done)) = true) := by decide

/-- Channel 0 reads from a stack that does not answer. -/
def deadRead : State :=
  let s := engine 2 { started (desc 1 0 0 (bulkAt 0) (sramAt 0x100) (natLe 64 8)) 64 with checked := true }
  { s with boot := { s.boot with stackFailed := List.range 12 } }

/-- A group of n members with map 0x2000 0000 of stack 0, self 0, the buffers of 4 KiB, in entry 0 of core 0. -/
def groupBytes (n : Nat) (self : Nat) (core : Nat) : List Host.Cell :=
  let l := natLe n 2 ++ natLe self 2 ++ [1, 0, 0, 0] ++ natLe (hbmPa 0 0) 8 ++ natLe 0 8 ++ natLe 4096 4 ++ natLe 4096 4 ++ natLe 8192 8 ++
    natLe (hbmPa 0 0x1000) 8
  (l.zipIdx.map (fun x => (groupAt core 0 + x.2, x.1))).filter (fun x => x.2 ≠ 0)

/-- A member's part that stands in a phase. -/
def partOf (core member : Nat) (d : Bytes) (ph : JoinPhase) : Joined :=
  { g := core, chan := 0, map := hbmPa 0 0, order := 0, member := member, sub := 0, bytes := d, phase := ph, tile := 0, routes := [],
    sends := [], got := [], outs := [] }

/-- Core 0 with a collective descriptor in channel 0, in a group of n, and joined where a phase is given. -/
def member (n : Nat) (d : Bytes) (ph : Option JoinPhase) : State :=
  let s := engine 2 { started d 64 with joined := ph.isSome }
  { s with mem := { s.mem with cells := groupBytes n 0 0 }, joins := ph.toList.map (partOf 0 0 d) }

/-- EXCHANGE of n tokens, COMBINE without rows, REDUCE of one FP32. -/
def exchangeD (n : Nat) : Bytes := desc 7 0 0 (sramAt 0x600) 0 (natLe (sramAt 0x400) 8 ++ natLe 0 8 ++ natLe n 2 ++ [1, 0, 1, 0, 1, 0, 6, 0])
def combineD : Bytes := desc 8 0x99 0 0 0 (natLe 0 8 ++ natLe 0 4 ++ natLe 0 4 ++ natLe 0 2 ++ [1, 0, 1, 0, 1, 0, 1, 0, 1, 0])
def reduceD (src : Nat) : Bytes := desc 9 0x99 0 src (sramAt 0x200) (natLe 1 4 ++ [0, 0, 0xFF, 0xFF])

/-- Core 0 reduces from a stack that does not answer. -/
def deadReduce : State :=
  let s := member 1 (reduceD (bulkAt 0)) (some .running)
  { s with boot := { s.boot with stackFailed := List.range 12 } }

theorem witness_TimeoutsOfTargetsAndCollectives :
    (((busy (fun c => { c with deadWrites := [{ q := 3, line := 0, ptr := 0, tag := none }] })).core 0).deadWrites.any (fun w => w.q = 3) = true) ∧
    (let c := { started (desc 1 0 0 (bulkAt 0) (sramAt 0x100) (natLe 64 8)) 64 with checked := true }
     let s := deadRead
     (s.core 0).deadWrites.any (fun w => w.q = 2) = false ∧ s.running 0 0 (fun t => decide (t ≤ 9)) = some c ∧ c.checked = true ∧
       s.joins = [] ∧ (s.tile { dmaReq 0 0 c with abandon := true } (c.descriptor 0) 0).1 = .err 4) ∧
    (let j := partOf 0 0 (reduceD (bulkAt 0)) .running
     (deadReduce.running 0 0 (fun t => decide (t ≤ 9))).isSome = true ∧ j.onQueue 0 2 = true ∧
       ((deadReduce.parts j).find? (fun p => j.same p.j)).any (fun p => decide ((deadReduce.memberTile p).1 = .err 4)) = true) ∧
    (let s := member 2 (reduceD (sramAt 0x100)) (some .waiting)
     let j := partOf 0 0 (reduceD (sramAt 0x100)) .waiting
     s.joins.find? (fun j => j.onQueue 0 2 && s.waitsForMembers j) = some j) := by decide

/-- The check of a collective of type ty. -/
def checkOf (s : State) (ty : Nat) (d : Bytes) : Nat :=
  let c := started d 64
  let q := dmaReq 0 0 c
  if ty = 7 then s.exchangeCheck q c d 0 else if ty = 8 then s.combineCheck q c d 0 else s.reduceCheck q c d 0

/-- The collective of a descriptor of type ty may join, waits while another member is missing, begins with the last, and goes on at
work; one of an invalid group entry may not join. -/
def mayJoin (ty : Nat) (d : Bytes) : Bool :=
  let s := member 1 d none
  let j := partOf 0 0 d .waiting
  let parts (n : Nat) (ph : JoinPhase) (k : Joined → Nat → Bool) : Bool :=
    let s := member n d (some ph)
    let j := { j with phase := ph }
    decide (s.joinNow j = j) && ((s.parts j).head?).any (fun p => k p.j (p.e.members - (s.parts j).length))
  decide (s.running 0 0 (· = ty) = some (started d 64) ∧ checkOf s ty d = 0 ∧ checkOf { s with mem := State.reset.mem } ty d ≠ 0) &&
    decide ((s.routes (dmaReq 0 0 (started d 64)) (exchangeD 0)).1 = .done) &&
    parts 2 .waiting (fun _ k => k = 1) && parts 1 .waiting (fun _ k => k = 0) && parts 1 .running (fun p _ => p.phase = .running)

/-- Two members of a group whose descriptors are not the same. -/
def mismatched : State :=
  let s := member 2 (reduceD (sramAt 0x100)) (some .waiting)
  let d := desc 9 0x99 1 (sramAt 0x100) (sramAt 0x200) (natLe 1 4 ++ [0, 0, 0xFF, 0xFF])
  { s with joins := s.joins ++ [partOf 1 1 d .waiting] }.modCore 1 (fun c =>
    c.setQueue 2 { items := [.cmd { started d 64 with joined := true }], issued := 1, completed := 0 })

theorem witness_CollectivesRun :
    (mayJoin 7 (exchangeD 0) && mayJoin 8 combineD && mayJoin 9 (reduceD (sramAt 0x100))) = true ∧
    (let s := member 1 (exchangeD 1) none
     let q := dmaReq 0 0 (started (exchangeD 1) 64)
     let b : State := { s with mem := { s.mem with cells := s.mem.cells.map (fun c => if c.1 = groupAt 0 0 + 4 then (c.1, 3) else c) } }
     checkOf s 7 (exchangeD 1) = 0 ∧ (s.routes q (exchangeD 1)).1 = .err 0x30 ∧
       checkOf b 7 (exchangeD 1) = 0x35 ∧ (b.routes q (exchangeD 1)).1 = .err 0x30) ∧
    (let p := mismatched.parts (partOf 0 0 (reduceD (sramAt 0x100)) .waiting)
     p.length = 2 ∧ (p.map (fun x => x.e.members)).head? = some 2 ∧ (p.map (fun x => commonOf x.d)).Nodup) := by decide

theorem witness_DeterministicOrder : idleDet.boot.deterministic = true := by decide

/-- A prefetch of a level over a range, and of 1 prediction. -/
def prefetchD (level : Nat) : Bytes :=
  desc 10 0 level (if level = 3 then 0 else sramAt 0x100) 0 (if level = 3 then [] else natLe 1 8)

/-- An image with staging room of two blocks, and expert 3 of layer 0 homed on slot 0 of die 0. -/
def imageOf : Image :=
  let m : ImageMeta := { eos := [2], windows := [0], stagingBytes := 8192, prefixBytes := 4096, xbufBytes := 512, homes := [], weights := [] }
  { digest := [], bytes := 0, header := [], info := m, granules := [], codebooks := [], expertMap := [(3, 2 ^ 38)] }

/-- Channel 0 with a prefetch of a level, a main image loaded. -/
def prefetching (level : Nat) : State :=
  let s := channel (prefetchD level)
  { s with srv := { s.srv with main := some imageOf } }

/-- A Finder that one core has submitted to, with expert 3 filling, and expert 5 serving. -/
def finding : State :=
  let f : Finder :=
    { Finder.reset with sums := [(3, 7)], submitted := [0], filling := [{ expert := 3, complete := false, read := false }],
                        serving := [{ expert := 5, complete := false, read := false }] }
  (prefetching 2).setFinder 0 f

theorem witness_PrefetchAndFinder :
    ([0, 1].all (fun level =>
      let d := prefetchD level
      let s := prefetching level
      let c := started d 64
      let q := dmaReq 0 0 c
      let pages := cutAt 4096 (fieldLe d 24 8 / 4096 + 2) (dSrc d) (fieldLe d 24 8)
      let r := runTiles (fun s i => match pages[i]? with
        | some p => if level = 0 then s.bringPage q p.1 p.2 else s.prefetchPage q p.1 p.2
        | none => (.done, s)) (pages.length - c.tile) c.tile s
      decide (s.running 0 0 (· = 10) = some c ∧ rangeCheck d 0 = 0 ∧ r.2.1 = .done ∧ pLevel d = level)) = true) ∧
    (let d := prefetchD 2
     let s := prefetching 2
     let c := started d 64
     s.running 0 0 (· = 10) = some c ∧ pLevel d = 2 ∧ s.predictCheck (dmaReq 0 0 c) d 0 = 0 ∧
       (s.fetch (dmaReq 0 0 c) (dSrc d) 4).1 = .done) ∧
    ((prefetching 3).running 0 0 (· = 10) = some (started (prefetchD 3) 64) ∧ pLevel (prefetchD 3) = 3 ∧ beginCheck (prefetchD 3) 0 = 0) ∧
    (let f := finding.finder 0
     f.ranked = false ∧ f.submitted ≠ [] ∧ finding.srv.main.isSome = true ∧
       f.serving.map (fun b => (b.expert, b.complete)) = [(5, false)] ∧ f.filling.map (fun b => (b.expert, b.complete)) = [(3, false)] ∧
       f.serving.all (fun x => x.expert ≠ 3) = true) := by decide

/-- The part with the 8-byte word at a key poisoned. -/
def spoilt (k : Nat) : State := { idle with mem := { idle.mem with poison := [k / 8] } }

/-- Granule 0 of stack 11 has the last target number; a word of it, and of stacked SRAM, may be scrubbed, and the shared cache holds
words of HBM alone. An entry of the granule may take another PART, which stays below the size of the granule's bytes. -/
theorem witness_OwnershipWindowsAndScrub :
    granuleExists (hbmPa 11 0) = true ∧ granuleExists (hbmPa 11 (2 ^ 36 - 2 ^ 21)) = true ∧ granuleExists (hbmPa 11 (2 ^ 36)) = false ∧
      granuleOf 0 ≠ hbmPa 11 0 ∧ (hbmStack (hbmPa 11 0)).isSome = true ∧
      bits (idle.entryOf (hbmPa 11 0)).toNat 21 16 ≠ bits (0x10000 : BitVec 32).toNat 21 16 ∧
      bits (idle.entryOf (hbmPa 11 0)).toNat 21 16 = bits (0x2000 : BitVec 32).toNat 21 16 ∧
      scrubbed (hbmPa 11 8) false = true ∧ scrubbed (hbmPa 11 8) true = true ∧ scrubbed 0x2F_FFF8 false = true ∧
      scrubbed 0x2F_FFF8 true = false ∧ idle.mem.poisoned (hbmPa 11 8) 8 = false ∧
      (spoilt (hbmPa 11 8)).mem.poisoned (hbmPa 11 8) 8 = true := by decide
/-! ### Translation, coherence, the host port -/

/-- A waiter of core 0 for page 0x5000 of PASID 5, in a phase. -/
def waiting5 (ph : XPhase) : XWait :=
  { who := .seq 0, fn := 0, pasid := 5, va := 0x5000, rd := true, wr := true, phase := ph, successes := 0 }

/-- The part with requests for that page outstanding. -/
def translating (ats : List AtsReq) (reqs : List PageReq) (ph : XPhase) (p : Fn) : State :=
  { idle with fns := [(0, p)], xlt := { idle.xlt with ats := ats, reqs := reqs, waits := [waiting5 ph] } }

/-- A translation request and a page request for it. -/
def ats5 (stale : Bool) : AtsReq := { hub := 3, fn := 0, pasid := 5, va := 0x5000, noWrite := false, stale := stale, units := [0] }
def page5 (wr : Bool) : PageReq := { fn := 0, pasid := 5, va := 0x5000, rd := true, wr := wr, prg := 511, overdue := false }

/-- What PAGE_REQUEST asks of a state with that waiter. -/
def askPage (s : State) (noPri same full sends : Bool) : Bool :=
  let x := waiting5 .faulted
  let f := s.fn 0
  decide (s.xlt.waits.find? (·.isFor (.seq 0) 0x5000) = some x) && f.noPri == noPri &&
    (s.xlt.reqs.any (fun r => r.fn = 0 && r.pasid = 5 && r.va = 0x5000 && r.rd = x.rd && r.wr = x.wr)) == same &&
    (s.xlt.waits.any (fun y => decide (y.phase = .stalled) && y.fn = x.fn) || decide (min f.priAlloc.toNat 512 ≤ s.outstanding 0)) == full &&
    (s.recordFault x 0 true).1.isSome && (s.recordFault x 300 false).1.isSome && s.sends 0 == sends &&
    !s.xlt.reqs.any (fun r => r.fn = 0 && r.prg = 300)

theorem witness_TranslationsAndPageRequests :
    ([true, false].all (fun b =>
      let s := translating [ats5 b, ats5 b] [] .ats pf
      decide (s.xlt.ats.find? (fun a => a.fn = 0 && a.pasid = pasidOf (some 5) && a.va = 0x5000) = some (ats5 b))) = true) ∧
    (askPage (translating [] [] .faulted { pf with priEnable := false }) true false false true &&
      askPage (translating [] [page5 true] .faulted pf) false true false true &&
      askPage (translating [] [page5 false] .faulted { pf with priAlloc := 1 }) false false true true &&
      askPage (translating [] [page5 false] .faulted pf) false false false true) = true := by decide

theorem witness_PageResponsesAndInvalidations :
    (let s := translating [] [page5 true] .requested pf
     s.xlt.reqs.find? (fun r => r.fn = 0 && r.prg = 511) = some (page5 true) ∧
       s.xlt.reqs.find? (fun r => r.fn = 0 && r.prg = 0) = none ∧
       s.xlt.reqs.find? (fun r => r.fn = 0 && r.prg = 511 && !r.overdue) = some (page5 true)) ∧
    ((up.xlt.invals.filter (fun i => i.fn = 0)).length < 32 ∧
      ((some (4 : BitVec 20)).any (fun x => (up.ctxOf 0 x.toNat).isNone) = true) ∧ up.invSends 0 = true ∧
      (translating [ats5 false] [] .ats pf).xlt.ats ≠ []) ∧
    (let i : Inval := { fn := 0, pasid := some 5, itag := 31, reads := [], dead := [] }
     let s : State := { up with xlt := { up.xlt with invals := [i] } }
     s.xlt.invals.find? (fun i => i.fn = 0) = some i ∧ s.invSends 0 = true ∧ s.invDone i = true) := by decide

/-- A line of the coherent window, and the part with directory entries, issued requests and lines held. -/
def line0 : Nat := carvePa 0
def cohering (dir : List (Nat × DirEntry)) (reqs : List (Nat × Nat × Bool)) (held : List (Nat × List (Nat × Bool))) : State :=
  { idle with coh := { idle.coh with dir := dir, reqs := reqs, held := held } }

/-- A stable entry and a transient one. -/
def stable (st : DirSt) : DirEntry := { st := st, trans := none, used := 0 }
def moving (st : DirSt) (t : DirTrans) : DirEntry := { st := st, trans := some t, used := 0 }

/-- What GETS or GETM of agent n asks of a state. -/
def asks (s : State) (n : Nat) (excl : Bool) : Bool := s.agentOk n line0 && s.issued n line0 excl && s.coh.turn (streamOf n) line0

theorem witness_HomesGrant :
    ([true, false].all (fun x =>
      asks (cohering [] [(0, line0, x)] []) 0 x && asks (cohering [] [] []) 543 x && decide ((cohering [] [] []).coh.entry line0 = none) &&
      ((let e := stable (.shared [])
        let s := cohering [(line0, e)] [(0, line0, x)] []
        asks s 0 x && decide (s.coh.entry line0 = some e) && s.coh.atOnce e x)) &&
      ((let e := stable (.owned 1)
        let s := cohering [(line0, e)] [(0, line0, x)] []
        asks s 0 x && !s.coh.atOnce e x && !e.hostHolds (!x))) &&
      ((let e := stable (.owned hostAgent)
        let s := cohering [(line0, e)] [(0, line0, x)] []
        asks s 0 x && !s.coh.atOnce e x && e.hostHolds (!x) && s.snoops))) = true) ∧
    ((cohering [] [] []).coh.setOf line0).length < 16 ∧ (cohering [] [] []).coh.cacheVictim 0 line0 = none ∧
    (let s := cohering [(line0, stable (.owned 0))] [] [(0, [(line0, true)])]
     s.coh.holds 0 line0 true = true ∧ s.coh.entry line0 = some (stable (.owned 0))) ∧ line0 < 2 ^ 52 := by decide

theorem witness_TransactionsAdvance :
    (let t : DirTrans := { req := .agent 0 false, acks := [], fwd := true, snoop := false }
     let s := cohering [(line0, moving (.owned 1) t)] [(0, line0, false)] [(1, [(line0, true)])]
     s.coh.entry line0 = some (moving (.owned 1) t) ∧ s.coh.dead.contains 1 = false ∧ s.agentUp 1 = true ∧ line0 < 2 ^ 52) ∧
    (let t : DirTrans := { req := .agent 0 true, acks := [67], fwd := false, snoop := false }
     let s := cohering [(line0, moving (.shared [67]) t)] [(0, line0, true)] []
     s.coh.entry line0 = some (moving (.shared [67]) t) ∧ t.acks.contains 67 = true ∧ (agentsOf 67).any s.agentUp = true ∧
       (agentsOf 67).all (fun a => !s.coh.holds a line0 false) = true) ∧
    (let t : DirTrans := { req := .agent 0 true, acks := [], fwd := false, snoop := true }
     (cohering [(line0, moving (.owned hostAgent) t)] [] []).coh.entry line0 = some (moving (.owned hostAgent) t)) ∧
    (let t : DirTrans := { req := .agent 1 true, acks := [], fwd := true, snoop := false }
     let s0 := cohering [(line0, moving (.owned 2) t)] [(0, line0, true)] []
     let s : State := { s0 with coh := { s0.coh with nacks := [(0, line0, 3)] } }
     s.coh.nackCount 0 line0 ≠ 0 ∧
       s.coh.reqs.find? (fun r => decide (streamOf r.1 = 0) && decide (r.2.1 = line0)) = some (0, line0, true)) := by decide

/-- The part with both decoders committed at 2^40, and all its memory answering. -/
def hdm : State :=
  let d0 : Decoder := { committed := true, base := 2 ^ 40, size := 2 ^ 33, bi := true, commitError := false }
  let d1 : Decoder := { committed := true, base := 2 ^ 40 + 2 ^ 33, size := 24 * 2 ^ 30, bi := false, commitError := false }
  { idle with coh := { idle.coh with memoryActive := true, dec0 := d0, dec1 := d1 } }

/-- That part with no stack that answers. -/
def deaf : State := { hdm with boot := { hdm.boot with stackFailed := List.range 12 } }

/-- The part with a device-cache line at host address 0 in a state, and a request for the next line outstanding. -/
def caching (st : DcSt) : State :=
  { idle with coh := { idle.coh with cacheEnable := true, wbi := true, dc := [(0, st)], d2h := [(64, true)] } }

theorem witness_HostRequestsAndDeviceCache :
    (idle.port.linkUp = true ∧ idle.coh.memoryActive = false ∧ hdm.coh.memoryActive = true ∧ hdm.coh.hdmOff 0 = none ∧
      hdm.port.frozen = false ∧ hdm.answers (carvePa 0) = true ∧ deaf.answers (carvePa 0) = false ∧ deaf.coh.hdmOff (2 ^ 40) = some 0 ∧
      deaf.allowed (carvePa 0) false true 0 true = true ∧ deaf.port.linkUp = true ∧ (hdm.mem.poisoned (carvePa (2 ^ 33)) 64 = false) ∧
      ([(2 ^ 40, 0), (2 ^ 40 + 2 ^ 33 - 64, 2 ^ 33 - 64), (2 ^ 40 + 2 ^ 33, 2 ^ 33)].all (fun (x : Nat × Nat) =>
        decide (hdm.coh.hdmOff x.1 = some x.2) && hdm.allowed (carvePa x.2) false true 0 false &&
          hdm.allowed (carvePa x.2) false true 0 true && decide (hdm.coh.coherent x.2 = decide (x.2 < 2 ^ 33)) &&
          (!hdm.coh.coherent x.2 || ([HostWant.none, .shared, .owned].all (fun w =>
            !(hdm.hostReq (carvePa x.2) w none).1 && !(hdm.hostReq (carvePa x.2) w (some [])).1)))) = true)) ∧
    ([DcSt.s, .e, .m].all (fun st =>
      let s := caching st
      s.port.linkUp && !s.port.frozen && decide (mapFind s.coh.dc 0 = some st) &&
        decide (s.coh.d2h.find? (fun r => r.1 = 64) = some (64, true))) = true) ∧
    (idle.port.ready = true ∧ (idle.fn 0).quiescing = false ∧ idle.removing = false ∧ (idle.fn 0).enabled = true ∧
      idle.coh.dc = [] ∧ idle.coh.asks = false) ∧
    (let s : State := { caching .m with coh := { (caching .m).coh with d2h := [], curr := [(0, 64, false)] } }
     s.coh.wbi = true ∧ s.coh.d2h.find? (fun r => r.1 = 64) = none ∧ s.coh.curr.find? (fun x => x.2.1 = 64 && !x.2.2) = some (0, 64, false)) ∧
    (let s : State := { caching .m with coh := { (caching .m).coh with d2h := [] } }
     s.coh.wbi = true ∧ s.coh.asks = false ∧ s.coh.dcVictim 64 = none ∧ s.port.frozen = false ∧ s.port.linkUp = true) := by decide

/-- The part with no context. -/
def bare : State := { up with ctxs := [] }

theorem witness_CarveAndDecoders :
    bare.port.linkUp = true ∧ bare.barOpen 0 = true ∧ bare.boot.state ≠ 3 ∧
    ([1, 8].all (fun (v : BitVec 32) => !bit v.toNat 8 && decide (1 ≤ bits v.toNat 3 0 ∧ bits v.toNat 3 0 ≤ 8 ∧
      bits v.toNat 3 0 ≠ bare.coh.ways.toNat)) = true) ∧
    ([0x0000_0001, 0x0080_0080, 0x00FF_0001].all (fun (v : BitVec 32) =>
      let co := BitVec.ofNat 9 (bits v.toNat 8 0)
      let bu := BitVec.ofNat 9 (bits v.toNat 24 16)
      !bit v.toNat 31 && decide (co ≠ bare.coh.cohGib ∨ bu ≠ bare.coh.bulkGib) && decide (1 ≤ co.toNat + bu.toNat) &&
        decide (co.toNat + bu.toNat ≤ 256) && bare.carveFree (co.toNat + bu.toNat)) = true) ∧
    (bare.coh.hdmBusy = false ∧ bare.coh.dec0.committed = false ∧ bare.coh.dec1.committed = false ∧ bare.srv.main = none ∧
      bare.srv.draft = none ∧ bare.srv.loading = none ∧ bare.ctxs = [] ∧ bare.rings = []) ∧
    (({ bare with coh := { bare.coh with hdmBusy := true } } : State).coh.hdmBusy = true) ∧
    bare.coh.cohGib ≠ 0 ∧ (2 ^ 33 : Nat) = bare.coh.cohGib.toNat * 2 ^ 30 ∧ (2 ^ 33 : Nat) ≠ bare.coh.bulkGib.toNat * 2 ^ 30 := by decide

/-! ### Rings -/

/-- Ring 0 of the PF, enabled: submission ring at carve offset 8 GiB, completion ring at 0, one packet announced. -/
def ring0 : Ring := { Ring.reset with st := .active, enable := true, sqHdm := true, cqHdm := true, sqBase := 2 ^ 33, tail := 1, cqHead := 63 }

/-- The part with that ring changed, and bytes in its first slot. -/
def ringing (f : Ring → Ring) (slot : Bytes) : State :=
  let s : State := { idle with rings := [(0, f ring0)] }
  { s with mem := s.mem.write (carvePa (2 ^ 33)) slot }

theorem witness_RingRegisters_doorbells :
    let s := ringing id []
    s.port.linkUp = true ∧ s.barOpen 0 = true ∧ (s.ring 0 0).st = .active ∧ (up.ring 63 63).st = .disabled ∧ (s.fn 0).tdi = .unlocked ∧
      ((ringing (fun r => { r with st := .stopped }) []).ring 0 0).st = .stopped ∧
      ((ringing (fun r => { r with st := .draining }) []).ring 0 0).st = .draining ∧
      ((ringing (fun r => { r with st := .doorbellAhead }) []).ring 0 0).st = .doorbellAhead := by decide

theorem witness_RingRegisters :
    (let s := ringing (fun r => { r with st := .disabled, enable := false }) []
     s.port.linkUp = true ∧ s.barOpen 0 = true ∧ (s.ring 0 0).st = .disabled ∧ s.boot.state ≠ 3 ∧
       s.ringConfigOk 0 (s.ring 0 0) = true ∧ (s.ring 0 0).sqHdm = true ∧ (s.ring 0 0).cqHdm = true ∧
       s.ringConfigOk 0 { s.ring 0 0 with sqLog := 5 } = false ∧ s.ringConfigOk 0 { s.ring 0 0 with cqLog := 17 } = false) ∧
    ((ringing id []).ring 0 0).st = .active ∧
    (let s := ringing (fun r => { r with st := .draining, enable := false }) []
     (s.ring 0 0).st = .draining ∧ (s.ring 0 0).pkts = [] ∧ (s.ring 0 0).held = []) := by decide

/-- A disabled ring with its submission ring in host memory, whose page is being resolved. -/
def ringPage (ph : XPhase) : State :=
  let s := ringing (fun r => { r with st := .disabled, enable := false, sqHdm := false, sqBase := 0x5000 }) []
  { s with xlt := { s.xlt with waits := [{ waiting5 ph with who := pktW 0 0 0, pasid := noPasid }] } }

theorem witness_RingRegisters_pages :
    ((ringing id []).pairPages 0 0).1 = some true ∧
    ([XPhase.failed, .requested].all (fun ph =>
      let s := ringPage ph
      s.ringConfigOk 0 (s.ring 0 0) && decide (((s.setRing 0 0 { s.ring 0 0 with enable := true }).pairPages 0 0).1 =
        if ph = .failed then some false else none)) = true) ∧
    (runsOn 0x10 = true ∧ runsOn 0x21 = false ∧ (ringing id []).genOf 0 0 3 = none ∧ (ringing id []).progOf 0 0 3 = none) := by decide

/-- A packet of one slot: opcode, phase 1, LENGTH 1, no context, a tag and a SEQ, with its CRC. -/
def packet (op : Byte) (seq : Nat) (rest : Bytes) : Bytes :=
  let b := [op, 1, 1, 0] ++ natLe 7 2 ++ natLe seq 2 ++ List.replicate 8 0 ++ rest
  let b := b ++ List.replicate (64 - b.length) 0
  putBytes b 12 (natLe (crc32c b) 4)

/-- What reading the head of ring 0 finds. -/
def finds (s : State) (judge : Bool) : HeadRead := (s.readHead 0 0 judge).1

theorem witness_PacketsReadAndJudged :
    ((ringing id (packet 1 0 [])).ringReads 0 0 = true ∧ finds (ringing id (packet 1 0 [])) true = .sound (packet 1 0 []) ∧
      finds (ringing id []) true = .stale ∧ finds (ringing id [1, 1, 0]) true = .torn ([1, 1] ++ List.replicate 62 0)) ∧
    ([0, 6, 7].all (fun n =>
      let a := ringing (fun r => { r with reread := .phase n }) []
      let b := ringing (fun r => { r with reread := .torn n }) [1, 1, 9]
      let c := ringing (fun r => { r with reread := .torn n }) (packet 1 0 [])
      let d := ringing (fun r => { r with reread := .phase n }) (packet 1 0 [])
      a.ringReads 0 0 && decide (finds a true = .stale) && b.ringReads 0 0 && decide (finds b false = .torn ([1, 1, 9] ++ List.replicate 61 0)) &&
        c.ringReads 0 0 && decide (finds c false = .sound (packet 1 0 [])) && d.ringReads 0 0 &&
        decide (finds d true = .sound (packet 1 0 []))) = true) ∧
    finds { ringing id [] with own := [(granuleOf (carvePa (2 ^ 33)), 0x400000)] } true = .failed ∧
    ((idle.fn 0).quiescing = false ∧ BitVec.ofNat 16 (fieldLe (packet 1 9 []) 4 4 / 2 ^ 16) ≠ ring0.nextSeq ∧
      BitVec.ofNat 16 (fieldLe (packet 1 0 []) 4 4 / 2 ^ 16) = ring0.nextSeq) := by decide +kernel

/-- Two rings that are read now, the first of which had its turn. -/
def twoRings : State :=
  let s := ringing id []
  { s with rings := s.rings ++ [(1, ring0)], srv := { s.srv with turned := [0] } }

theorem witness_PacketsReadAndJudged_turns :
    twoRings.ringReads 0 0 = true ∧ (twoRings.ring 0 0).reread = .none ∧ twoRings.srv.turned.contains 0 = true ∧ twoRings.turnDue 0 = true ∧
      twoRings.ringReads 0 1 = true ∧ twoRings.srv.turned.contains 1 = false := by decide

/-- A final completion. -/
def completion0 : Completion := { tag := 7, status := 0, final := true, seq := 0, head := 1, result := List.replicate 16 0, irq := true }

theorem witness_CompletionsWritten :
    ([0, 61, 63].all (fun n =>
      let s := ringing (fun r => { r with held := [completion0], cqNext := n, cqHead := if n = 61 then 0 else 33 }) []
      let x := s.ring 0 0
      let k := carvePa (x.cqBase.toNat + 32 * x.cqNext)
      decide (nextCompletion x.held = some (completion0, []) ∧ x.st ≠ .disabled ∧ (x.cqNext + 1) % x.cqSlots ≠ x.cqHead) && s.sends 0 &&
        x.cqHdm && (s.linesReady k 32 true).1 && (s.linesReady k 32 true).2.mem.poison.isEmpty && decide (k % 64 ≤ 32 ∧ k < 2 ^ 52)) = true) ∧
      (0 : Nat) < 64 ∧ (63 : Nat) < 64 := by decide
/-! ### Packets -/

/-- A packet of n slots in the ring as read: opcode, flags, handle of context 1, and what follows from byte 16. -/
def pktOf (op flags : Byte) (n : Nat) (rest : Bytes) : Pkt :=
  let b := [op, flags, BitVec.ofNat 8 n, 0, 7, 0, 0, 0] ++ natLe (1 + 2 ^ 12) 4 ++ natLe 0 4 ++ rest
  { seq := 0, bytes := b ++ List.replicate (64 * n - b.length) 0, head := n, phase := .read, order := 0, progress := 0 }

/-- Context 1 with 8 MiB of HDM from carve offset 8 GiB. -/
def ctxHdm : Ctx := { ctx1 with hdmOff := 2 ^ 33, hdmBytes := 2 ^ 23 }

/-- The part with that packet read on ring 0. -/
def holding (p : Pkt) : State :=
  let s := ringing (fun r => { r with pkts := [p] }) []
  { s with ctxs := [(1, ctxHdm)], ctxGens := [(1, 1)] }

/-- The same with bytes in the context's HDM, at byte o of it. -/
def holdingAt (p : Pkt) (o : Nat) (bs : Bytes) : State :=
  let s := holding p
  { s with mem := s.mem.write (carvePa (2 ^ 33 + o)) bs }

/-- A pointer to byte o of that HDM. -/
def hdmAt (o : Nat) : Nat := 0x1000_0000_0000_0000 + 2 ^ 33 + o

/-- ATTACH_CONTEXT of PASID 9 with one granule of arena and a class 0 rate of 49152. -/
def attachBytes : Bytes := natLe 9 4 ++ [7, 0, 0, 0] ++ natLe (2 ^ 21) 8 ++ natLe 0 8 ++ natLe 0 8 ++ natLe 0 8 ++ natLe 0 2 ++
  natLe 49152 2 ++ natLe 49152 2 ++ [0]

/-- A context that drains for the packet at the ring. -/
def detaching (by_ : Option (Nat × Nat × BitVec 16)) : State :=
  let s := holding (pktOf 3 0 1 [])
  { s with ctxs := [(1, { ctxHdm with draining := true, detachBy := by_, aborted := 2, closed := 1 })] }

theorem witness_ContextPackets :
    (let p := pktOf 1 0 1 (natLe 0x5000 8)
     let s : State := { holding p with xlt := { idle.xlt with l2 := [(0, [xEntry 0 noPasid 0x5000 .k4 0x7000 true true false])] } }
     s.ready 0 0 0 0x01 (fun _ => true) p = true ∧ (s.begun 0 0 0 p).sends 0 = true ∧
       ((s.begun 0 0 0 p).resolve (pktW 0 0 0) none 0 0 noPasid (p.field 16 8) false true).1 = .ok 0x7000) ∧
    (let p := pktOf 2 0 2 attachBytes
     let s := holding p
     let t := s.begun 0 0 0 p
     s.ready 0 0 0 0x02 (fun _ => true) p = true ∧ t.attachRefused 0 p = none ∧ bit (p.byte 21) 0 = false ∧ (t.ctx 4095).valid = false ∧
       (t.ctx 4095).draining = false ∧ t.partFree 63 = true ∧
       (t.roGranules (p.field 24 8)).length = 0 ∧ t.hbmTaken + 2 ^ 21 ≤ t.hbmServes ∧
       t.takeGranules [hbmPa 0 (2 ^ 21)] (p.field 24 8 / granuleBytes) = some [hbmPa 0 (2 ^ 21)] ∧
       ((List.range 4).all (fun h => decide (t.rateSum h + (if p.byte 62 = 2 then 0 else p.field 58 2) ≤ 49152))) = true) ∧
    (let p := pktOf 2 0 2 (natLe 5 4)
     let s := holding p
     s.ready 0 0 0 0x02 (fun _ => true) p = true ∧ (s.begun 0 0 0 p).attachRefused 0 p = some stDenied) ∧
    (let p := pktOf 3 0 1 []
     (holding p).ready 0 0 0 0x03 (fun _ => true) p = true ∧ ((holding p).ctx p.ctx).draining = false) ∧
    (let s := detaching (some (0, 0, 0))
     (s.ctx 1).valid = true ∧ (s.ctx 1).draining = true ∧ (s.ctx 1).detachBy = some (0, 0, 0) ∧ s.detachReady 1 = true) := by
  decide +kernel

/-- The data of the one section, and a header that states it: one layer, hidden size 256, four heads of 64, vocabulary 2, one shared
expert of width 128 (R19, R21, R23). -/
def imageData : Bytes := [1, 2, 3, 4, 5, 6, 7, 8]
def imageHeader (digest : Bytes) : List (Nat × Bytes) :=
  [(0, natLe 0x4F48_5A41 4 ++ [1, 0]), (0x008, natLe (2 ^ 21 + 8) 8), (0x010, [1]), (0x014, [0, 1]), (0x018, [2]), (0x01C, [64]), (0x023, [1]),
   (0x026, [4, 0, 64, 0, 64]), (0x034, [128]), (0x03C, [1]), (0x080, digest), (0x100, [1]), (0x108, natLe (2 ^ 21) 8), (0x110, [8]),
   (0xF00, [1])]

/-- What the section tells firmware. -/
def imageInfo : ImageMeta :=
  { eos := [1], windows := [0], stagingBytes := 2 ^ 22, prefixBytes := 65536, xbufBytes := 512, homes := [], weights := [] }

/-- LOAD_MODEL of that image with a scheduler block in range (R253). -/
def loadPkt : Pkt :=
  pktOf 0x10 0 2 (natLe (hdmAt 0) 8 ++ natLe (2 ^ 21 + 8) 8 ++ List.replicate 32 0 ++ natLe 256 2 ++ natLe 1 2 ++ natLe 256 2 ++
    natLe 0 2 ++ [0, 0, 0] ++ List.replicate 5 0 ++ natLe (2 ^ 21) 8)

/-- The part with that packet and that image. -/
def loadAt (digest : Bytes) : State :=
  let s := holding loadPkt
  let at0 := carvePa (2 ^ 33)
  let cells := (imageHeader digest).flatMap (fun x => x.2.zipIdx.map (fun y => (at0 + x.1 + y.2, y.1)))
  let m := { s.mem with cells := cells.filter (fun c => c.2 ≠ 0) }
  { s with mem := m.write (carvePa (2 ^ 33 + 2 ^ 21)) imageData }

/-- The two granules that firmware found. -/
def twoGranules : List Nat := [hbmPa 1 (2 ^ 21), hbmPa 2 (2 ^ 21)]

/-- The load of loadAt in progress. -/
def loading (digest : Bytes) : State :=
  let l : Load := { f := 0, r := 0, q := 0, draft := false, src := hdmAt 0, bytes := 2 ^ 21 + 8, params := sliceBytes loadPkt.bytes 64 64,
                    header := (loadAt digest).mem.read (carvePa (2 ^ 33)) 4096, info := imageInfo, granules := twoGranules, key := none }
  let s := loadAt digest
  { s with srv := { s.srv with loading := some l } }

/-- What LOAD_MODEL_COMPLETE reads. -/
def loadReads (s : State) : Bool × Bool :=
  match s.srv.loading with
  | some l =>
    match (s.readSections l 1).1 with
    | .data ds => (true, decide (sha384 ds.flatten = sliceBytes l.header 0x080 48))
    | _ => (false, false)
  | none => (false, false)

/-- A program packet with a core bitmap at the start of the context's HDM, and its program in the ring's name. -/
def runPkt : Pkt := pktOf 0x30 0 1 (natLe (hdmAt 0) 8 ++ natLe 5 8 ++ natLe (hdmAt 0) 8)
def ended (e : ProgEnd) (started : Bool) (q : BitVec 16) : Program :=
  { prog 0 with r := 0, q := q, ending := e, started := started, dies := [] }

/-- The part with the packet and a program. -/
def withProg (p : Pkt) (g : Program) : State := { holding p with srv := { up.srv with programs := [g] } }

theorem witness_ModelAndProgramPackets_load :
    let s := loadAt (List.replicate 48 0)
    let p := loadPkt
    let t := s.begun 0 0 0 p
    (s.ready 0 0 0 0x10 (fun _ => true) p = true ∧ t.standbyHolds = false ∧ t.srv.loading = none) ∧
    (match t.readBuf (pktW 0 0 0) p.ctx (p.field 16 8) 4096 with
     | (.data h, s1) =>
       let gs := s1.takeGranules twoGranules (imageGranules (fieldLe h 0x008 8))
       decide (gs = some twoGranules ∧ s1.loadRefused p h imageInfo gs = none ∧ s1.loadRefused p h imageInfo none = some stNoResource)
     | _ => false) = true ∧
    loadReads (loading (sha384 imageData)) = (true, true) ∧ twoGranules.all (loading []).answers = true ∧
    (let s : State := { loading (sha384 imageData) with boot := { up.boot with stackFailed := [2] } }
     loadReads s = (true, true) ∧ twoGranules.all s.answers = false) ∧ loadReads (loading (List.replicate 48 0)) = (true, false) ∧
    (((loading []).ring 0 0).pkt 0).isSome = true := by decide +kernel

theorem witness_ModelAndProgramPackets :
    (let p := pktOf 0x11 0 1 []
     let s := holding p
     let s' : State := { s with srv := { s.srv with main := some imageOf } }
     s.ready 0 0 0 0x11 (fun _ => true) p = true ∧ (s.begun 0 0 0 p).standbyHolds = false ∧ (s.begun 0 0 0 p).srv.main.isNone = true ∧
       s'.ready 0 0 0 0x11 (fun _ => true) p = true ∧ (s'.begun 0 0 0 p).srv.main.isNone = false ∧ s'.srv.loading = none ∧
       s'.srv.seqs = [] ∧ s'.srv.step = none ∧ s'.srv.programs = []) ∧
    (let s := holdingAt runPkt 0 [1]
     let t := s.begun 0 0 0 runPkt
     s.ready 0 0 0 0x30 (fun _ => true) runPkt = true ∧ (t.progOf 0 0 0).isSome = false ∧ t.standbyHolds = false ∧ runPkt.field 32 8 ≠ 0 ∧
       (match t.readBuf (pktW 0 0 0) runPkt.ctx (runPkt.field 32 8) 64 with
        | (.data bm, s1) => decide (coresOf bm = [0]) && (coresOf bm).all s1.coreUp && !s1.coreSetRefused (coresOf bm)
        | _ => false) = true) ∧
    (let p := pktOf 0x23 0 1 ([1, 0, 0, 0, 0, 0, 0, 0] ++ natLe 9 2)
     let s := withProg p (ended .running false 9)
     s.ready 0 0 0 0x23 (fun p => decide (p.byte 16 = 1)) p = true ∧ (s.begun 0 0 0 p).progOf 0 0 9 = some (ended .running false 9) ∧
       ((holding p).begun 0 0 0 p).progOf 0 0 9 = none) ∧
    ([ProgEnd.done, .faulted, .aborted].all (fun e =>
      let g := ended e true 0
      let s := withProg runPkt g
      decide (s.progOf 0 0 0 = some g ∧ g.started = true ∧ g.ending ≠ .running ∧ g.silent = false ∧ g.buf = 0) &&
        (g.cores.all (fun c => (List.range 4).all (fun i => (s.core c.g).queueQuiet i (decide (g.ending = .done))) &&
          (s.core c.g).sb.isEmpty))) = true) := by decide +kernel

/-- PREFETCH, ADVISE, FLUSH and FENCE packets: opcode, byte 16 and what follows. -/
def memPkt (op m : Byte) (rest : Bytes) : Pkt := pktOf op 0 1 ([m, 0, 0, 0, 0, 0, 0, 0] ++ rest)

theorem witness_MemoryPackets :
    (([(0x40, 0), (0x40, 1), (0x40, 2), (0x41, 0), (0x41, 1), (0x41, 2), (0x43, 0), (0x43, 1)] : List (Byte × Byte)).all (fun x =>
      let p := memPkt x.1 x.2 []
      (holding p).ready 0 0 0 x.1.toNat (fun p => decide (p.byte 16 = x.2.toNat)) p && decide (((holding p).ctx p.ctx).advice.length < 64) &&
        decide (p.progress = p.field 32 8) &&
        !(((holding p).begun 0 0 0 p).ringsOf 0).any (fun x => decide (x.1 ≠ 0) && x.2.pkts.any (fun y =>
          decide (y.order < p.order) && decide (3 ≤ y.opcode) && decide (y.ctx = p.ctx)))) = true) ∧
    (([0, 3, 4, 7] : List Byte).all (fun m =>
      let p := memPkt 0x42 m (natLe (hdmAt 0) 8 ++ natLe 64 8)
      let s := holding p
      let t := s.begun 0 0 0 p
      s.ready 0 0 0 0x42 (fun _ => true) p && t.storesDone p.ctx (bit (p.byte 16) 0) (bit (p.byte 16) 1) &&
        decide (bit (p.byte 16) 2 = decide (4 ≤ m.toNat)) &&
        decide ((t.flushRange (pktW 0 0 0) p.ctx (p.field 24 8) (p.field 32 8)).1 = some true)) = true) := by decide +kernel

/-! #### A wrapped message -/

/-- Key and nonce of a wrapped message whose ephemeral scalar is 1, for a measurement (R379). -/
def okmOf (m : Bytes) : Bytes :=
  hkdf384 m (natBe p384G.1 48) (ascii "AZG-WRAP-1" ++ ecBytes (some p384G) ++ ecBytes (some p384G)) 44
/-- The header of a wrapped message of a purpose, for a measurement and ephemeral scalar 1 (R378). -/
def headOf (m : Bytes) (purpose : Byte) : Bytes :=
  [0x41, 0x5A, 0x57, 0x50, 1, purpose, 0, 0] ++ (m ++ (ecBytes (some p384G) ++ List.replicate 7 0))
/-- The wrapped message whose ciphertext is ct, for the sealing scalar 1 (R378, R379). -/
def wrapOf (m : Bytes) (purpose : Byte) (ct : Bytes) : Bytes :=
  headOf m purpose ++ (ct ++ gcmTag ((okmOf m).take 32) ((okmOf m).drop 32) (headOf m purpose) ct)


/-- Keys ready, with sealing scalar 1, and the measurement that goes with them (R374). -/
def sec0 : Sec := { Sec.reset with keysReady := true, sealPriv := 1 }
def meas0 : Bytes := sha384 (natLe 0 8 ++ natLe 0 8)

theorem meas0_length : meas0.length = 48 := by decide +kernel

theorem tag_length (p : Byte) (ct : Bytes) : (gcmTag ((okmOf meas0).take 32) ((okmOf meas0).drop 32) (headOf meas0 p) ct).length = 16 := by
  have h : (aesBlock ((okmOf meas0).take 32) ((okmOf meas0).drop 32 ++ natBe 1 4)).length = 16 := by decide +kernel
  have g : (natBe 1 4).length = 4 := rfl
  have e : ∀ n, (natBe n 16).length = 16 := fun n => by simp [natBe, natLe]
  simp only [gcmTag, List.length_zipWith, e, h]
  rfl

theorem meas_eq (s : State) (h : s.sec = sec0) : s.meas = meas0 := by
  have e : ∀ i, 1 ≤ i → i ≤ 4 → s.measurement i = ({ State.reset with sec := sec0 } : State).measurement i := by
    intro i h1 h2
    have : i = 1 ∨ i = 2 ∨ i = 3 ∨ i = 4 := by omega
    rcases this with rfl | rfl | rfl | rfl <;> simp [State.measurement, h]
  simp only [State.meas, e 1 (by omega) (by omega), e 2 (by omega) (by omega), e 3 (by omega) (by omega), e 4 (by omega) (by omega)]
  rfl


theorem wrap_slices (M C T P : Bytes) (p : Byte) (hM : M.length = 48) (hP : P.length = 97) (hT : T.length = 16) (n : Nat)
    (hC : C.length = n) (hn : n = 32 ∨ n = 180) :
    let hdr := [0x41, 0x5A, 0x57, 0x50, 1, p, 0, 0] ++ (M ++ (P ++ List.replicate 7 0))
    let bs := hdr ++ (C ++ T)
    bs.length = 176 + n ∧ Machine.fieldLe bs 5 1 = p.toNat ∧ Machine.fieldLe bs 0 4 = 0x5057_5A41 ∧ Machine.fieldLe bs 4 1 = 1 ∧
      allZero (sliceBytes bs 6 2) = true ∧ allZero (sliceBytes bs 153 7) = true ∧ sliceBytes bs 8 48 = M ∧ sliceBytes bs 56 97 = P ∧
      bs.take 160 = hdr ∧ sliceBytes bs 160 n = C ∧ sliceBytes bs (160 + n) 16 = T := by
  intro hdr bs
  rcases hn with rfl | rfl <;> refine ⟨?_, ?_, ?_, ?_, ?_, ?_, ?_, ?_, ?_, ?_, ?_⟩ <;>
    simp [hdr, bs, sliceBytes, Machine.fieldLe, List.drop_append, List.take_append, hM, hP, hT, hC, leNat, List.drop_eq_nil_of_le,
      List.take_of_length_le, allZero]

theorem unwrap_wrap (s : State) (hs : s.sec = sec0) (p : Byte) (n : Nat) (C : Bytes) (hC : C.length = n)
    (hp : (p = 0 ∧ n = 32) ∨ (p = 1 ∧ n = 180 ∧
      allZero (sliceBytes (gcmCrypt ((okmOf meas0).take 32) ((okmOf meas0).drop 32) C) 177 3) = true)) :
    s.unwrap (wrapOf meas0 p C) = some (p.toNat, gcmCrypt ((okmOf meas0).take 32) ((okmOf meas0).drop 32) C) := by
  have hz : ecdhX 1 (ecBytes (some p384G)) = some (natBe p384G.1 48) := by decide +kernel
  have hk : ecPub 1 = ecBytes (some p384G) := by decide +kernel
  have hP : (ecBytes (some p384G)).length = 97 := by decide +kernel
  have hn : n = 32 ∨ n = 180 := by rcases hp with h | h <;> simp [h.2]
  obtain ⟨h1, h2, h3, h4, h5, h6, h7, h8, h9, h10, h11⟩ :=
    wrap_slices meas0 C _ _ p meas0_length hP (tag_length p C) n hC hn
  unfold State.unwrap wrapOf
  simp only [headOf] at *
  have hlen : (if p.toNat = 0 then 32 else 180) = n := by rcases hp with ⟨rfl, rfl⟩ | ⟨rfl, rfl, _⟩ <;> rfl
  have hq : ¬ 1 < p.toNat := by rcases hp with ⟨rfl, rfl⟩ | ⟨rfl, rfl, _⟩ <;> decide
  simp only [h1, h2, h3, h4, h5, h6, h7, h8, h9, h10, h11, hlen, meas_eq s hs, hs, sec0, hq]
  simp [hz, hk, gcmOpen, okmOf]
  refine ⟨rfl, fun h => ?_⟩
  rcases hp with ⟨rfl, _⟩ | ⟨_, _, h3⟩
  · simp at h
  · simpa [okmOf] using h3

/-- SEAL_SESSION of an OP with a message of n bytes at the start of the context's HDM. -/
def sealPkt (op : Byte) (n : Nat) : Pkt := pktOf 0x60 0 1 ([op, 0, 0, 0] ++ natLe 1 4 ++ natLe (hdmAt 0) 8 ++ natLe n 2)

/-- The part with those keys and that packet, and with a message in place. -/
def keyed0 (n : Nat) : State := { (holding (sealPkt 0 n)).begun 0 0 0 (sealPkt 0 n) with sec := sec0 }
def messageAt (bs : Bytes) : Memory := { (State.reset.mem.write (carvePa (2 ^ 33)) bs) with poison := [] }
def sealing (bs : Bytes) (n : Nat) : State := { holding (sealPkt 0 n) with sec := sec0, mem := messageAt bs }

/-- What the packet finds is the message. -/
theorem sealing_reads (bs : Bytes) (n : Nat) (hn : bs.length = n) (h : n = 208 ∨ n = 356) :
    ∃ s1, ((sealing bs n).begun 0 0 0 (sealPkt 0 n)).readBuf (pktW 0 0 0) (sealPkt 0 n).ctx ((sealPkt 0 n).field 24 8)
      ((sealPkt 0 n).field 32 2) = (.data bs, s1) ∧ s1.sec = sec0 ∧ s1.sec.sessions.length < 65536 := by
  have e : (messageAt bs).read (carvePa (2 ^ 33)) n = bs := hn ▸ Memory.read_write State.reset.mem (carvePa (2 ^ 33)) bs
  have f : (sealPkt 0 n).ctx = 1 ∧ (sealPkt 0 n).field 24 8 = hdmAt 0 ∧ (sealPkt 0 n).field 32 2 = n ∧
      (keyed0 n).mayName false 1 (hdmAt 0) n .read = true ∧ pagesOf (hdmAt 0) n = [(hdmAt 0, n)] ∧
      (keyed0 n).allowed (carvePa (2 ^ 33)) true false 1 false = true ∧ (keyed0 n).answers (carvePa (2 ^ 33)) = true ∧
      ((keyed0 n).linesReady (carvePa (2 ^ 33)) n false).1 = true ∧ ((keyed0 n).linesReady (carvePa (2 ^ 33)) n false).2.sec = sec0 ∧
      (keyed0 n).physOf 0 false 1 (hdmAt 0) = carvePa (2 ^ 33) := by
    rcases h with rfl | rfl <;> decide +kernel
  obtain ⟨f1, f2, f3, f4, f5, f6, fa, f7, f8, key⟩ := f
  let k1 : State := { keyed0 n with mem := messageAt bs }
  have t : (sealing bs n).begun 0 0 0 (sealPkt 0 n) = k1 := rfl
  let s1 : State := { ((keyed0 n).linesReady (carvePa (2 ^ 33)) n false).2 with mem := messageAt bs }
  have key1 : k1.physOf 0 false 1 (hdmAt 0) = carvePa (2 ^ 33) := key
  have r : k1.readBuf (pktW 0 0 0) 1 (hdmAt 0) n = (.data (s1.mem.read (k1.physOf 0 false 1 (hdmAt 0)) n), s1) := by
    refine State.readBuf_device k1 s1 _ 1 (hdmAt 0) n f4 f5 (by decide) (by decide) ?_ ?_ ?_ ?_ ?_
    · rw [key1]; decide +kernel
    · rw [key1]; exact f6
    · rw [key1]; exact fa
    · rw [key1]; exact (State.linesReady_mem _ _ _ _ _).trans (Prod.ext f7 rfl)
    · show (decide (n ≠ 0) && false) = false
      simp
  rw [f1, f2, f3, t]
  refine ⟨s1, ?_, f8, ?_⟩
  · rw [r, key1]; exact Prod.ext (congrArg BufRead.data e) rfl
  · rw [show s1.sec = sec0 from f8]; decide

/-- A message the sealing key does not open is not a session: status 6 (R355). -/
theorem witness_SealPackets :
    let zs := List.replicate 208 (0 : Byte)
    let s := sealing zs 208
    let t := s.begun 0 0 0 (sealPkt 0 208)
    s.ready 0 0 0 0x60 (fun p => decide (p.byte 16 = 0)) (sealPkt 0 208) = true ∧ t.sec.eyepiece = false ∧
    (t.readBuf (pktW 0 0 0) (sealPkt 0 208).ctx ((sealPkt 0 208).field 24 8) ((sealPkt 0 208).field 32 2)).1 = .data zs ∧
    (t.readBuf (pktW 0 0 0) (sealPkt 0 208).ctx ((sealPkt 0 208).field 24 8) ((sealPkt 0 208).field 32 2)).2.unwrap zs = none ∧
    (({ s with sec := { s.sec with eyepiece := true } } : State).ready 0 0 0 0x60 (fun p => decide (p.byte 16 = 0)) (sealPkt 0 208) = true) := by
  decide +kernel

/-- A session message and an image-key message wrapped for the sealing key are read from device memory and open (R378, R379). -/
theorem witness_SealPackets_installs :
    (∃ bs pt s1, (sealing bs 208).ready 0 0 0 0x60 (fun p => decide (p.byte 16 = 0)) (sealPkt 0 208) = true ∧
      ((sealing bs 208).begun 0 0 0 (sealPkt 0 208)).readBuf (pktW 0 0 0) (sealPkt 0 208).ctx ((sealPkt 0 208).field 24 8)
        ((sealPkt 0 208).field 32 2) = (.data bs, s1) ∧
      s1.unwrap bs = some (0, pt) ∧ s1.sec.sessions.length < 65536) ∧
    (∃ bs pt s1, (sealing bs 356).ready 0 0 0 0x60 (fun p => decide (p.byte 16 = 0)) (sealPkt 0 356) = true ∧
      ((sealing bs 356).begun 0 0 0 (sealPkt 0 356)).readBuf (pktW 0 0 0) (sealPkt 0 356).ctx ((sealPkt 0 356).field 24 8)
        ((sealPkt 0 356).field 32 2) = (.data bs, s1) ∧
      s1.unwrap bs = some (1, pt)) := by
  have len : ∀ (p : Byte) (C : Bytes), (wrapOf meas0 p C).length = 176 + C.length := fun p C => by
    have hP : (ecBytes (some p384G)).length = 97 := by decide +kernel
    have hh : (headOf meas0 p).length = 160 := by simp [headOf, meas0_length, hP]
    simp only [wrapOf, List.length_append, tag_length, hh]
    omega
  constructor
  · let C : Bytes := List.replicate 32 0
    obtain ⟨s1, h1, h2, h3⟩ := sealing_reads (wrapOf meas0 0 C) 208 ((len 0 C).trans (by decide +kernel)) (.inl rfl)
    exact ⟨wrapOf meas0 0 C, _, s1, by decide +kernel, h1, unwrap_wrap s1 h2 0 32 C (by decide +kernel) (.inl ⟨rfl, rfl⟩), h3⟩
  · let C : Bytes := List.replicate 177 0 ++ [13, 62, 29]
    have z : allZero (sliceBytes (gcmCrypt ((okmOf meas0).take 32) ((okmOf meas0).drop 32) C) 177 3) = true := by decide +kernel
    obtain ⟨s1, h1, h2, _⟩ := sealing_reads (wrapOf meas0 1 C) 356 ((len 1 C).trans (by decide +kernel)) (.inr rfl)
    exact ⟨wrapOf meas0 1 C, _, s1, by decide +kernel, h1, unwrap_wrap s1 h2 1 180 C (by decide +kernel) (.inr ⟨rfl, rfl, z⟩)⟩

/-- A session key of the packet's own context that no sequence uses can be destroyed (R356). -/
theorem witness_SealPackets_destroy :
    let s : State := { holding (sealPkt 1 0) with
      sec := { sec0 with sessions := [(1, { ctx := 1, key := [], inst := [], high := 0, seen := [], counter := 1, epoch := 0 })] } }
    let t := s.begun 0 0 0 (sealPkt 1 0)
    s.ready 0 0 0 0x60 (fun p => decide (p.byte 16 = 1)) (sealPkt 1 0) = true ∧
    (t.session ((sealPkt 1 0).field 20 4)).any (fun k => decide (k.ctx = (sealPkt 1 0).ctx)) = true ∧
    t.srv.seqs = [] := by decide +kernel

/-! ### Queries and sequences -/

/-- QUERY_STATISTICS or DIAGNOSE with a selector, for a buffer of n bytes at the start of the context's HDM. -/
def askPkt (op m : Byte) (n : Nat) : Pkt := memPkt op m (natLe (hdmAt 0) 8 ++ natLe n 8)

/-- The packet is ready, and its plan for a record of n bytes is known. -/
def plans (op m : Byte) (n : Nat) : Bool :=
  let p := askPkt op m n
  let s := holding p
  s.ready 0 0 0 op.toNat (fun p => decide (p.byte 16 = m)) p &&
    match ((s.begun 0 0 0 p).planBuf (pktW 0 0 0) p.ctx (p.field 24 8) (List.replicate n 0) p.direct).1 with
    | .ok ws => !ws.isEmpty
    | _ => false

/-- Selector m from virtual function 1, for which selectors 2 and 4 are DENIED. -/
def vfAsks (m : Byte) : Bool :=
  let p := askPkt 0x71 m 0
  let s := holding p
  let v : Ring := { s.ring 0 0 with pkts := [p] }
  let s1 := (s.setFn 1 { pf with mse := true }).setRing 1 0 v
  ({ s1 with ctxs := [(1, { ctxHdm with func := 1 })] } : State).ready 1 0 0 0x71 (fun p => decide (p.byte 16 = m)) p

theorem witness_QueryPackets :
    (([(0x71, 0, 64), (0x71, 2, 1280), (0x71, 3, 96), (0x71, 4, 64), (0x71, 5, 512)] : List (Byte × Byte × Nat)).all
      (fun x => plans x.1 x.2.1 x.2.2) = true) ∧
    (let p := askPkt 0x71 1 0
     (holding p).ready 0 0 0 0x71 (fun p => decide (p.byte 16 = 1)) p = true) ∧
    ([2, 4].all vfAsks = true) := by
  decide +kernel

theorem witness_DiagnosePackets :
    (let p := askPkt 0x7E 0 0
     (holding p).ready 0 0 0 0x7E (fun p => decide (p.byte 16 = 0)) p = true) ∧
    plans 0x7E 1 64 = true ∧ ((askPkt 0x7E 2 0).opcode = 0x7E ∧ ({ askPkt 0x7E 2 0 with bytes := putBytes (askPkt 0x7E 2 0).bytes 3 [1] } : Pkt).byte 3 = 1 ∧
      2 ≤ (askPkt 0x7E 2 0).byte 16) := by decide +kernel

theorem witness_OneFinalCompletion :
    let p := askPkt 0x7E 0 0
    ((holding p).ring 0 0).pkt 0 = some p ∧ ((holding p).fn 0).quiescing = false ∧ 6 < 256 := by decide +kernel

/-- An image of one layer, with a vocabulary of 8 and at most 64 positions (R19). -/
def served8 : Image := { imageOf with header := List.replicate 16 0 ++ natLe 1 8 ++ natLe 8 4 ++ natLe 64 4 ++ List.replicate 32 0 }

/-- A parameter block that says: argmax, top P 1, repetition 1, at most n new tokens (R266). -/
def parOf (n : Nat) : Bytes :=
  natLe 0 4 ++ natLe 0x3F80_0000 4 ++ natLe 0 4 ++ natLe 0x3F80_0000 4 ++ List.replicate 12 0 ++ natLe n 4 ++ List.replicate 96 0

/-- A sequence of context 1 in slot 3, with a state, a history and s. -/
def seqIn (st : SeqSt) (hist : List Nat) (stored : Nat) : Sequence :=
  { gen := 1, ctx := 1, seqId := 77, prio := 2, session := none, st := st, back := .idle, history := hist, stored := stored,
    params := parOf 4, mask := [], bias := [], key := List.replicate 16 9, keyRng := false, home := 0, served := 0, entered := 0, opened := 0,
    committed := 0, generate := none, pages := [], ring := none, rebuilt := 0, late := none }

/-- The packet p on ring 0 with the image in place and that sequence. -/
def serving (p : Pkt) (x : Sequence) : State := { holding p with srv := { Srv.reset with main := some served8, seqs := [(3, x)] } }

/-- A sequence packet whose word at byte 16 names the sequence, or whose word at byte 20 does. -/
def seqPkt (op : Byte) (n : Nat) (a b : Nat) (rest : Bytes) : Pkt := pktOf op 0 n (natLe a 4 ++ natLe b 4 ++ rest)
def hdl : Nat := 2 ^ 15 + 3

theorem witness_SequenceCommands :
    (let x := seqIn .idle [1] 0
     let l : List (Nat × Pkt) := [(0x20, seqPkt 0x20 3 7 0 []), (0x21, seqPkt 0x21 1 hdl 0 []), (0x22, seqPkt 0x22 1 hdl 0 (natLe 0 8 ++ natLe 9 4)),
       (0x23, seqPkt 0x23 1 0 hdl []), (0x24, seqPkt 0x24 1 hdl 0 []), (0x25, seqPkt 0x25 1 hdl 0 []),
       (0x26, seqPkt 0x26 1 hdl 1 []), (0x27, seqPkt 0x27 1 0 0 (natLe 5 8 ++ natLe 64 8))]
     l.all (fun o => let s := serving o.2 x
       s.ready 0 0 0 o.1 (fun p => decide (o.1 ≠ 0x23) || decide (p.byte 16 = 0)) o.2 &&
         ((s.begun 0 0 0 o.2).genOf 0 0 0).isNone && (s.begun 0 0 0 o.2).unhurried && !(s.begun 0 0 0 o.2).standbyHolds &&
         ({ (s.begun 0 0 0 o.2) with mir := { (s.begun 0 0 0 o.2).mir with role := true, st := .mirroring } } : State).standbyHolds) = true) ∧
    -- a command that ends, and one whose tokens are in a host page not yet translated
    (let p := seqPkt 0x24 1 hdl 0 []
     let s := (serving p (seqIn .idle [1] 0)).begun 0 0 0 p
     let c : Recv := { f := 0, r := 0, q := 0, slot := 0, pages := [] }
     ((s.setRing 0 0 ((s.ring 0 0).setPhase 0 .received)).applyCmd c).1 = false) ∧
    (let p := seqPkt 0x21 1 hdl 1 (natLe 0x5000 8)
     let s := (serving p (seqIn .idle [1] 0)).begun 0 0 0 p
     let s : State := { s with ctxs := [(1, { ctxHdm with hostEn := true })] }
     let c : Recv := { f := 0, r := 0, q := 0, slot := 0, pages := [] }
     ((s.setRing 0 0 ((s.ring 0 0).setPhase 0 .received)).applyCmd c).1 = true) := by
  decide +kernel

/-- The command at the head of ring 0. -/
def rcv0 (slot : Nat) : Recv := { f := 0, r := 0, q := 0, slot := slot, pages := [] }

theorem witness_SequenceEffects :
    let s (x : Sequence) : State := { holdingAt (askPkt 0 0 0) 0 (natLe 3 4 ++ natLe 5 4) with srv := { Srv.reset with main := some served8, seqs := [(3, x)] } }
    (let p := seqPkt 0x20 3 7 0 (List.replicate 40 0 ++ parOf 4)
     let s := s (seqIn .idle [1] 0)
     s.srv.loading = none ∧ s.freeSlot 4 = some 4 ∧ paramsOk (sliceBytes p.bytes 64 128) 8 false = true ∧ bit (p.byte 25) 0 = false ∧
       (s.readLists (pktW 0 0 0) p.ctx (sliceBytes p.bytes 64 128) none (BitVec.ofNat 64 (p.field 16 8)) 8).1 = .ok [] [] none) ∧
    (let p := seqPkt 0x21 1 hdl 2 (natLe (hdmAt 0) 8)
     let x := seqIn .idle [1] 0
     let s := s x
     s.seqOf p.ctx (p.field 16 4) = some (3, x) ∧
       (s.readList (pktW 0 0 0) p.ctx (p.field 24 8) (4 * p.field 20 4) none 1 (natLe 77 8) 1).1 = .data (natLe 3 4 ++ natLe 5 4) none ∧
       1 + p.field 20 4 ≤ served8.maxContext) ∧
    ([seqIn .idle [1] 0, seqIn .idle [1, 2, 3] 0].all (fun x =>
      let p := seqPkt 0x22 1 hdl 0 (natLe (hdmAt 0) 8 ++ natLe 4 4)
      let s := s x
      decide (s.seqOf p.ctx (p.field 16 4) = some (3, x)) && paramsOk x.params served8.vocab s.srv.draft.isSome &&
        decide (pMaxNew x.params ≤ p.field 32 4) && decide (x.history.length ≠ served8.maxContext)) = true) ∧
    ([seqIn .prefill [1, 2, 3] 1, seqIn .decode [1] 0, seqIn .failed [] 0].all (fun x =>
      let p := seqPkt 0x23 1 0 hdl []
      decide ((s x).seqOf p.ctx (p.field 20 4) = some (3, x))) = true) ∧
    (let p := seqPkt 0x24 1 hdl 0 []
     let x := seqIn .decode [1] 0
     (s x).seqOf p.ctx (p.field 16 4) = some (3, x)) ∧
    (let p := seqPkt 0x25 1 hdl 0 (natLe 78 8)
     let x := { seqIn .idle (List.replicate 300 1) 256 with pages := [hbmPa 0 0] }
     (s x).seqOf p.ctx (p.field 16 4) = some (3, x) ∧ (s x).freeSlot 9 = some 9 ∧ x.stored % 256 = 0 ∧ ((s x).kvImage false).isSome = true ∧
       (((s x).forkKv x false []).bind (fun a => a.2.2.forkKv x true a.2.1)).isSome = true) ∧
    (let x := { seqIn .idle (List.replicate 300 1) 300 with pages := [hbmPa 0 0, hbmPa 0 (2 ^ 21)] }
     ((s x).forkKv x false []).isSome = true) := by
  decide +kernel

theorem witness_SnapshotLayout :
    [seqIn .idle [1, 2] 1, { seqIn .idle [] 0 with keyRng := true }].all (fun x => decide (x.history.length < 2 ^ 32 ∧ x.stored < 2 ^ 32 ∧ x.prio < 4 ∧
      x.params.length = 128 ∧ x.key.length = 16 ∧ ∀ t ∈ x.history, t < 2 ^ 32)) = true := by decide +kernel

/-- A row of the batch for slot 3, a step of one, and the part in that step. -/
def rowOf (d : Nat) : BatchRow := { slot := 3, decode := true, start := 0, rows := d + 1, d := d, samples := true }
def stepOf (d : Nat) (outs : List StepOut) (rerun : Bool) : Step :=
  { number := 1, batch := [rowOf d], outs := outs, rest := [], rerun := rerun }
def inStep (st : Step) : State :=
  let s := serving (askPkt 0 0 0) (seqIn .decode [1] 0)
  { s with srv := { s.srv with step := some st, stepNo := 1 } }
/-- Logits of which token 5 has the greatest. -/
def logits5 : Words32 := [0, 0, 0, 0, 0, 0x3F80_0000, 0, 0]
def nanRow : Words32 := [0, 0, 0, 0, 0, 0x7FC0_0000, 0, 0]
def out3 (drafts : List (Nat × Dist)) (sampled : Bool) : StepOut :=
  { slot := 3, drafts := drafts, draftsEnd := false, emits := [], sampled := sampled, maskEmpty := false, nan := false }

theorem witness_StepCommands :
    (let s := serving (askPkt 0 0 0) (seqIn .decode [1] 0)
     let t := s.boundary.boundaryPrograms
     s.srv.step = none ∧ t.srv.main = some served8 ∧ t.wholeProgram = false ∧ t.standbyHolds = false ∧ t.port.frozen = false ∧
       (inStep (stepOf 0 [] false)).srv.step ≠ none) ∧
    ([(0, []), (2, []), (1, [out3 [(5, [(5, 0)])] false])].all (fun (o : Nat × List StepOut) =>
      let s := inStep (stepOf o.1 o.2 false)
      decide (s.stepRow 3 = some (stepOf o.1 o.2 false, rowOf o.1, o.2.headD (out3 [] false))) && (s.seq 3).isSome && s.rowOk logits5 &&
        !rowNan logits5 && s.rowOk nanRow && rowNan nanRow) = true) ∧
    ((∀ y ∈ [rowOf 0], y.samples = true → ∃ z ∈ [out3 [] true], z.slot = y.slot ∧ z.sampled = true) ∧
      (inStep (stepOf 0 [out3 [] true] false)).srv.step = some (stepOf 0 [out3 [] true] false)) ∧
    (let s := inStep { stepOf 0 [] false with batch := [rowOf 0, { rowOf 0 with slot := 4 }] }
     let u := ({ s with srv := { s.srv with step := none } } : State).boundary
     (halves [rowOf 0, { rowOf 0 with slot := 4 }]).1.filter u.rowStands ≠ []) ∧
    (let s := inStep (stepOf 0 [] false)
     let s' : State := { s with boot := { s.boot with deterministic := true } }
     s.boot.deterministic = false ∧ s.logitsOf false [1] logits5 = logits5 ∧ s'.boot.deterministic = true ∧ s'.srv.main = some served8 ∧
       s.verifyLogits (seqIn .decode [1] 0) (out3 [(5, [(5, 0)])] false) [logits5, logits5] = [logits5, logits5]) ∧ (stepOf 0 [] false).rerun = false ∧ (stepOf 0 [] true).rerun = true := by
  decide +kernel

/-- Temperature 0 gives the greatest logit (R268). -/
theorem test_sample_argmax :
    (match exec (.sample 3 logits5) (inStep (stepOf 0 [] false)) with
     | .next t => t.srv.step.map (fun st => st.outs.map (fun o => o.emits.map (·.token)))
     | _ => none) = some [[5]] := by decide +kernel

/-! ### Power and bring-up -/

theorem witness_PowerReportsAndSettings :
    (up.railOn 0 = true ∧ (up.pwr.rail 0).lost = false ∧ up.railOn 100 = true ∧ (20 : Int) < up.pwr.throttleAt + 5 ∧
      up.pwr.throttleAt + 5 ≤ (105 : Int) ∧ up.open 5 = false ∧ up.open 0 = true ∧ up.islandOut 0 = false ∧
      up.pwr.stretched.contains 0 = false ∧ up.boot.powered = true ∧ up.boot.noShutters = false ∧ up.open 84 = true ∧
      up.boot.fwRunning = true ∧ State.reset.boot.fwRunning = false) ∧
    (let s := up.setDie 0 { up.diePwr 0 with wants := [(2, 3)] }
     mapFind (s.diePwr 0).wants 2 = some 3) ∧
    (up.port.linkUp = true ∧ up.barOpen 0 = true ∧ up.boot.state ≠ 3) ∧
    (({ up with boot := { up.boot with fwRunning := false } } : State).open 84 = true ∧ (1300 : BitVec 16) ≠ 0) ∧
    (let s : State := { up with boot := { up.boot with islandsOpen := [4, 84] }, wkt := { up.wkt with clusterOut := [4] } }
     s.open 4 = true ∧ s.wkt.busy = none ∧ s.islandOut 4 = true) ∧
    (let s : State := { up with boot := { up.boot with islandsOpen := [], noShutters := true }, pwr := { up.pwr with repAuto := false } }
     s.boot.noShutters = true ∧ s.open 84 = false ∧ s.pwr.cap ≠ 3300 ∧
       ({ up with pwr := { up.pwr with stretched := [0] } } : State).pwr.stretched.contains 0 = true ∧
       (up.setRail 3 { mw := 0, lost := true, good := 0 }).railOn 3 = true ∧
       ((up.setRail 3 { mw := 0, lost := true, good := 0 }).pwr.rail 3).lost = true) := by decide +kernel

/-- The part with variable mode in force, and the budget. -/
def steered (v : Bool) (margin : Nat) : State := { up with pwr := { up.pwr with variableActive := v, varMode := v, marginW := margin } }

theorem witness_PowerSteering :
    (up.steers = true ∧ up.diesIn = [0] ∧
      ¬ ((up.pwr.cap : Rat) - (up.fixedNow : Rat) / 1000 - up.pwr.margin < up.pwr.floor * ([0].length : Rat))) ∧
    (up.pwr.variableActive = false ∧ (steered true 40).steers = true ∧ (steered true 40).dieIn 0 = true) ∧
    (let s := steered true 40
     let t := s.setDie 0 { s.diePwr 0 with share := 100 }
     ((t.dieMw 0 : Rat) < (t.diePwr 0).share * 1000) ∧
     ((((t.setRail 0 { mw := 200000, lost := false, good := 0 }).diePwr 0).share * 1000 <
       ((t.setRail 0 { mw := 200000, lost := false, good := 0 }).dieMw 0 : Rat)))) ∧
    (([0, 1, 2] : List Byte).all (fun k =>
      let p := memPkt 0x50 k []
      let s := holding p
      s.ready 0 0 0 0x50 (fun p => decide (p.byte 16 = k.toNat)) p && s.pwr.hostHints && s.pwr.imageHints) = true) ∧
    (let s := inStep (stepOf 0 [] false)
     s.srv.step ≠ none ∧ s.pwr.imageHints = true) := by decide +kernel

/-- A budget below the floors of all dies: the cap is 1200 W, and the regulators of the hubs draw 1190 W. -/
theorem witness_PowerSteering_low :
    let s := up.setRail 80 { mw := 1190000, lost := false, good := 0 }
    s.steers = true ∧ 0 ∈ s.diesIn ∧
      (s.pwr.cap : Rat) - (s.fixedNow : Rat) / 1000 - s.pwr.margin < s.pwr.floor * (s.diesIn.length : Rat) := by decide +kernel

/-- Bring-up about to complete stage n. -/
def atB (n : Nat) : State := { up with boot := { up.boot with next := n, state := 0 } }
def bundle0 : Bundle := { sigOk := true, svn := 2, digest := [], version := 7 }
def record0 : BootRecord :=
  { secretsOk := true, recordOk := true, flashOk := true, romDigest := [], good := [], steps := [], bundleA := bundle0, bundleB := bundle0 }

theorem witness_BringUpStages :
    (State.reset.atStage 0 = true ∧ (atB 1).atStage 1 = true ∧ hubOrder.all (atB 1).open = true ∧ (atB 2).atStage 2 = true ∧
      (atB 3).atStage 3 = true ∧ (atB 4).atStage 4 = true ∧ (atB 5).atStage 5 = true ∧ (atB 5).boot.shutterQueue = [] ∧
      (atB 6).atStage 6 = true) ∧
    (let ids : List (BitVec 32) := ((List.range 4).flatMap hubPeers).map (fun h => BitVec.ofNat 32 (2 + 256 * h))
     (true && decide (ids.length = 12) && (ids.zip ((List.range 4).flatMap hubPeers)).all (fun x => identityOk x.1 2 x.2)) = true) ∧
    bootBundle (atB 3) record0 = some bundle0 ∧ bootBundle (atB 3) { record0 with flashOk := false } = none ∧
    (atB 5).wkt.heldOut.contains 0 = false := by decide +kernel

/-- The counter of a part whose firmware is newer than the flash says; a part with every stack and one die short of a quadrant is
FAILED, a whole one READY; and a bundle of SVN 2 boots over a counter of 0. -/
theorem witness_AntiRollbackNeverFalls :
    (let s : State := { atB 6 with pending := [.stageB6 3], sec := { (atB 6).sec with svn := 4, antiRollback := 2 } }
     (match step s with | .next t => decide (s.sec.antiRollback.toNat < t.sec.antiRollback.toNat) | _ => false) = true) ∧
    (let s : State := { atB 6 with wkt := { up.wkt with inService := (List.range 64).map (fun k => (k, [0, 1, 2, 3, 4, 5, 6, 7])) },
                                   boot := { (atB 6).boot with islandsOpen := List.range 100 } }
     s.atStage 6 = true ∧ s.outcome ≠ 3) ∧
    (let s : State := { atB 3 with boot := { (atB 3).boot with fwRunning := false } }
     (match exec (.stageB3 record0) s with | .next t => t.boot.fwRunning | _ => false) = true ∧ s.boot.fwRunning = false) := by decide +kernel

/-! ### The Coelostat pair -/

/-- MIRROR_CONTROL of an operation, with peer context 2 and ROLE at byte 18, and a part with a mirror. -/
def mirPkt (op role : Byte) : Pkt := pktOf 0x70 0 1 ([op, 1, role, 0, 2, 0])
def mirrored (p : Pkt) (m : Mir) : State := { holding p with mir := m }
/-- A mirror in a state, bound for context 1. -/
def pairOf (st : MirSt) (role : Bool) : Mir := { Mir.reset with st := st, role := role, binds := [(1, 2)], nextRecv := 2, nextSend := 2 }

theorem witness_MirrorCommands :
    (([0, 1, 2, 3, 4, 5] : List Byte).all (fun op =>
      (mirrored (mirPkt op 0) Mir.reset).ready 0 0 0 0x70 (fun p => decide (p.byte 16 = op.toNat)) (mirPkt op 0) &&
        (mirrored (mirPkt op 0) (pairOf .mirroring true)).ready 0 0 0 0x70 (fun p => decide (p.byte 16 = op.toNat)) (mirPkt op 0)) = true) ∧
    (Mir.reset.st = .unpaired ∧ Mir.reset.peer = none ∧ Mir.reset.pairPkt = none ∧ Mir.reset.role = false ∧ Mir.reset.linked = false ∧
      ((mirrored (mirPkt 1 1) Mir.reset).peerTag 1).isSome = false) ∧
    ({ Mir.reset with st := .pairing } : Mir).pairPkt = none ∧ ({ pairOf .mirroring false with binds := [] } : Mir).linked = true ∧
    (let s := mirrored (mirPkt 2 0) (pairOf .mirroring false)
     (s.peerTag 1).isNone = false ∧ s.mir.st ≠ .pairing ∧ s.mir.binds = [(1, (s.peerTag 1).getD 0)]) ∧
    ((pairOf .mirroring false).linked = true ∧ (pairOf .mirroring true).role = true ∧ (pairOf .broken true).st = .broken) := by
  decide +kernel

/-- A frame header of a type, for context 1. -/
def hdrOf (typ : BitVec 8) (fseq : BitVec 64) : FrameHdr :=
  { magic := 0x4A435A41, typ := typ, version := 1, ctx := 1, fseq := fseq, length := 64, zero := true }
/-- The standby with that sequence in slot 3, and a page of it. -/
def standby : State :=
  { serving (askPkt 0 0 0) { seqIn .idle [1] 0 with pages := [hbmPa 0 0] } with mir := pairOf .mirroring true }
def mirSeq0 : MirSeq :=
  { state := 1, gen := 1, session := none, share := none, seqId := 77, prio := 2, history := [1, 4], stored := 1, params := parOf 4, mask := [],
    bias := [], key := [], keyRng := false }

theorem witness_MirrorFramesAndKeys :
    (([3, 4, 5, 6, 7, 8, 9, 10, 11, 12] : List Nat).all (fun n => headerOk (hdrOf (BitVec.ofNat 8 n) 2) n && !headerOk (hdrOf 0 2) n) = true) ∧
    ((hdrOf 5 2).fseq.toNat = standby.mir.nextRecv ∧ standby.mir.linked = true ∧ standby.mir.portUp = true ∧ standby.mir.role = true ∧
      (standby.peerTag ((hdrOf 5 2).ctx.toNat % 2 ^ 12)).isSome = true ∧ (standby.seq 3).any (fun x => decide (x.ctx = 1)) = true) ∧
    (({ standby with mir := standby.mir.took (hdrOf 6 2) } : State).mirrorKv 1 3 false 0 0 [7] []).isSome = true ∧
    fieldLe (askPkt 0x71 0 0).bytes 0 1 ≠ 0x60 ∧
    (let s : State := { standby with mir := { standby.mir with binds := [] } }
     s.mir.st ≠ .broken ∧ (s.peerTag (hdrOf 3 2).ctx.toNat).isSome = false ∧ s.mir.binds.length < 64) ∧
    (let m := pairOf .mirroring false
     m.role = false ∧ m.queued = [] ∧ m.holds = [] ∧ (hdrOf 11 2).fseq.toNat = m.nextRecv) ∧
    (Mir.reset.portUp = true ∧ headerOk (hdrOf 1 0) 1 = true ∧ (hdrOf 1 0).fseq = 0 ∧ Mir.reset.nextRecv = 0 ∧ Mir.reset.st = .unpaired) ∧
    (headerOk (hdrOf 2 1) 2 = true ∧ (hdrOf 2 1).fseq = 1) := by decide +kernel

/-- A pairing that has its HELLO: the peer's ephemeral point is the generator, and this device's scalar is 1. -/
def hello0 : HelloBody :=
  { role := true, nonce := List.replicate 32 1, ephPub := ecBytes (some p384G), meas := [], winGib := 16, chainOk := true, draftDigest := [],
    arithRev := 1, deterministic := false }
theorem witness_MirrorFramesAndKeys_finish :
    let m : Mir := { Mir.reset with st := .pairing, peer := some hello0, nextRecv := 1, ephPriv := 1 }
    m.peer = some hello0 ∧ m.portUp = true ∧ m.st = .pairing ∧ m.nextRecv = 1 ∧
      ecdhX m.ephPriv hello0.ephPub = some (natBe p384G.1 48) := by decide +kernel

theorem witness_MirrorUpkeep :
    let f : JFrame := { fseq := 1, offset := 0, bytes := 128, typ := 9, tag := 2, payload := .takeover }
    (pairOf .mirroring false).linked = true ∧ (pairOf .mirroring false).portUp = true ∧ ({ pairOf .resync false with unacked := [f] } : Mir).unacked ≠ [] ∧
      (pairOf .resync false).st = .resync ∧ (pairOf .resync false).queued = [] ∧ (∀ x ∈ ({ pairOf .resync false with unacked := [f] } : Mir).unacked, x.typ ≠ 10) ∧
      (pairOf .resync true).role = true ∧ Mir.reset.st ≠ .resync ∧ Mir.reset.st ≠ .mirroring := by decide +kernel

/-! ### The host endpoint, resets, trust, registers, faults, the Wicket -/

/-- The part with the Portcullis lowered. -/
def frozenPort (bad : Bool) (seen : BitVec 5) : State :=
  { up with port := { up.port with frozen := true, linkBad := bad, causeSeen := seen, cause := 1, heldMsgs := [some 1, none] } }

theorem witness_PortcullisRules :
    (up.port.frozen = false ∧ (frozenPort false 1).port.frozen = true) ∧ up.port.linkUp = true ∧
    ((up.setFn 0 { pf with tdi := .run }).fn 0).tdi = .run ∧
    ([up, frozenPort false 1, frozenPort true 1, frozenPort false 4].all (fun s =>
      s.port.linkUp && (s.port.ready || s.port.frozen) && !(s.fn 0).quiescing && !s.removing && (s.fn 0).enabled) = true) ∧
    ((frozenPort false 1).port.linkBad = false ∧ bit (frozenPort false 1).port.causeSeen.toNat 2 = false ∧
      bit (frozenPort false 1).port.causeSeen.toNat 3 = false ∧ bit (frozenPort false 4).port.causeSeen.toNat 2 = true) := by
  decide +kernel

/-- Function f in some condition. -/
def fnIs (f : Nat) (x : Fn) : State := up.setFn f x
/-- A read outstanding under tag 9 of 4 bytes. -/
def reading (noTimeout : Bool) : State :=
  let r : IoRead := { tag := 9, fn := 0, pasid := none, who := .seq 0, addr := 0, len := 4, got := [], ended := none }
  let s := fnIs 0 { pf with noTimeout := noTimeout }
  { s with port := { s.port with ioReads := [r] } }

theorem witness_FunctionControls :
    (up.port.linkUp = true ∧ up.port.ready = true ∧ up.removing = false ∧ (up.fn 0).quiescing = false ∧ (up.fn 0).enabled = true) ∧
    ((fnIs 0 { pf with d3hot := true }).fn 0).d3hot = true ∧ (up.fn 0).bme = true ∧ ((fnIs 0 { pf with tdi := .locked }).fn 0).tdi = .locked ∧
    ((fnIs 0 { pf with bme := false }).fn 0).bme = false ∧ (up.fn 0).mse = true ∧
    bit (up.cfgWord 0 sriovControl) vfEnableBit = false ∧
    bit ((up.setCfg 0 sriovControl 1).cfgWord 0 sriovControl) vfEnableBit = true ∧
    ([false, true].all (fun rm =>
      let s := fnIs 1 { pf with quiescing := true, removing := rm }
      s.port.linkUp && (s.fn 1).quiescing && !s.port.hotResetPending && !(s.fn 0).quiescing && s.quiet 1 && decide ((s.fn 1).removing = rm)) = true) ∧
    -- two functions are leaving, so a removal is still in progress when the first has left
    (let s := (fnIs 1 { pf with quiescing := true, removing := true }).setFn 2 { pf with quiescing := true, removing := true }
     s.quiet 1 = true ∧ (((s.tearFn 1).resetFn 1 (!(s.fn 1).removing))).removing = true) ∧
    ([false, true].all (fun nt => ((reading nt).openRead 9).isSome && decide (((reading nt).fn 0).noTimeout = nt)) = true) := by
  decide +kernel

theorem witness_ResetsAndLink :
    (up.port.linkUp = true ∧ up.boot.next = 7 ∧ up.port.removeReady = false ∧ (atB 3).boot.next ≠ 7) ∧
    (let s : State := { fnIs 0 { pf with quiescing := true } with port := { up.port with hotResetPending := true } }
     s.port.hotResetPending = true ∧ s.srv.step = none ∧ ∀ f ∈ s.fnsUp, s.quiet f = true) ∧
    (State.reset.port.off = false ∧ State.reset.boot.powered = true ∧ State.reset.port.linkUp = false) ∧
    (up.port.ready = true ∧ (up.fn 0).quiescing = false ∧ up.removing = false ∧ (up.fn 0).enabled = true ∧ up.port.removeRequest = false) ∧
    (let s : State := { up with ctxs := [], port := { up.port with removeRequest := true } }
     s.port.removeRequest = true ∧ s.port.removeReady = false ∧ (∀ r ∈ s.rings, r.2.st = .disabled) ∧ (∀ c ∈ s.ctxs, c.2.valid = false) ∧
       s.srv.step = none ∧ s.srv.programs = [] ∧ s.srv.loading = none ∧ s.coh.asks = false ∧ s.port.frozen = false) := by decide +kernel

/-- A secured session 1, a key set 4 that protects traffic, and a nonce. -/
def secured1 : State :=
  { up with sec := { up.sec with spdm := [(1, true)], ideKeys := [(4, [1])], ideGo := some 4, nonce := some (List.replicate 32 1) } }
/-- A token of the part that secured1 is, with its nonce (R394). -/
def tokenOf (p : Bytes) : Bytes :=
  [0x41, 0x5A, 0x54, 0x4B, 1, 7, 0, 0] ++ (sha384 p ++ (List.replicate 32 1 ++ (List.replicate 8 0 ++ List.replicate 96 0)))

theorem witness_SecurityMessagesAndTokens :
    (secured1.port.linkUp = true ∧ secured1.port.ready = true ∧ (secured1.fn 0).quiescing = false ∧ secured1.removing = false ∧
      (secured1.fn 0).enabled = true ∧ secured1.sec.spdm.length < 4) ∧
    (secured1.secured none = false ∧ secured1.secured (some 1) = true ∧ secured1.sec.ideKeys.any (fun k => k.1 = 4) = true ∧
      secured1.sec.ideGo ≠ none ∧ (secured1.fn 0).tdi = .unlocked ∧ up.sec.ideGo = none ∧ (fnIs 0 { pf with tdi := .locked }).fn 0 = { pf with tdi := .locked }) ∧
    (secured1.barOpen 0 = true ∧ secured1.boot.state ≠ 3 ∧ secured1.sec.busy = false ∧ secured1.sec.nonce ≠ none ∧ secured1.sends 0 = true) ∧
    (let s : State := { secured1 with ctxs := [], sec := { secured1.sec with busy := true } }
     s.sec.busy = true ∧ s.sec.opening = none ∧ s.tokenReason none true ≠ 0 ∧ s.tokenReason (some (tokenOf (ecPub 0))) true = 0 ∧
       (∀ c ∈ s.ctxs, c.2.valid = false) ∧ s.srv.step = none ∧ s.srv.programs = [] ∧ s.srv.loading = none) := by decide +kernel

theorem witness_RegisterAccess :
    (up.port.linkUp = true ∧ up.barOpen 0 = true ∧ up.barOpen 1 = false) ∧
    ((0x1_4028 : BitVec 24).toNat % 8 = 0 ∧ (0x1_4029 : BitVec 24).toNat % 8 ≠ 0 ∧ (0x3120 : BitVec 24).toNat = 0x1000 * (3 : RingId).val + 0x120 ∧
      (0x3100 : BitVec 24).toNat = 0x1000 * (3 : RingId).val + 0x100) ∧
    ((up.ring 0 3).st = .disabled ∧ (up.fn 0).tdi = .unlocked) ∧ up.boot.state ≠ 3 ∧
    ({ up with boot := { up.boot with state := 3 } } : State).boot.state = 3 ∧
    (up.mir.st = .unpaired ∧ standby.mir.st ≠ .unpaired) ∧ (up.arithLocked = false ∧ standby.arithLocked = true) := by decide +kernel

/-- An event at the head of port 0's agent, and the log and reaction as given. -/
def arriving (e : FaultEvent) (r : Option Reaction) : State :=
  { up with flt := { up.flt with agents := [(0, { queue := [e], pending := [] })], reaction := r } }
def reaction0 : Reaction := { fatal := false, source := 1, seqno := 0, slot := some 0, unit := unitDie 0, began := 0 }

theorem witness_FaultArrivals :
    ([(event 8 unitNone 3, 1), (event 23 (unitDie 0) 3, 2), (event 24 unitNone 3, 3)].all (fun x =>
      let s := arriving x.1 none
      let s1 : State := { s with flt := { s.flt.advance 5 with agents := mapPut s.flt.agents 0 { queue := [], pending := [] } } }
      s.collects && decide (mapFind s.flt.agents 0 = some { queue := [x.1], pending := [] }) && decide (x.1.src.val < s.flt.sources.length) &&
        !bit (s1.flt.source x.1.src.val).cfg.toNat 14 && !s.flt.frozen && decide (s1.classOf x.1 = x.2) && decide (x.1.ctx = none)) = true) ∧
    ((event 7 unitNone (hbmPa 11 8)).src.val ∈ [1, 3, 5, 7] ∧ (event 7 unitNone (hbmPa 11 8)).detail.toNat < 2 ^ 52) ∧
    ((severeOp (unitDie 0)).any (fun o => !up.unitOut o.unit) = true) ∧
    (arriving (event 1 unitNone 3) (some reaction0)).flt.reaction = some reaction0 := by decide +kernel

theorem witness_CollectorControls :
    (up.collects = true ∧ up.flt.sources.length = 32 ∧ up.port.linkUp = true ∧ up.barOpen 0 = true ∧ up.flt.reaction.any (·.fatal) = false) ∧
    (let s := arriving (event 1 unitNone 3) (some reaction0)
     s.flt.reaction = some reaction0 ∧ reaction0.fatal = false ∧ s.wkt.waiting = [] ∧ s.wkt.busy = none ∧ s.flt.time + 5 < reaction0.began + 2 ^ 28 ∧
       reaction0.began + 2 ^ 28 ≤ s.flt.time + 2 ^ 28) ∧
    (({ up with wkt := { up.wkt with waiting := [{ op := 1, unit := unitDie 0, arg := 0, fw := true }] } } : State).wkt.waiting ≠ []) ∧
    (arriving (event 1 unitNone 3) (some { reaction0 with fatal := true })).flt.reaction.any (·.fatal) = true ∧
    (let s : State := { up with flt := { up.flt with alvState := 1, alvRefreshed := true } }
     s.flt.alvState = 1 ∧ s.collects = true ∧ s.flt.alvRefreshed = true ∧ s.boot.fwRunning = true ∧ up.flt.alvRefreshed = false) := by
  decide +kernel

/-- An operation in progress. -/
def wktDoing (op : BitVec 4) (u : BitVec 16) : State := { up with wkt := { up.wkt with busy := some { op := op, unit := u, arg := 0, fw := false } } }

theorem witness_WicketCommands :
    (up.port.linkUp = true ∧ up.barOpen 0 = true ∧ up.boot.state ≠ 3 ∧ (wktDoing 1 (unitDie 0)).wkt.isBusy = true ∧ up.wkt.isBusy = false) ∧
    -- no result: the die is in service and can be tested only when drained; a bank of it can be retired
    (up.wktRefused { op := 2, unit := unitDie 0, arg := 0, fw := false } ≠ none ∧
      up.wktRefused { op := 5, unit := unitBank 0 3, arg := 0, fw := false } = none) ∧
    (let o : WktOp := { op := 1, unit := unitDie 0, arg := 0, fw := true }
     let s : State := { up with wkt := { up.wkt with waiting := [o] } }
     s.wkt.busy = none ∧ s.wkt.waiting = [o]) ∧
    ((inStep (stepOf 0 [] false)).wktReady { op := 1, unit := unitDie 0, arg := 0, fw := false } = false ∧
      up.wktReady { op := 2, unit := unitDie 0, arg := 0, fw := false } = true) ∧ up.wkt.busy = none := by decide +kernel

theorem witness_MemoryFormKept : (holdingAt (askPkt 0 0 0) 0 [1, 2, 3]).mem.wf = true ∧
    (match step (holdingAt (askPkt 0 0 0) 0 [1, 2, 3]) with | .next t => t.mem.wf | _ => false) = true := by decide +kernel

/-! ### Ill-formed commands

Each check of Instr.limits refuses a term that breaks it, and takes the term beside it that keeps it. -/

theorem test_illformed_memory :
    (Instr.storeBufferDrain 0 16 0).wellFormed = false ∧ (Instr.storeBufferDrain 0 15 0).wellFormed = true ∧
    (Instr.combine 0 0 [2 ^ 20]).wellFormed = false ∧ (Instr.combine 0 0 [2 ^ 20 - 1]).wellFormed = true ∧
    (Instr.reduce 0 0 [3, 2 ^ 20]).wellFormed = false ∧ (Instr.patrolScrub ⟨0, false⟩ 73 false).wellFormed = false ∧
    (Instr.patrolScrub ⟨0, true⟩ 72 false).wellFormed = true := by decide

theorem test_illformed_lines :
    let l : Bytes := List.replicate 63 0
    (Instr.bisnpResponse 0 (some l)).wellFormed = false ∧ (Instr.bisnpResponse 0 (some (0 :: l))).wellFormed = true ∧
    (Instr.hostCxlMemWrite 0 l .none).wellFormed = false ∧ (Instr.hostCacheResponse 0 true l).wellFormed = false ∧
    (Instr.hostCacheResponse 0 true (0 :: l)).wellFormed = true := by decide +kernel

theorem test_illformed_choices :
    (Instr.msixUnmask 0 (some 2048)).wellFormed = false ∧ (Instr.msixUnmask 0 (some 2047)).wellFormed = true ∧
    (Instr.attachContext 0 0 0 1 1 [2 ^ 52]).wellFormed = false ∧ (Instr.loadModel 0 0 0 imageOf.info [2 ^ 52]).wellFormed = false ∧
    (Instr.forkSequence 0 0 0 0 [2 ^ 52]).wellFormed = false ∧ (Instr.restoreSequence 0 0 0 0 [2 ^ 52]).wellFormed = false ∧
    (Instr.stepBoundary [0, 2 ^ 52]).wellFormed = false ∧ (Instr.kvFrame (hdrOf 6 2) true .takeover [2 ^ 52]).wellFormed = false ∧
    (Instr.resyncFrame (hdrOf 10 2) true .takeover [2 ^ 52]).wellFormed = false := by decide +kernel

theorem test_illformed_rows : (Instr.verifyDrafts 0 (List.replicate 9 [])).wellFormed = false ∧
    (Instr.verifyDrafts 0 (List.replicate 8 [])).wellFormed = true := by decide

/-- A row of more logits than the largest vocabulary is ill-formed. -/
theorem test_illformed_logits (l : Words32) (h : l.length = 2 ^ 18 + 1) :
    (Instr.sample 0 l).wellFormed = false ∧ (Instr.draftSample 0 l).wellFormed = false ∧ (Instr.verifyDrafts 0 [l]).wellFormed = false := by
  simp [Instr.wellFormed, Instr.limits, h]

/-- A completion of more than a page is ill-formed. -/
theorem test_illformed_completion (l : Bytes) (h : l.length = 4097) : (Instr.cxlioCompletion 0 .ok l).wellFormed = false := by
  simp [Instr.wellFormed, Instr.limits, h]

theorem test_illformed_system :
    (Instr.debugTokenRead (some [0]) true).wellFormed = false ∧ (Instr.debugTokenRead none true).wellFormed = true ∧
    (Instr.railReport 0 (2 ^ 32)).wellFormed = false ∧ (Instr.inputVoltageWarn (2 ^ 32)).wellFormed = false ∧
    (Instr.heliostatPeriod [(2, 1)]).wellFormed = false ∧ (Instr.heliostatPeriod (List.replicate 17 (0, 0))).wellFormed = false ∧
    (Instr.heliostatPeriod (List.replicate 16 (1, 1))).wellFormed = true ∧ (Instr.stageB4 ⟨[12], []⟩).wellFormed = false ∧
    (Instr.stageB4 ⟨[11], [(0, 64)]⟩).wellFormed = false ∧ (Instr.stageB4 ⟨[11], [(0, 63)]⟩).wellFormed = true ∧ (Instr.registerWrite 0 .cfg 0x1000 false 0).wellFormed = false ∧
    (Instr.registerWrite 0 .cfg 0xFFC false 0).wellFormed = true ∧ (Instr.registerReadClear 0 .cfg 0x1000 false).wellFormed = false := by
  decide +kernel

theorem test_illformed_hello :
    (Instr.hello (hdrOf 1 0) { hello0 with nonce := List.replicate 33 0 }).wellFormed = false ∧
    (Instr.hello (hdrOf 1 0) { hello0 with ephPub := [4] }).wellFormed = false ∧ (Instr.hello (hdrOf 1 0) hello0).wellFormed = true := by decide +kernel

/-- The table gives no row bits, so no word spells a command. -/
theorem test_no_word_spells : (List.range 64).all (fun n => (decodeTableWord n (2 ^ n - 1)).isNone) = true := by decide +kernel

/-! ### Values that the spec works out -/

/-- EDISP a0, a1, a2 for the matrix engine (03, the example of R92 and R97). -/
theorem test_edisp_word : wordR opDispatch 0 0 12 11 10 = 0x00C5_850B := by decide +kernel

/-- The example of R365: carve offset 0x2_0050_0000 lies in stack M6 at 0xF_D550_0000, physical address 0x9_800F_D550_0000. -/
theorem test_carve_place : carvePa 0x2_0050_0000 = 0x9_800F_D550_0000 := by decide +kernel

/-- The block of R45's example: 768 × (16 × 20 − 16 × 7) × 2^-14 is 9.75, times 0.25 is 2.4375, which is 0x42 in E4M3. -/
theorem test_output_stage :
    fpRound .e4m3 false (fmul (.fin false (768 * (16 * 20 - 16 * 7)) (-14)) (.fin false 1 (-2))) = 0x42 := by decide +kernel

/-- The K4 group of R51's example: scale 0x2E; 3.0 is code 7, which decodes to 3.0625, and −1.0 is code −2, which decodes to −0.875. -/
theorem test_k4_group :
    k4Put [.fin false 3 0, .fin true 1 0] = (0x2E, [7, -2]) ∧
    fpRound .fp32 false (fmul (ofInt 7 0) (fpDecode .e4m3 0x2E)) = 0x4044_0000 ∧
    fpRound .fp32 false (fmul (ofInt (-2) 0) (fpDecode .e4m3 0x2E)) = 0xBF60_0000 := by decide +kernel

/-- The page of R144's example: G 9 gives 76,032 bytes. -/
theorem test_kv_page : (kvOf (natLe 0x0905 2 ++ List.replicate 32 0 ++ natLe 9 2 ++ List.replicate 28 0)).page = 76032 := by decide +kernel

/-- T3 of R409's example: at 106.25 W each, CD5 waits 0.01 of its time and the others 0.28: CD5 rises to 205.859375 W, the others fall to
99.609375 W. -/
theorem test_share_transfer :
    let t := up.transfer (List.range 16) (fun d => if d = 5 then 1 / 100 else 28 / 100) (fun _ => 425 / 4)
    t 5 = 205859375 / 1000000 ∧ t 0 = 99609375 / 1000000 ∧ t 15 = 99609375 / 1000000 := by decide +kernel

/-- The collector of R437's example: source 0 escalates at 3 in windows of 2^20 cycles; n events counted so far, t cycles into the
window; the next event is of slot 3 of CD9.K2, at port 2. -/
def counted (n t : Nat) : State :=
  let src (i : Nat) : FltSource := if i = 0 then { FltSource.reset 0 with cfg := 0x5403, count := n, timer := t } else FltSource.reset i
  { up with flt := { up.flt with sources := (List.range 32).map src,
                                 agents := [(2, { queue := [event 0 (unitSlot 9 2 3) 0], pending := [] })] } }
/-- Count, timer and the entry that FAULT_ARRIVAL leaves after some cycles. -/
def collected (n t cycles : Nat) : Option (Nat × Nat × Option (Nat × BitVec 16)) :=
  match exec (.faultArrival 2 none cycles) (counted n t) with
  | .next u => some ((u.flt.source 0).count, (u.flt.source 0).timer, (mapFind u.flt.log 0).map (fun e => (e.cls.toNat, e.unit)))
  | _ => none

/-- T1: at the cycle of the roll the event is the first of the new window. T3: the third of a window escalates, and the count returns
to 0. -/
theorem test_fault_windows :
    collected 1 1048000 576 = some (1, 0, none) ∧ collected 2 251424 200000 = some (0, 451424, some (2, 0x1263)) := by decide +kernel

/-- The reset values of R471: DEV_BRINGUP 0xFFE0, DEV_ID by R470, MIR_CFG 0x0001_0010. -/
theorem test_reset_registers :
    State.reset.devBringup = 0xFFE0 ∧ State.reset.bar0Slot 0 0x1_7000 = 0x0001_0010 := by decide +kernel

/-! ### Public standards (log entry 5) -/

/-- FIPS 180-4: SHA-384 of "abc". -/
theorem test_sha384 : beNat (sha384 (ascii "abc")) =
    0xcb00753f45a35e8bb5a03d699ac65007272c32ab0eded1631a8b605a43ff5bed8086072ba1e7cc2358baeca134c825a7 := by decide +kernel

/-- FIPS 197 C.3: AES-256. -/
theorem test_aes : beNat (aesBlock ((List.range 32).map (BitVec.ofNat 8)) ((List.range 16).map (fun i => BitVec.ofNat 8 (17 * i)))) =
    0x8ea2b7ca516745bfeafc49904b496089 := by decide +kernel

/-- The tag of an empty message under AES-256-GCM with a zero key and nonce (test case 13 of the GCM submission). -/
theorem test_gcm : beNat (gcmTag (List.replicate 32 0) (List.replicate 12 0) [] []) = 0x530f8afbc74536b9a963b4f1c4cb738b := by decide +kernel

/-- CRC-32C of "123456789". -/
theorem test_crc32c : crc32c (ascii "123456789") = 0xE3069283 := by decide +kernel

end Sys2Proof.Tests
end

section
/-! PROOFS. Register access (R13, R56, R342, R465 to R471): what a host access answers through a BAR that is open or closed, which
slot or ring register an offset names, and what a read or write of the registers of O56 leaves. -/

namespace Sys2Proof.Proofs

open Sys2Proof Sys2Proof.Machine

/-! ### The gate of a BAR (R342) -/

theorem barAccess_of_open {s : State} {f : Nat} (hl : s.port.linkUp = true) (ho : s.barOpen f = true) (k : State → State) :
    s.barAccess f k = k s := by
  simp [State.barAccess, hl, ho]

theorem barAccess_of_closed {s : State} {f : Nat} (hl : s.port.linkUp = true) (hc : s.barOpen f = false) (k : State → State) :
    s.barAccess f k = (s.send (.unsupportedRequest f)).aerUncor f aerUnsupported := by
  simp [State.barAccess, hl, hc]

/-! ### Register commands behind the gate (R13, R280, R466, R467) -/

/-- A slot is sent as its low 64 bits; the bound is written as simp evaluates 2 ^ 64. -/
theorem ofNat64_mod (n : Nat) : BitVec.ofNat 64 (n % 18446744073709551616) = BitVec.ofNat 64 n :=
  BitVec.eq_of_toNat_eq (by simp)

theorem exec_registerReadClear_bar0_of_aligned (f : FnId) {off : BitVec 24} (s : State) (h : off.toNat % 8 = 0) :
    exec (.registerReadClear f .bar0 off true) s = .next (s.barAccess f (fun s =>
      (if f.val = 0 then s.clearRc off.toNat true true else s).send (.regValue f (BitVec.ofNat 64 (s.bar0Slot f off.toNat))))) := by
  have hslot : off.toNat / 8 * 8 = off.toNat := by omega
  simp [exec, execRegisterReadClear, h, hslot, ofNat64_mod]

theorem exec_registerReadClear_bar0_of_misaligned (f : FnId) {off : BitVec 24} (s : State) (h : off.toNat % 8 ≠ 0) :
    exec (.registerReadClear f .bar0 off true) s = .next (s.barAccess f (fun s => s.send (.regValue f 0))) := by
  simp [exec, execRegisterReadClear, h]

theorem exec_registerWrite_bar0_of_aligned (f : FnId) {off : BitVec 24} (v : BitVec 64) (s : State) (h : off.toNat % 8 = 0) :
    exec (.registerWrite f .bar0 off true v) s = .next (s.barAccess f (fun s => s.writeBar0 f off.toNat v.toNat true true)) := by
  have hslot : off.toNat / 8 * 8 = off.toNat := by omega
  have h4 : off.toNat % 4 = 0 := by omega
  simp [exec, execRegisterWrite, h, h4, hslot]

theorem exec_registerWrite_bar0_of_misaligned (f : FnId) {off : BitVec 24} (v : BitVec 64) (s : State) (h : off.toNat % 8 ≠ 0) :
    exec (.registerWrite f .bar0 off true v) s = .next (s.barAccess f (fun s => s)) := by
  simp [exec, execRegisterWrite, h]

/-- A Transom register without RC fields (all but the one at 0x128) is read without effect. -/
theorem exec_registerReadClear_bar2 (f : FnId) (r : RingId) {off : BitVec 24} {reg : Nat} (s : State)
    (hoff : off.toNat = 0x1000 * r.val + reg) (hreg : reg < 0x1000) (h8 : reg % 8 = 0) (hrc : reg ≠ 0x128) :
    exec (.registerReadClear f .bar2 off true) s =
      .next (s.barAccess f (fun s => s.send (.regValue f (BitVec.ofNat 64 ((s.ring f r).reg reg))))) := by
  have hr : off.toNat / 0x1000 = r.val := by omega
  have ho : off.toNat % 0x1000 = reg := by omega
  have h8' : off.toNat % 8 = 0 := by omega
  simp [exec, execRegisterReadClear, hr, ho, h8', hrc, Nat.not_le.mpr r.isLt]

theorem exec_registerWrite_bar2 (f : FnId) (r : RingId) {off : BitVec 24} {reg : Nat} (v : BitVec 64) (s : State)
    (hoff : off.toNat = 0x1000 * r.val + reg) (hreg : reg < 0x1000) (h8 : reg % 8 = 0) :
    exec (.registerWrite f .bar2 off true v) s = .next (s.barAccess f (fun s => s.writeRing f r reg v.toNat)) := by
  have hr : off.toNat / 0x1000 = r.val := by omega
  have ho : off.toNat % 0x1000 = reg := by omega
  simp [exec, execRegisterWrite, hr, ho, h8, Nat.not_le.mpr r.isLt]

theorem exec_devArithWrite (w : BitVec 32) (s : State) :
    exec (.devArithWrite w) s = .next (s.barAccess 0 (fun s => s.writeArith w.toNat)) := by
  simp [exec, execDevArithWrite, State.bar0Write]

/-- A closed BAR0 or BAR2 answers every 8-byte read or write with Unsupported Request, which AER reports at bit 20 (log entry 7). -/
theorem exec_register_of_closed {f : FnId} {off : BitVec 24} {v : BitVec 64} {s : State} (hl : s.port.linkUp = true)
    (hc : s.barOpen f = false) {i : Instr}
    (hi : i ∈ [Instr.registerReadClear f .bar0 off true, .registerWrite f .bar0 off true v,
      .registerReadClear f .bar2 off true, .registerWrite f .bar2 off true v]) :
    exec i s = .next ((s.send (.unsupportedRequest f)).aerUncor f aerUnsupported) := by
  have hgate : ∃ k, exec i s = .next (s.barAccess f k) := by
    simp only [List.mem_cons, List.not_mem_nil, or_false] at hi
    rcases hi with rfl | rfl | rfl | rfl <;> exact ⟨_, rfl⟩
  obtain ⟨k, hk⟩ := hgate
  rw [hk, barAccess_of_closed hl hc]

/-! ### The management space of the PF (R465, R470, R471) -/

/-- Offsets of BAR0 of the PF from 0x1_0000 up to the MSI-X table are the management space. -/
theorem bar0Slot_mgmt (s : State) {off : Nat} (hlo : 0x1_0000 ≤ off) (hhi : off < 0xF0_0000) : s.bar0Slot 0 off = s.mgmtReg off := by
  have hmsix : ¬ 0xF0_0000 ≤ off := by omega
  have hpba : ¬ 0xF1_0000 ≤ off := by omega
  have hcxl : ¬ off < 0x1_0000 := by omega
  simp [State.bar0Slot, msixAt, hmsix, hpba, hcxl]

theorem writeBar0_mgmt (s : State) {off : Nat} (v : Nat) (lo hi : Bool) (hlo : 0x1_0000 ≤ off) (hhi : off < 0xF0_0000) :
    s.writeBar0 0 off v lo hi = s.writeMgmt off v lo hi := by
  have hmsix : ¬ 0xF0_0000 ≤ off := by omega
  have hcxl : ¬ off < 0x1_0000 := by omega
  simp [State.writeBar0, msixAt, hmsix, hcxl]

/-- DEV_ID (R470). -/
theorem mgmtReg_devId (s : State) : s.mgmtReg 0x1_0000 = 0x0000_0101_A240_1F5C := rfl

/-- After a FAILED bring-up the blocks but DEV_ and FLT_ read 0 (R470). -/
theorem mgmtReg_of_failed {s : State} {off : Nat} (h : s.boot.state = 3#2) (hdev : off / 0x1000 ≠ 0x10) (hflt : off / 0x1000 ≠ 0x15) :
    s.mgmtReg off = 0 := by
  simp [State.mgmtReg, h]

/-- After a FAILED bring-up a write to a block but DEV_ and FLT_ is ignored (R470). -/
theorem writeMgmt_of_failed {s : State} {off : Nat} (v : Nat) (lo hi : Bool) (h : s.boot.state = 3#2)
    (hdev : off / 0x1000 ≠ 0x10) (hflt : off / 0x1000 ≠ 0x15) : s.writeMgmt off v lo hi = s := by
  simp [State.writeMgmt, h]

theorem writeMgmt_hst {s : State} {o : Nat} (v : Nat) (lo hi : Bool) (h : s.boot.state ≠ 3#2) (ho : o < 0x1000) :
    s.writeMgmt (0x1_1000 + o) v lo hi = if lo then s.writeHst o v else s := by
  have hb : (0x1_1000 + o) / 0x1000 = 0x11 := by omega
  have hr : (0x1_1000 + o) % 0x1000 = o := by omega
  simp [State.writeMgmt, h, hb, hr]

/-- MIR_CFG is writable only while unpaired (R464). -/
theorem writeMgmt_mirCfg {s : State} (v : Nat) (hi : Bool) (h : s.boot.state ≠ 3#2) :
    s.writeMgmt 0x1_7000 v true hi =
      if s.mir.st = .unpaired then
        { s with mir := { s.mir with winGib := bits v 6 0, syncFail := bit v 7, lagMib := bits v 23 8 } }
      else s := by
  simp [State.writeMgmt, h]

/-! ### Fields that a read clears (R467, R468) -/

/-- FLT_NL_STATUS.LOST stands in the high half of its slot (R442): only a read of that half clears it. -/
theorem clearRc_lost (s : State) (hi : Bool) : (s.clearRc 0x1_5010 true hi).flt.lost = if hi then 0 else s.flt.lost := rfl

theorem clearRc_pwrCounters {s : State} (h : s.boot.state ≠ 3#2) : (s.clearRc 0x1_4028 true true).pwrReg 0x28 = 0 := by
  simp [State.clearRc, State.pwrReg, h]

theorem clearRc_cohCounters {s : State} (h : s.boot.state ≠ 3#2) : (s.clearRc 0x1_3010 true true).cohReg 0x10 = 0 := by
  simp [State.clearRc, State.cohReg, h]

/-! ### Ring registers and DEV_ARITH (R280, R377, R56) -/

/-- The queue base of a DISABLED ring whose interface is not locked takes the page of the value written. -/
theorem writeRing_sqBase {s : State} {f : FnId} {r : RingId} (v : Nat) (hd : (s.ring f r).st = .disabled)
    (hu : (s.fn f).tdi = .unlocked) :
    s.writeRing f r 0x100 v = s.setRing f r { s.ring f r with sqBase := BitVec.ofNat 64 (v / 4096 * 4096) } := by
  simp [State.writeRing, hd, hu]

theorem writeArith_of_unlocked {s : State} (v : Nat) (h : s.arithLocked = false) :
    s.writeArith v =
      { s with boot := { s.boot with writeIgnored := s.boot.writeIgnored && !bit v 2, deterministic := bit v 0 } } := by
  simp [State.writeArith, h]

/-- A write while LOCKED changes WRITE_IGNORED alone (log entry 79). -/
theorem writeArith_of_locked {s : State} (v : Nat) (h : s.arithLocked = true) :
    s.writeArith v = { s with boot := { s.boot with writeIgnored := true } } := by
  simp [State.writeArith, h]

/-! ### The statement -/

/-- Settles O56: each access goes through the gate of its BAR, and the register that it names has its own rule above. -/
theorem registerAccess : Obligations.RegisterAccess := by
  intro f off v s hl
  have mgmt {o : Nat} (lo : Bool) (h0 : 0x1_0000 ≤ o) (h1 : o < 0xF0_0000) := writeBar0_mgmt s v.toNat lo true h0 h1
  refine ⟨fun hc i hi => exec_register_of_closed hl hc hi, fun ho => ?openBar, ?devId, ⟨?lost, ?lostKept, fun h => ⟨?pwr, ?coh⟩⟩,
    fun h => ⟨?intEnable, ?intStatus, ?highHalf, fun hp => ?paired, fun hp => ?unpaired⟩, fun h => ⟨?ignored, ?readsZero⟩,
    fun ho w => ⟨fun ha => ?unlocked, fun ha => ?locked⟩⟩
  case openBar =>
    have gate := barAccess_of_open hl ho
    refine ⟨fun h => ?_, fun h => ⟨?_, ?_⟩, fun h => ?_, fun r h => ?_, fun r h hd hu => ?_⟩
    · rw [exec_registerReadClear_bar0_of_aligned f s h, gate]
    · rw [exec_registerReadClear_bar0_of_misaligned f s h, gate]
    · rw [exec_registerWrite_bar0_of_misaligned f v s h, gate]
    · rw [exec_registerWrite_bar0_of_aligned f v s h, gate]
    · rw [exec_registerReadClear_bar2 f r s h (by decide) (by decide) (by decide), gate]
    · rw [exec_registerWrite_bar2 f r v s h (by decide) (by decide), gate, writeRing_sqBase v.toNat hd hu]
  case devId => rw [bar0Slot_mgmt s (by decide) (by decide), mgmtReg_devId]
  case lost => exact clearRc_lost s true
  case lostKept => exact clearRc_lost s false
  case pwr => exact clearRc_pwrCounters h
  case coh => exact clearRc_cohCounters h
  case intEnable => exact (mgmt true (by decide) (by decide)).trans (writeMgmt_hst (o := 8) v.toNat true true h (by decide))
  case intStatus => exact (mgmt true (by decide) (by decide)).trans (writeMgmt_hst (o := 0) v.toNat true true h (by decide))
  case highHalf => exact (mgmt false (by decide) (by decide)).trans (writeMgmt_hst (o := 8) v.toNat false true h (by decide))
  case paired => rw [mgmt true (by decide) (by decide), writeMgmt_mirCfg v.toNat true h, if_neg hp]
  case unpaired => rw [mgmt true (by decide) (by decide), writeMgmt_mirCfg v.toNat true h, if_pos hp]
  case ignored => rw [mgmt true (by decide) (by decide), writeMgmt_of_failed v.toNat true true h (by decide) (by decide)]
  case readsZero => exact mgmtReg_of_failed h (by decide) (by decide)
  case unlocked => rw [exec_devArithWrite, barAccess_of_open hl ho, writeArith_of_unlocked w.toNat ha]
  case locked => rw [exec_devArithWrite, barAccess_of_open hl ho, writeArith_of_locked w.toNat ha]

end Sys2Proof.Proofs
end

section
/-! PROOFS. What reading, writing and carrying out DMA descriptors and collectives leaves of the bring-up record: all of it, so that
deterministic mode stays as it is (R56, R57). A lemma about an operation that answers a state beside a result takes the equation of the
answer, as a match on it gives one. -/

namespace Sys2Proof.Proofs

open Sys2Proof Sys2Proof.Machine

/-- What no step of a fold changes, the fold does not change. -/
theorem foldl_keeps {α β γ : Type} (g : α → γ) {f : α → β → α} (h : ∀ a b, g (f a b) = g a) (l : List β) (a : α) :
    g (l.foldl f a) = g a :=
  List.foldlRecOn (motive := fun x => g x = g a) l f rfl (fun _ ha b _ => (h _ b).trans ha)

/-- A fold whose steps keep the record keeps it. -/
theorem foldl_boot {β : Type} {f : State → β → State} (h : ∀ s b, (f s b).boot = s.boot) (l : List β) (s : State) :
    (l.foldl f s).boot = s.boot :=
  foldl_keeps State.boot h l s

/-! ### Ends of programs, queues and semaphores (R83, R87, R96) -/

theorem stopChan_boot (s : State) (g q : Nat) : (s.stopChan g q).boot = s.boot := rfl

theorem endProgram_boot (s : State) (p : Program) (e : ProgEnd) (fault : Option (Nat × Nat × Nat × Word × Word)) :
    (s.endProgram p e fault).boot = s.boot := by
  unfold State.endProgram
  dsimp only
  split
  · refine (foldl_boot (fun s c => ?_) _ _).trans rfl
    refine (foldl_boot (fun s q => ?_) _ _).trans (State.modCore_boot s c.g quietCore)
    split
    · exact stopChan_boot s c.g q
    · rfl
  · rfl

theorem programFault_boot (s : State) (g queue code : Nat) (cause tval : Word) :
    (s.programFault g queue code cause tval).boot = s.boot := by
  unfold State.programFault
  split
  · exact endProgram_boot ..
  · rfl

theorem halt_boot (s : State) (g q code : Nat) (ticket : BitVec 32) : (s.halt g q code ticket).boot = s.boot :=
  programFault_boot ..

theorem signal_boot (s : State) (g n k : Nat) : (s.signal g n k).boot = s.boot := by
  unfold State.signal
  split
  · rfl
  · exact programFault_boot ..

theorem descDone_boot (s : State) (g ch : Nat) (c : EngCmd) : (s.descDone g ch c).boot = s.boot := by
  unfold State.descDone
  split
  · split
    · exact halt_boot ..
    · rfl
  · rfl

/-! ### A line made ready (R230 to R236, R341, R353 to R361) -/

theorem countFault_boot (s : State) (w : Waiter) : (s.countFault w).boot = s.boot := by
  unfold State.countFault
  split <;> rfl

theorem askAts_boot (s : State) (hub fn pasid va : Nat) (nw : Bool) : (s.askAts hub fn pasid va nw).boot = s.boot := by
  unfold State.askAts
  dsimp only
  split
  · rfl
  · split
    · rfl
    · split
      · rfl
      · split <;> rfl

theorem needPage_boot {s : State} {who : Waiter} {hub fn pasid va : Nat} {rd wr e : Bool} {r : XRes × State}
    (h : s.needPage who hub fn pasid va rd wr e = r) : r.2.boot = s.boot := by
  subst h
  unfold State.needPage
  split
  · split
    · rfl
    · exact askAts_boot ..
    · rfl
  · split
    · exact countFault_boot ..
    · dsimp only
      split
      · exact countFault_boot ..
      · exact askAts_boot ..

theorem resolve_boot {s : State} {who : Waiter} {unit : Option Nat} {hub fn pasid va : Nat} {rd wr : Bool} {r : XRes × State}
    (h : s.resolve who unit hub fn pasid va rd wr = r) : r.2.boot = s.boot := by
  subst h
  unfold State.resolve
  dsimp only
  split
  · split
    · rfl
    · exact (needPage_boot rfl).trans rfl
  · exact (needPage_boot rfl).trans rfl

theorem touchL1_boot (s : State) (q : Requester) (ptr : Nat) : (s.touchL1 q ptr).boot = s.boot := by
  unfold State.touchL1
  split
  · split <;> rfl
  · rfl

theorem askIo_boot {s : State} {who : Waiter} {fn : Nat} {pasid : Option Nat} {addr len : Nat} {r : IoRes × State}
    (h : s.askIo who fn pasid addr len = r) : r.2.boot = s.boot := by
  subst h
  unfold State.askIo
  split
  · split <;> rfl
  · split
    · rfl
    · split <;> rfl

theorem dcReady_boot (s : State) (line : Nat) (excl whole : Bool) : (s.dcReady line excl whole).2.boot = s.boot := by
  unfold State.dcReady
  split
  · rfl
  · split <;> rfl

theorem refuseReq_boot (s : State) (stream line : Nat) : (s.refuseReq stream line).boot = s.boot := by
  unfold State.refuseReq
  dsimp only
  split <;> rfl

theorem homeReady_boot (s : State) (stream line : Nat) (write : Bool) : (s.homeReady stream line write).2.boot = s.boot := by
  unfold State.homeReady
  split
  · split
    · rfl
    · exact refuseReq_boot ..
  · split
    · exact refuseReq_boot ..
    · split
      · split <;> rfl
      · rfl

theorem regulated_boot {s : State} {fw : Bool} {k : Nat} {r : Bool × State} (h : s.regulated fw k = r) : r.2.boot = s.boot := by
  subst h
  unfold State.regulated
  split
  · split <;> rfl
  · rfl

theorem meter_boot (s : State) (fw : Bool) (k : Nat) : (s.meter fw k).boot = s.boot := by
  unfold State.meter
  split <;> rfl

theorem prepLine_boot (s : State) (q : Requester) (ptr len : Nat) (k : Kind) : (s.prepLine q ptr len k).2.boot = s.boot := by
  unfold State.prepLine
  extract_lets line
  have hline (s : State) (t : Tgt) : (line s t).2.boot = s.boot := by
    dsimp only [line]
    split
    · split
      · split
        · next h => exact askIo_boot h
        · next h => exact askIo_boot h
      · rfl
    · split
      · rfl
      · split
        · exact dcReady_boot ..
        · split
          · split
            · next h => exact regulated_boot h
            · next h => exact (homeReady_boot ..).trans (regulated_boot h)
          · rfl
  split
  · split
    · next h => exact resolve_boot h
    · next h => exact resolve_boot h
    · next h => exact (hline _ _).trans (resolve_boot h)
    · next h => exact (hline _ _).trans (resolve_boot h)
  · exact (hline _ _).trans (touchL1_boot ..)

theorem prep_boot {s : State} {q : Requester} {ptr len : Nat} {k : Kind} {r : Ready × State} (h : s.prep q ptr len k = r) :
    r.2.boot = s.boot := by
  subst h
  refine foldl_keeps (fun a : Ready × State => a.2.boot) (fun a p => ?_) _ _
  exact prepLine_boot ..

/-! ### Ranges read and written (R139, R165, R179, R186, R194) -/

theorem readLine_boot {s : State} {q : Requester} {unit : BitVec 16} {ptr len : Nat} {r : Option Bytes × State}
    (h : s.readLine q unit ptr len = r) : r.2.boot = s.boot := by
  subst h
  unfold State.readLine
  dsimp only
  split
  · split
    · next h => exact askIo_boot h
    · next h => exact askIo_boot h
  · split
    · rfl
    · split
      · rfl
      · split
        · exact (State.report_boot ..).trans (meter_boot ..)
        · exact meter_boot ..

theorem readRange_boot {s : State} {q : Requester} {unit : BitVec 16} {ptr len : Nat} {r : Option Bytes × State}
    (h : s.readRange q unit ptr len = r) : r.2.boot = s.boot := by
  subst h
  refine foldl_keeps (fun a : Option Bytes × State => a.2.boot) (fun a p => ?_) _ _
  split
  · rfl
  · split
    · next h => exact (readLine_boot h :)
    · next h => exact (readLine_boot h :)

theorem storeLine_boot (s : State) (k : Nat) (bs : Bytes) (tag : Option Nat) : (s.storeLine k bs tag).boot = s.boot := by
  unfold State.storeLine
  dsimp only
  split
  · refine (State.report_boot ..).trans ?_
    split
    · rfl
    · split <;> rfl
  · split
    · rfl
    · split <;> rfl

theorem writeLine_boot (s : State) (q : Requester) (unit : BitVec 16) (ptr : Nat) (bs : Bytes) :
    (s.writeLine q unit ptr bs).boot = s.boot := by
  unfold State.writeLine
  dsimp only
  split
  · rfl
  · split
    · rfl
    · split
      · split <;> rfl
      · exact (storeLine_boot ..).trans (meter_boot ..)

theorem writeRange_boot (s : State) (q : Requester) (unit : BitVec 16) (ptr : Nat) (bs : Bytes) :
    (s.writeRange q unit ptr bs).boot = s.boot := by
  refine foldl_boot (fun s p => ?_) _ _
  exact writeLine_boot ..

theorem readKey_boot {s : State} {q : Requester} {key n : Nat} {r : Option Bytes × State} (h : s.readKey q key n = r) :
    r.2.boot = s.boot := by
  subst h
  refine foldl_keeps (fun a : Option Bytes × State => a.2.boot) (fun a p => ?_) _ _
  split
  · rfl
  · dsimp only
    split
    · rfl
    · split
      · rfl
      · split <;> rfl

theorem writeKey_boot (s : State) (q : Requester) (key : Nat) (bs : Bytes) : (s.writeKey q key bs).boot = s.boot := by
  refine foldl_boot (fun s p => ?_) _ _
  split
  · rfl
  · split
    · split <;> rfl
    · exact storeLine_boot ..

theorem finderChunk_boot (s : State) (d pa : Nat) : (s.finderChunk d pa).boot = s.boot := by
  unfold State.finderChunk
  split <;> rfl

theorem finderRead_boot (s : State) (q : Requester) (ptr len : Nat) : (s.finderRead q ptr len).boot = s.boot := by
  unfold State.finderRead
  split
  · rfl
  · exact foldl_boot (fun s p => finderChunk_boot ..) _ _

theorem fetch_boot {s : State} {q : Requester} {ptr len : Nat} {r : Tile × Bytes × State} (h : s.fetch q ptr len = r) :
    r.2.2.boot = s.boot := by
  subst h
  unfold State.fetch
  split
  · next h => exact prep_boot h
  · next h => exact prep_boot h
  · next h =>
    split
    · next h' => exact (readRange_boot h').trans (prep_boot h)
    · next h' => exact (readRange_boot h').trans (prep_boot h)

theorem fetchAll_boot {s : State} {q : Requester} {rs : List (Nat × Nat)} {r : Tile × List Bytes × State}
    (h : s.fetchAll q rs = r) : r.2.2.boot = s.boot := by
  subst h
  refine foldl_keeps (fun a : Tile × List Bytes × State => a.2.2.boot) (fun a p => ?_) _ _
  split
  · rfl
  · split
    · next h => exact fetch_boot h
    · next h => exact fetch_boot h

theorem prepWrites_boot {s : State} {q : Requester} {ws : List (Nat × Nat)} {r : Tile × State} (h : s.prepWrites q ws = r) :
    r.2.boot = s.boot := by
  subst h
  refine foldl_keeps (fun a : Tile × State => a.2.boot) (fun a w => ?_) _ _
  split
  · exact prep_boot rfl
  · next h _ => exact (prep_boot h :)
  · next h _ => exact (prep_boot h :)
  · next h _ => exact (prep_boot h :)

/-! ### Parts of a collective (R150, R151, R154) -/

theorem partEnd_boot (s : State) (p : Part) (code : Nat) (sig : Bool) : (s.partEnd p code sig).boot = s.boot := by
  unfold State.partEnd
  extract_lets ended goneOn
  split
  · exact halt_boot ..
  · have hgone : goneOn.boot = s.boot := by
      dsimp only [goneOn]
      split
      · split
        · exact descDone_boot ..
        · rfl
      · rfl
    split
    · exact (signal_boot ..).trans hgone
    · exact hgone

theorem allEnd_boot (s : State) (ps : List Part) (code : Nat) : (s.allEnd ps code).boot = s.boot := by
  refine foldl_boot (fun s p => ?_) _ _
  exact partEnd_boot ..

theorem closeColl_boot (s : State) (j : Joined) : (s.closeColl j).boot = s.boot := by
  unfold State.closeColl
  split <;> rfl

/-- Tiles that keep the record keep it in any number. -/
theorem runTiles_boot {f : State → Nat → Tile × State} (hf : ∀ s i, (f s i).2.boot = s.boot) (n i : Nat) (s : State)
    {r : Nat × Tile × State} (h : runTiles f n i s = r) : r.2.2.boot = s.boot := by
  subst h
  induction n generalizing i s with
  | zero => rfl
  | succ n ih =>
    have hi := hf s i
    unfold runTiles
    split
    · next h => rw [h] at hi; exact (ih ..).trans hi
    · next h => rw [h] at hi; exact hi

theorem runMember_boot {s : State} {p : Part} {count : Nat} {tile : State → Nat → Tile × State}
    (hf : ∀ s i, (tile s i).2.boot = s.boot) {r : Tile × State} (h : s.runMember p count tile = r) : r.2.boot = s.boot := by
  subst h
  unfold State.runMember
  split
  · next h => exact runTiles_boot hf _ _ _ h
  · next h => exact (partEnd_boot ..).trans (runTiles_boot hf _ _ _ h)
  · next h => exact runTiles_boot hf _ _ _ h

/-! ### EXCHANGE (R154) -/

theorem dieVisible_boot (s : State) (j : Joined) (d : Nat) : (s.dieVisible j d).boot = s.boot := by
  refine foldl_boot (fun s x => ?_) _ _
  exact signal_boot ..

theorem rowArrived_boot (s : State) (j : Joined) (d : Nat) : (s.rowArrived j d).boot = s.boot := by
  unfold State.rowArrived
  dsimp only
  split
  · exact (dieVisible_boot ..).trans rfl
  · rfl

theorem exchangeTile_boot (s : State) (p : Part) (t : Nat) : (s.exchangeTile p t).2.boot = s.boot := by
  unfold State.exchangeTile
  dsimp only
  split
  · split
    · next h =>
      refine Eq.trans (foldl_boot (fun s x => ?_) _ _) ((finderRead_boot ..).trans (fetchAll_boot h))
      exact (rowArrived_boot ..).trans (writeKey_boot ..)
    · exact fetchAll_boot (by assumption)
  · split
    · rfl
    · split
      · next h => exact (writeRange_boot ..).trans (prepWrites_boot h)
      · exact prepWrites_boot rfl

theorem runExchange_boot (s : State) (p : Part) : (s.runExchange p).boot = s.boot := by
  unfold State.runExchange
  split
  · next h => exact (partEnd_boot ..).trans (runMember_boot (fun s t => exchangeTile_boot s p t) h)
  · next h => exact runMember_boot (fun s t => exchangeTile_boot s p t) (by assumption)

theorem startExchange_boot (s : State) (ps : List Part) : (s.startExchange ps).boot = s.boot := by
  unfold State.startExchange
  split
  · rfl
  · dsimp only
    split
    · exact allEnd_boot ..
    · refine (foldl_boot (fun s d => ?_) _ _).trans ?_
      · split
        · exact dieVisible_boot ..
        · rfl
      · refine Eq.trans (b := State.boot (List.foldl _ _ _)) rfl ?_
        refine (foldl_boot (fun s p => ?_) _ _).trans ?_
        · rfl
        · refine foldl_boot (fun s d => ?_) _ _
          exact writeKey_boot ..

/-! ### COMBINE (R156, R157) -/

theorem returnTile_boot (s : State) (p : Part) (x : ExchangeRec) (i : Nat) : (s.returnTile p x i).2.boot = s.boot := by
  unfold State.returnTile
  dsimp only
  split
  · next h =>
    have hread (q : Requester) (ptr len : Nat) := (finderRead_boot _ q ptr len).trans (fetch_boot h)
    split
    · next h' => exact (readKey_boot h').trans (hread ..)
    · next h' =>
      split
      · exact (readKey_boot h').trans (hread ..)
      · exact (writeKey_boot ..).trans ((readKey_boot h').trans (hread ..))
  · exact fetch_boot (by assumption)

theorem contributions_boot {s : State} {p : Part} {tok : Nat} {ranks : List Nat} {r : Option (List (Nat × Bytes)) × State}
    (h : s.contributions p tok ranks = r) : r.2.boot = s.boot := by
  subst h
  refine foldl_keeps (fun a : Option (List (Nat × Bytes)) × State => a.2.boot) (fun a r => ?_) _ _
  split
  · rfl
  · split
    · next h => exact (readKey_boot h :)
    · next h => exact (readKey_boot h :)

theorem combineTile_boot {s : State} {p : Part} {base : Nat} {order : List Nat} {t : Nat} {r : Tile × State}
    (h : s.combineTile p base order t = r) : r.2.boot = s.boot := by
  subst h
  unfold State.combineTile
  dsimp only
  split
  · next h =>
    split
    · next h' =>
      have hread := (fetchAll_boot h').trans (prepWrites_boot h)
      split
      · next hc => exact (contributions_boot hc).trans hread
      · next hc => exact (writeRange_boot ..).trans ((contributions_boot hc).trans hread)
    · exact (fetchAll_boot (by assumption)).trans (prepWrites_boot h)
  · exact prepWrites_boot rfl

/-- Token t's turn in combineOut: whether the member's descriptor has failed, and the state. -/
def combineOutStep (p : Part) (base : Nat) (order : List Nat) (a : Bool × State) (t : Nat) : Bool × State :=
  let j := a.2.joinNow p.j
  if a.1 || j.outs.contains t || !(List.range (cK p.d)).all (fun r => j.got.contains (t, r)) then a
  else
    match a.2.combineTile p base order t with
    | (.done, s) => (false, s.modJoin p.j (fun x => { x with outs := x.outs ++ [t] }))
    | (.wait, s) => (false, s)
    | (.err e, s) => (true, s.partEnd p e false)

theorem combineOut_eq (s : State) (p : Part) (base : Nat) (order : List Nat) :
    s.combineOut p base order = ((List.range (cTokens p.d)).foldl (combineOutStep p base order) (false, s)).2 := rfl

theorem combineOutStep_boot (p : Part) (base : Nat) (order : List Nat) (a : Bool × State) (t : Nat) :
    (combineOutStep p base order a t).2.boot = a.2.boot := by
  unfold combineOutStep
  dsimp only
  split
  · rfl
  · split
    · next h => exact (combineTile_boot h :)
    · next h => exact (combineTile_boot h :)
    · next h => exact (partEnd_boot ..).trans (combineTile_boot h)

theorem combineOut_boot (s : State) (p : Part) (base : Nat) (order : List Nat) : (s.combineOut p base order).boot = s.boot := by
  rw [combineOut_eq]
  exact foldl_keeps (fun a : Bool × State => a.2.boot) (combineOutStep_boot p base order) _ _

theorem startCombine_boot (s : State) (ps : List Part) : (s.startCombine ps).boot = s.boot := by
  unfold State.startCombine
  dsimp only
  split
  · exact allEnd_boot ..
  · split
    · exact allEnd_boot ..
    · refine foldl_boot (fun s p => ?_) _ _
      rfl

/-- A member's turn in runCombine once its rows are returned: the tokens of the members before it, and the state. -/
def combineMember (order : List Nat) (a : Nat × State) (p : Part) : Nat × State :=
  let s := a.2.combineOut p a.1 order
  let j := s.joinNow p.j
  (a.1 + cTokens p.d,
    if j.isOpen && decide (j.tile = cCount p.d) && decide (j.outs.length = cTokens p.d) then s.partEnd p 0 true else s)

/-- A COMBINE goes on: its members return their rows, then each has its turn. -/
theorem runCombine_of_some {s : State} {j : Joined} {x : ExchangeRec} 
    (h : s.exchanges.find? (fun x => x.map = j.map) = some x) :
    ∃ s1 : State, s1.boot = s.boot ∧ ∀ order, s.runCombine j order = ((s1.parts j).foldl (combineMember order) (0, s1)).2 := by
  refine ⟨(s.parts j).foldl (fun s p => (s.runMember p (cCount p.d) (fun s i => s.returnTile p x i)).2) s, ?_, fun order => ?_⟩
  · refine foldl_boot (fun s p => ?_) _ _
    exact runMember_boot (fun s i => returnTile_boot s p x i) rfl
  · unfold State.runCombine
    rw [h]
    rfl

theorem runCombine_of_none {s : State} {j : Joined} (order : List Nat)
    (h : s.exchanges.find? (fun x => x.map = j.map) = none) : s.runCombine j order = s := by
  unfold State.runCombine
  rw [h]

theorem combineMember_boot (order : List Nat) (a : Nat × State) (p : Part) : (combineMember order a p).2.boot = a.2.boot := by
  unfold combineMember
  dsimp only
  split
  · exact (partEnd_boot ..).trans (combineOut_boot ..)
  · exact combineOut_boot ..

theorem runCombine_boot (s : State) (j : Joined) (order : List Nat) : (s.runCombine j order).boot = s.boot := by
  cases h : s.exchanges.find? (fun x => x.map = j.map) with
  | none => rw [runCombine_of_none order h]
  | some x =>
    obtain ⟨s1, hs1, hrun⟩ := runCombine_of_some h
    rw [hrun, ← hs1]
    exact foldl_keeps (fun a : Nat × State => a.2.boot) (combineMember_boot order) _ _

/-! ### REDUCE (R159) -/

/-- What a tile of a REDUCE makes ready and reads of its members, before any result is written. -/
theorem reduceReads_boot (s : State) (ps : List Part) (i : Nat) :
    (ps.foldl (fun (a : List (Tile × Tile × Bytes) × State) p =>
      let w := a.2.prepWrites p.q (reduceDst p i)
      let f := w.2.fetch p.q (reduceSrc p i).1 (reduceSrc p i).2
      (a.1 ++ [(w.1, f.1, f.2.1)], f.2.2)) ([], s)).2.boot = s.boot := by
  refine foldl_keeps (fun a : List (Tile × Tile × Bytes) × State => a.2.boot) (fun a p => ?_) _ _
  exact (fetch_boot rfl).trans (prepWrites_boot rfl)

theorem finderReads_boot (s : State) (ps : List Part) (i : Nat) :
    (ps.foldl (fun s p => (s.finderRead p.q (reduceSrc p i).1 (reduceSrc p i).2).dropIo p.q.who) s).boot = s.boot := by
  refine foldl_boot (fun s p => ?_) _ _
  exact (State.dropIo_boot ..).trans (finderRead_boot ..)

theorem reduceTile_boot {s : State} {ps : List Part} {i : Nat} {order : List Nat} {r : Bool × State}
    (h : s.reduceTile ps i order = r) : r.2.boot = s.boot := by
  subst h
  unfold State.reduceTile
  extract_lets reads read found whole d o res
  split
  · exact reduceReads_boot ..
  · refine (foldl_boot (fun s x => ?_) _ _).trans ((finderReads_boot ..).trans (reduceReads_boot ..))
    split
    · exact partEnd_boot ..
    · exact partEnd_boot ..
    · split
      · rfl
      · extract_lets written
        have hwritten : written.boot = s.boot := by
          refine foldl_boot (fun s w => ?_) _ _
          exact writeRange_boot ..
        split
        · exact (partEnd_boot ..).trans hwritten
        · exact hwritten

theorem runReduce_boot (n : Nat) (s : State) (j : Joined) (order : List Nat) : (State.runReduce n s j order).boot = s.boot := by
  induction n generalizing s with
  | zero => rfl
  | succ n ih =>
    unfold State.runReduce
    dsimp only
    split
    · rfl
    · split
      · rfl
      · split
        · next h => exact (ih ..).trans (reduceTile_boot h)
        · next h => exact reduceTile_boot h

/-! ### Joining and carrying out (R149 to R151) -/

theorem goOn_boot (s : State) (j : Joined) (order : List Nat) : (s.goOn j order).boot = s.boot := by
  unfold State.goOn
  split
  · refine foldl_boot (fun s p => ?_) _ _
    exact runExchange_boot ..
  · exact runCombine_boot ..
  · exact runReduce_boot ..

theorem begins_boot (s : State) (ps : List Part) (p : Part) : (s.begins ps p).boot = s.boot := by
  unfold State.begins
  split
  · exact allEnd_boot ..
  · split
    · exact startExchange_boot ..
    · exact startCombine_boot ..
    · refine foldl_boot (fun s p => ?_) _ _
      rfl

theorem fire_boot (s : State) (j : Joined) (order : List Nat) : (s.fire j order).boot = s.boot := by
  unfold State.fire
  dsimp only
  split
  · exact (closeColl_boot ..).trans (goOn_boot ..)
  · split
    · split
      · rfl
      · split
        · rfl
        · refine (closeColl_boot ..).trans ?_
          split
          · exact (goOn_boot ..).trans (begins_boot ..)
          · exact begins_boot ..
    · rfl

theorem issue_boot (s : State) (g : Nat) (d : Bytes) : (s.issue g d).boot = s.boot := by
  have hnote (s : State) (e : Group) (k : Nat × Nat × Nat) : (s.noteExchange e k d).boot = s.boot := by
    unfold State.noteExchange
    split
    · rfl
    · dsimp only
      split <;> rfl
  exact hnote ..

theorem join_boot (s : State) (g ch : Nat) (c : EngCmd) (d : Bytes) (routes : List (List (Nat × Nat × Nat))) :
    (s.join g ch c d routes).1.boot = s.boot :=
  issue_boot s g d

end Sys2Proof.Proofs
end

section
/-! PROOFS. Deterministic mode and the order of arrivals (R57, R157, R159): the ranks of a token and the members of a chunk are then taken
ascending, so that no part of a COMBINE or REDUCE reads the order that its command names. -/

namespace Sys2Proof.Proofs

open Sys2Proof Sys2Proof.Machine

/-- Two folds agree whose steps agree on what both keep. -/
theorem foldl_congr_of_keeps {α β : Type} {P : α → Prop} {f f' : α → β → α} (heq : ∀ a b, P a → f a b = f' a b)
    (hkeep : ∀ a b, P a → P (f a b)) (l : List β) {a : α} (ha : P a) : l.foldl f a = l.foldl f' a := by
  induction l generalizing a with
  | nil => rfl
  | cons b l ih => rw [List.foldl_cons, List.foldl_cons, ← heq a b ha, ih (hkeep a b ha)]

/-- The order of arrivals names no rank in deterministic mode (R157). -/
theorem rankOrder_deterministic (k : Nat) (order : List Nat) : rankOrder true k order = List.range k := rfl

/-- The order of arrivals names no member in deterministic mode (R159). -/
theorem memberOrder_deterministic (n : Nat) (order : List Nat) : memberOrder true n order = List.range n := rfl

section
variable {s : State} (o o' : List Nat) (hd : s.boot.deterministic = true)
include hd

/-! ### COMBINE (R157) -/

theorem combineTile_order (p : Part) (base t : Nat) : s.combineTile p base o t = s.combineTile p base o' t := by
  unfold State.combineTile
  dsimp only
  split
  · next h =>
    split
    · next read h' =>
      have hread : read.boot = s.boot := (fetchAll_boot h').trans (prepWrites_boot h)
      simp only [State.dropIo_boot, hread, hd, rankOrder_deterministic]
    · rfl
  · rfl

theorem combineOut_order (p : Part) (base : Nat) : s.combineOut p base o = s.combineOut p base o' := by
  rw [combineOut_eq, combineOut_eq]
  refine congrArg Prod.snd (foldl_congr_of_keeps (P := fun a : Bool × State => a.2.boot.deterministic = true)
    (fun a t ha => ?_) (fun a t ha => ?_) _ hd)
  · unfold combineOutStep
    rw [combineTile_order o o' ha]
  · rw [combineOutStep_boot, ha]

theorem runCombine_order (j : Joined) : s.runCombine j o = s.runCombine j o' := by
  cases h : s.exchanges.find? (fun x => x.map = j.map) with
  | none => rw [runCombine_of_none o h, runCombine_of_none o' h]
  | some x =>
    obtain ⟨s1, hs1, hrun⟩ := runCombine_of_some h
    rw [hrun, hrun]
    refine congrArg Prod.snd (foldl_congr_of_keeps (P := fun a : Nat × State => a.2.boot.deterministic = true)
      (fun a p ha => ?_) (fun a p ha => ?_) _ (hs1 ▸ hd))
    · unfold combineMember
      rw [combineOut_order o o' ha]
    · rw [combineMember_boot, ha]

/-! ### REDUCE (R159) -/

theorem reduceTile_order (ps : List Part) (i : Nat) : s.reduceTile ps i o = s.reduceTile ps i o' := by
  unfold State.reduceTile
  dsimp only
  rw [finderReads_boot, reduceReads_boot, hd, memberOrder_deterministic, memberOrder_deterministic]

end

theorem runReduce_order (n : Nat) {s : State} (o o' : List Nat) (hd : s.boot.deterministic = true) (j : Joined) :
    State.runReduce n s j o = State.runReduce n s j o' := by
  induction n generalizing s with
  | zero => rfl
  | succ n ih =>
    unfold State.runReduce
    dsimp only
    split
    · rfl
    · rw [reduceTile_order o o' hd]
      split
      · rfl
      · split
        · next h => exact ih (by rw [reduceTile_boot h, hd])
        · rfl

/-! ### The members that have joined (R149 to R151) -/

section
variable {s : State} (o o' : List Nat) (hd : s.boot.deterministic = true)
include hd

theorem goOn_order (j : Joined) : s.goOn j o = s.goOn j o' := by
  unfold State.goOn
  split
  · rfl
  · exact runCombine_order o o' hd j
  · exact runReduce_order _ o o' hd j

theorem fire_order (j : Joined) : s.fire j o = s.fire j o' := by
  have hbegun (ps : List Part) (p : Part) : (s.begins ps p).boot.deterministic = true := by rw [begins_boot, hd]
  unfold State.fire
  simp only [goOn_order o o' hd, goOn_order o o' (hbegun _ _)]

theorem fireAll_order (g ch : Nat) : s.fireAll g ch o = s.fireAll g ch o' :=
  foldl_congr_of_keeps (P := fun s : State => s.boot.deterministic = true) (fun _ j h => fire_order o o' h j)
    (fun s j h => by rw [fire_boot, h]) _ hd

/-- COMBINE and REDUCE read nothing from their routes: joinNext's more answers that all is there. -/
theorem joinNext_order (g : CoreId) (ch : Chan) (c : EngCmd) (e : Nat) :
    s.joinNext g ch c e (fun s => (.done, [], s)) o = s.joinNext g ch c e (fun s => (.done, [], s)) o' := by
  have hjoined (d : Bytes) : ((s.dropIo (.chan g ch)).join g ch c d []).1.boot.deterministic = true := by
    rw [join_boot, State.dropIo_boot, hd]
  unfold State.joinNext
  simp only [fire_order o o' (hjoined _)]

theorem collective_order (g : CoreId) (ch : Chan) (t : Nat) (check : Requester → EngCmd → Bytes → Nat → Nat) :
    s.collective g ch t check (fun s _ _ => (.done, [], s)) o = s.collective g ch t check (fun s _ _ => (.done, [], s)) o' := by
  unfold State.collective
  split
  · rfl
  · simp only [fireAll_order o o' hd, joinNext_order o o' hd]

end

/-- Settles O22: with the order of arrivals out of play in every tile, it is out of play in both commands. -/
theorem deterministicOrder : Obligations.DeterministicOrder := by
  intro g ch o o' s hd
  exact ⟨congrArg Host.Outcome.next (collective_order o o' hd g ch 8 s.combineCheck),
    congrArg Host.Outcome.next (collective_order o o' hd g ch 9 s.reduceCheck)⟩

end Sys2Proof.Proofs
end
section
/-! PROOFS. Steps (R254 to R258, R268, R275, R276): what STEP_BOUNDARY, the sampler rows and STEP_COMMIT do with the step in flight. -/

namespace Sys2Proof.Proofs

open Sys2Proof Sys2Proof.Machine

/-! ### STEP_BOUNDARY (R255) -/

theorem exec_stepBoundary_of_step (pages : List Nat) {s : State} (h : s.srv.step ≠ none) :
    exec (.stepBoundary pages) s = .next s := by
  simp [exec, execStepBoundary, Option.isSome_iff_ne_none, h]

theorem exec_stepBoundary_of_idle (pages : List Nat) {s : State} {i : Image} (h : s.srv.step = none)
    (hmain : s.boundary.boundaryPrograms.srv.main = some i) (hprog : s.boundary.boundaryPrograms.wholeProgram = false)
    (hstandby : s.boundary.boundaryPrograms.standbyHolds = false) (hport : s.boundary.boundaryPrograms.port.frozen = false) :
    exec (.stepBoundary pages) s =
      .next ((s.boundary.boundaryPrograms.form i pages).s.promotePages.startStep
        (s.boundary.boundaryPrograms.form i pages).batch []) := by
  simp [exec, execStepBoundary, h, hmain, hprog, hstandby, hport]

/-! ### The logits of a row (R57, R60) -/

theorem logitsOf_of_nondeterministic {s : State} (draft : Bool) (toks : List Nat) (given : Words32)
    (h : s.boot.deterministic = false) : s.logitsOf draft toks given = given := by
  simp [State.logitsOf, h]

/-- In deterministic mode the logits are those of the image and the tokens (log entry 57). -/
theorem logitsOf_of_deterministic {s : State} {draft : Bool} {i : Image} (toks : List Nat) (given : Words32)
    (h : s.boot.deterministic = true) (hi : (if draft then s.srv.draft else s.srv.main) = some i) :
    s.logitsOf draft toks given = (List.range i.vocab).map (fun t => Config.logit i.digest toks t) := by
  simp only [State.logitsOf, h, hi]

/-! ### The sampler rows (R268, R275, R276) -/

/-- The part of a sequence in a step after its draft sampler's answer: a proposal, or no more of them (R275). -/
def afterProposal (o : StepOut) : Option (Nat × Dist) → StepOut
  | some d => { o with drafts := o.drafts ++ [d] }
  | none => { o with draftsEnd := true }

/-- The part of a sequence in a step after its sampler's answer: a token, or none that the mask allows (R268). -/
def afterSample (o : StepOut) : Option Emit → StepOut
  | some e => { o with sampled := true, emits := [e] }
  | none => { o with sampled := true, maskEmpty := true }

section
variable {s : State} {slot : BitVec 15} {st : Step} {row : BatchRow} {o : StepOut} {x : Sequence}
  (hrow : s.stepRow slot.toNat = some (st, row, o)) (hseq : s.seq slot.toNat = some x) (hs : o.sampled = false)
include hrow hseq hs

theorem exec_draftSample_of_proposal (logits : Words32)
    (hok : s.rowOk (s.logitsOf true (x.history ++ o.drafts.map (·.1)) logits) = true)
    (hnan : rowNan (s.logitsOf true (x.history ++ o.drafts.map (·.1)) logits) = false)
    (hend : o.draftsEnd = false) (hroom : o.drafts.length < row.d) :
    exec (.draftSample slot logits) s = .next (s.putOut st (afterProposal o
      ((x.sampleIn (o.drafts.map (·.1))).propose (s.logitsOf true (x.history ++ o.drafts.map (·.1)) logits)
        (x.history.length + o.drafts.length)))) := by
  simp only [exec, execDraftSample, hrow, hseq, hs, hok, hnan, hend, Nat.not_le.mpr hroom, Bool.not_true, Bool.or_false,
    decide_false, Bool.false_eq_true, if_false]
  split <;> next h => simp only [h, afterProposal, hend, hs]

/-- A sampling row without drafts (R268): nothing keeps SAMPLE from its logits. -/
theorem exec_sample_of_row (logits : Words32) (hok : s.rowOk (s.logitsOf false x.history logits) = true)
    (hsamples : row.samples = true) (hd : row.d = 0) :
    exec (.sample slot logits) s = .next (s.putOut st
      (if rowNan (s.logitsOf false x.history logits) then { o with sampled := true, nan := true }
       else afterSample o ((x.sampleIn []).token (s.logitsOf false x.history logits) x.history.length))) := by
  simp only [exec, execSample, hrow, hseq, hs, hok, hsamples, hd, Bool.not_true, Bool.or_false, ne_eq, not_true, decide_false,
    Bool.false_eq_true, if_false]
  split
  · rfl
  · split <;> next h => rw [h, afterSample]

theorem exec_verifyDrafts_of_rows (given : List Words32) (hsamples : row.samples = true) (hd : 0 < row.d)
    (hend : o.draftsEnd = true ∨ o.drafts.length = row.d)
    (hlen : (s.verifyLogits x o given).length = o.drafts.length + 1) (hok : (s.verifyLogits x o given).all s.rowOk = true) :
    exec (.verifyDrafts slot given) s = .next (s.putOut st
      (if (s.verifyLogits x o given).any rowNan then { o with sampled := true, nan := true }
       else
         let v := verifyAll x.sampleIn x.history.length o.drafts (s.verifyLogits x o given) []
         { o with sampled := true, emits := v.1, maskEmpty := v.2 })) := by
  have hready : (o.draftsEnd || decide (o.drafts.length = row.d)) = true := by simpa using hend
  simp only [exec, execVerifyDrafts, hrow, hseq, hs, hsamples, Nat.ne_of_gt hd, hready, hlen, hok, Bool.not_true, Bool.or_false,
    ne_eq, not_true, decide_false, Bool.false_eq_true, if_false]
  split <;> rfl

end

/-! ### The end of a step (R256 to R258) -/

theorem raiseCores_srv (s : State) : s.raiseCores.srv = s.srv := by
  refine foldl_keeps State.srv (fun s g => ?_) _ _
  exact State.modCore_srv ..

theorem startStep_srv (s : State) {batch : List BatchRow} (rest : List (List BatchRow)) (h : batch ≠ []) :
    (s.startStep batch rest).srv = { s.srv with
      stepNo := s.srv.stepNo + 1
      step := some { number := s.srv.stepNo + 1, batch := batch, outs := [], rest := rest, rerun := false } } := by
  unfold State.startStep
  rw [if_neg (by simpa using h)]
  exact raiseCores_srv _

theorem runNext_of_stands {s : State} {b : List BatchRow} (rest : List (List BatchRow)) (h : b.filter s.rowStands ≠ []) :
    s.runNext (b :: rest) = s.startStep (b.filter s.rowStands) rest := by
  unfold State.runNext
  rw [if_neg (by simpa using h)]

/-- Rows that a split has left run after a boundary of their own (log entry 45). -/
theorem endStep_of_rows (s : State) {b : List BatchRow} (rest : List (List BatchRow)) (h : b ≠ []) :
    s.endStep (b :: rest) = ({ s with srv := { s.srv with step := none } } : State).boundary.runNext (b :: rest) := by
  simp [State.endStep, h]

/-! ### STEP_COMMIT (R255 T6, R256, R257) -/

section
variable {s : State} {st : Step} (hst : s.srv.step = some st)
include hst

theorem exec_stepCommit_of_sampled
    (h : ∀ y ∈ st.batch, y.samples = true → ∃ z ∈ st.outs, z.slot = y.slot ∧ z.sampled = true) :
    exec (.stepCommit .none) s = .next ((s.commitAll st).endStep st.rest) := by
  have hall : (st.batch.any (fun r => r.samples && !st.outs.any (fun o => o.slot = r.slot && o.sampled))) = false := by
    simpa using h
  simp [exec, execStepCommit, hst, hall]

theorem exec_stepCommit_overflow :
    exec (.stepCommit .overflow) s = .next (s.endStep ((halves st.batch).1 :: (halves st.batch).2 :: st.rest)) := by
  simp only [exec, execStepCommit, hst]

theorem exec_stepCommit_error_of_first (k : Option (BitVec 15)) (h : st.rerun = false) :
    exec (.stepCommit (.error k)) s =
      .next (State.raiseCores { s with srv := { s.srv with step := some { st with outs := [], rerun := true } } }) := by
  simp [exec, execStepCommit, hst, h]

theorem exec_stepCommit_error_of_rerun (h : st.rerun = true) :
    exec (.stepCommit (.error none)) s = .next ((st.batch.foldl (fun s r => s.failSeq r.slot 7) s).endStep st.rest) := by
  simp [exec, execStepCommit, hst, h]

/-- The first half of an overflowing batch that still has rows after the boundary is the step in flight next. -/
theorem exec_stepCommit_overflow_of_stands
    (h : (halves st.batch).1.filter ({ s with srv := { s.srv with step := none } } : State).boundary.rowStands ≠ []) :
    exec (.stepCommit .overflow) s =
      .next (({ s with srv := { s.srv with step := none } } : State).boundary.startStep
        ((halves st.batch).1.filter ({ s with srv := { s.srv with step := none } } : State).boundary.rowStands)
        ((halves st.batch).2 :: st.rest)) := by
  have hfirst : (halves st.batch).1 ≠ [] := fun h' => h (by rw [h', List.filter_nil])
  rw [exec_stepCommit_overflow hst, endStep_of_rows s _ hfirst, runNext_of_stands _ h]

end

/-- Settles O44: each clause is the rule above for its command. -/
theorem stepCommands : Obligations.StepCommands := by
  intro s slot logits st row o x i
  refine ⟨fun pages => ⟨?boundary, exec_stepBoundary_of_step pages⟩, fun hrow hseq hs => ⟨?draft, ?sample, ?verify⟩,
    fun draft toks => ⟨logitsOf_of_nondeterministic draft toks logits, logitsOf_of_deterministic toks logits⟩,
    fun hst => ⟨exec_stepCommit_of_sampled hst, ?overflow, fun k h => ?rerun, exec_stepCommit_error_of_rerun hst⟩⟩
  case boundary => exact fun h hmain hprog hstandby hport => exec_stepBoundary_of_idle pages h hmain hprog hstandby hport
  case draft => exact fun hok hnan hend hroom => exec_draftSample_of_proposal hrow hseq hs logits hok hnan hend hroom
  case sample =>
    intro lg hok hsamples hd
    have hexec := exec_sample_of_row hrow hseq hs logits hok hsamples hd
    exact ⟨fun hnan => by rw [hexec, if_neg (by simp [lg, hnan])]; rfl, fun hnan => by rw [hexec, if_pos hnan]⟩
  case verify =>
    intro given rows hsamples hd hend hlen hok
    have hexec := exec_verifyDrafts_of_rows hrow hseq hs given hsamples hd hend hlen hok
    exact ⟨fun hnan => by rw [hexec, if_neg (by simp [rows, hnan])], fun hnan => by rw [hexec, if_pos hnan]⟩
  case overflow =>
    intro u b hb
    have hsrv := startStep_srv u ((halves st.batch).2 :: st.rest) hb
    exact ⟨_, _, exec_stepCommit_overflow_of_stands hst hb, by rw [hsrv], by rw [hsrv], rfl, rfl, rfl⟩
  case rerun => exact ⟨_, exec_stepCommit_error_of_first hst k h, by rw [raiseCores_srv], by rw [raiseCores_srv]⟩

end Sys2Proof.Proofs
end

section
/-! PROOFS. Every command goes on (R83, R92, R296, R435): each meaning ends, on every path, in a next state. -/

namespace Sys2Proof.Proofs

open Sys2Proof Sys2Proof.Machine

/-- The outcome is a next state. -/
def GoesOn (o : Res) : Prop := ∃ t, o = .next t

theorem GoesOn.next (t : State) : GoesOn (.next t) := ⟨t, rfl⟩

/-! ### Courses that several commands share -/

theorem packet_goesOn (s : State) (f : FnId) (r : RingId) (q : PktSeq) (op : Nat) (sel : Pkt → Bool) (k : Pkt → State → State) :
    GoesOn (s.packet f r q op sel k) :=
  s.packet_next f r q op sel k

theorem seqPacket_goesOn (s : State) (f : FnId) (r : RingId) (q : PktSeq) (op slot : Nat) (pages : List Nat) (sel : Pkt → Bool) :
    GoesOn (s.seqPacket f r q op slot pages sel) :=
  packet_goesOn ..

theorem query_goesOn (s : State) (f : FnId) (r : RingId) (q : PktSeq) (sel : Nat) (pfOnly : Bool) (rec : State → Pkt → Bytes) :
    GoesOn (s.query f r q sel pfOnly rec) :=
  packet_goesOn ..

theorem powerHint_goesOn (s : State) (f : FnId) (r : RingId) (q : PktSeq) (kind : Nat) : GoesOn (s.powerHint f r q kind) :=
  packet_goesOn ..

theorem mirOp_goesOn (s : State) (f : FnId) (r : RingId) (q : PktSeq) (op : Nat) (k : Pkt → State → State) :
    GoesOn (s.mirOp f r q op k) :=
  packet_goesOn ..

theorem sideband_goesOn (s : State) (cmd : Nat) (tag b2 b3 : BitVec 8) (early : Bool) (k : State → Option Bytes × State) :
    GoesOn (s.sideband cmd tag b2 b3 early k) := by
  fun_cases State.sideband <;> exact .next _

theorem frame_goesOn (s : State) (h : FrameHdr) (typ : Nat) (tagOk : Bool) (k : State → Option State) :
    GoesOn (s.frame h typ tagOk k) := by
  fun_cases State.frame <;> exact .next _

theorem applied_goesOn (s : State) (h : FrameHdr) (typ : Nat) (tagOk : Bool) (k : Nat → State → Option State) :
    GoesOn (s.applied h typ tagOk k) :=
  frame_goesOn ..

theorem barrierTimeout_goesOn (g : CoreId) (s : State) : GoesOn (execBarrierTimeout g s) := by
  fun_cases execBarrierTimeout <;> exact .next _

theorem storeTimeout_goesOn (g : CoreId) (s : State) : GoesOn (execStoreTimeout g s) := by
  fun_cases execStoreTimeout
  · exact barrierTimeout_goesOn g s
  · exact .next _

/-! ### The commands -/

/-- Every command goes on. A command with branches is split along them; the cases left over are those that answer a next state at
once. -/
theorem exec_goesOn (i : Instr) (s : State) : GoesOn (exec i s) := by
  cases i <;> dsimp only [exec]
  case runProgram | cancelProgram | identify | attachContext | detachContext | loadModel | unloadModel | prefetchTranslate |
      prefetchTranslateFaults | prefetchCopy | adviseAdd | adviseRemove | adviseClear | flush | fenceRing | fenceContext |
      sealSessionInstall | sealSessionDestroy | diagnoseEcho | diagnoseNightLog =>
    exact packet_goesOn ..
  case openSequence | appendTokens | generate | cancelSequence | closeSequence | forkSequence | snapshotSequence |
      restoreSequence =>
    exact seqPacket_goesOn ..
  case querySequenceCounts | querySequences | queryFinder | queryRegulators | queryTranslationCaches | queryRingCounts =>
    exact query_goesOn ..
  case powerHintHeavy | powerHintLight | powerHintClear =>
    exact powerHint_goesOn ..
  case mirrorStatus | pair | unpair | setMode | resync | promote =>
    exact mirOp_goesOn ..
  case setCap | getStatus | readNightLog | getThermal =>
    exact sideband_goesOn ..
  case bind | ack | takeover =>
    exact frame_goesOn ..
  case commandFrame | sequenceFrame | kvFrame | samplerFrame | sessionFrame | commitFrame | resyncFrame =>
    exact applied_goesOn ..
  case barrierTimeout => exact barrierTimeout_goesOn ..
  case storeTimeout => exact storeTimeout_goesOn ..
  -- the sequencer (03, 07)
  case load => fun_cases execLoad <;> exact .next _
  case store => fun_cases execStore <;> exact .next _
  case storeBufferDrain => fun_cases execStoreBufferDrain <;> exact .next _
  case lr => fun_cases execLr <;> exact .next _
  case sc => fun_cases execSc <;> exact .next _
  case csrAccess => fun_cases execCsrAccess <;> exact .next _
  case ebreak => fun_cases execEbreak <;> exact .next _
  case rendezvousReturn => fun_cases execRendezvousReturn <;> exact .next _
  case takeInterrupt => fun_cases execTakeInterrupt <;> exact .next _
  case wcyccmpMatch => fun_cases execWcyccmpMatch <;> exact .next _
  case edisp => fun_cases execEdisp <;> exact .next _
  case commandStart => fun_cases execCommandStart <;> exact .next _
  case operandRelease => fun_cases execOperandRelease <;> exact .next _
  case commandCompletion => fun_cases execCommandCompletion <;> exact .next _
  case ewait => fun_cases execEwait <;> exact .next _
  case ewaitReturn => fun_cases execEwaitReturn <;> exact .next _
  case eqstat => fun_cases execEqstat <;> exact .next _
  case eclr => fun_cases execEclr <;> exact .next _
  case semwaitGrant => fun_cases execSemwaitGrant <;> exact .next _
  case fence => fun_cases execFence <;> exact .next _
  case fenceI => fun_cases execFenceI <;> exact .next _
  case barrierMarkerComplete => fun_cases execBarrierMarkerComplete <;> exact .next _
  -- channels and the Finder (05)
  case tileStart => fun_cases execTileStart <;> exact .next _
  case targetTimeout => fun_cases execTargetTimeout <;> exact .next _
  case collectiveTimeout => fun_cases execCollectiveTimeout <;> exact .next _
  case prefetchLevel2 => fun_cases execPrefetchLevel2 <;> exact .next _
  case prefetchLevel3 => fun_cases execPrefetchLevel3 <;> exact .next _
  case finderRankTimeout => fun_cases execFinderRankTimeout <;> exact .next _
  case finderStagingDone => fun_cases execFinderStagingDone <;> exact .next _
  -- memory and translation (06, 08)
  case ownershipEntryWrite => fun_cases execOwnershipEntryWrite <;> exact .next _
  case patrolScrub => fun_cases execPatrolScrub <;> exact .next _
  case atsCompletion => fun_cases execAtsCompletion <;> exact .next _
  case pageRequest => fun_cases execPageRequest <;> exact .next _
  case pageRequestResponse => fun_cases execPageRequestResponse <;> exact .next _
  case pageRequestOverdue => fun_cases execPageRequestOverdue <;> exact .next _
  case invalidationRequest => fun_cases execInvalidationRequest <;> exact .next _
  case invalidationCompletion => fun_cases execInvalidationCompletion <;> exact .next _
  -- coherence (12)
  case gets => fun_cases execGets <;> exact .next _
  case getm => fun_cases execGetm <;> exact .next _
  case putm => fun_cases execPutm <;> exact .next _
  case forward => fun_cases execForward <;> exact .next _
  case invalidate => fun_cases execInvalidate <;> exact .next _
  case invalidateAck => fun_cases execInvalidateAck <;> exact .next _
  case nackRetry => fun_cases execNackRetry <;> exact .next _
  case homeWaitTimeout => fun_cases execHomeWaitTimeout <;> exact .next _
  case bisnpResponse => fun_cases execBisnpResponse <;> exact .next _
  case hostCxlMemRead => fun_cases execHostCxlMemRead <;> exact .next _
  case hostCxlMemWrite => fun_cases execHostCxlMemWrite <;> exact .next _
  case hostCacheResponse => fun_cases execHostCacheResponse <;> exact .next _
  case cacheWbiDone => fun_cases execCacheWbiDone <;> exact .next _
  case carveChangeDone => fun_cases execCarveChangeDone <;> exact .next _
  -- rings and programs (10)
  case ringDrainDone => fun_cases execRingDrainDone <;> exact .next _
  case packetRead => fun_cases execPacketRead <;> exact .next _
  case phaseReread => fun_cases execPhaseReread <;> exact .next _
  case tornReread => fun_cases execTornReread <;> exact .next _
  case completionWrite => fun_cases execCompletionWrite <;> exact .next _
  case programEnd => fun_cases execProgramEnd <;> exact .next _
  -- steps and contexts (08, 09)
  case stepBoundary => fun_cases execStepBoundary <;> exact .next _
  case draftSample => fun_cases execDraftSample <;> exact .next _
  case sample => fun_cases execSample <;> exact .next _
  case verifyDrafts => fun_cases execVerifyDrafts <;> exact .next _
  case stepCommit => fun_cases execStepCommit <;> exact .next _
  case detachComplete => fun_cases execDetachComplete <;> exact .next _
  case loadModelComplete => fun_cases execLoadModelComplete <;> exact .next _
  -- the host endpoint (11)
  case hostLinkError => fun_cases execHostLinkError <;> exact .next _
  case poisonedRequest => fun_cases execPoisonedRequest <;> exact .next _
  case flrQuiesceDone => fun_cases execFlrQuiesceDone <;> exact .next _
  case vfDisable => fun_cases execVfDisable <;> exact .next _
  case hotReset => fun_cases execHotReset <;> exact .next _
  case hotResetReadiness => fun_cases execHotResetReadiness <;> exact .next _
  case linkUp => fun_cases execLinkUp <;> exact .next _
  case linkDown => fun_cases execLinkDown <;> exact .next _
  case removeReady => fun_cases execRemoveReady <;> exact .next _
  case cxlioCompletion => fun_cases execCxlioCompletion <;> exact .next _
  case completionTimeout => fun_cases execCompletionTimeout <;> exact .next _
  -- the Wicket and the fault collector (16, 17)
  case wicketOperationDone => fun_cases execWicketOperationDone <;> exact .next _
  case testTimeout => fun_cases execTestTimeout <;> exact .next _
  case faultArrival => fun_cases execFaultArrival <;> exact .next _
  case windowRoll => fun_cases execWindowRoll <;> exact .next _
  case reactionEnd => fun_cases execReactionEnd <;> exact .next _
  case reactionOverdue => fun_cases execReactionOverdue <;> exact .next _
  case alvToggle => fun_cases execAlvToggle <;> exact .next _
  case alvRefresh => fun_cases execAlvRefresh <;> exact .next _
  -- power (14)
  case railReport => fun_cases execRailReport <;> exact .next _
  case telemetryTimeout => fun_cases execTelemetryTimeout <;> exact .next _
  case sensorRead => fun_cases execSensorRead <;> exact .next _
  case thermalTrip => fun_cases execThermalTrip <;> exact .next _
  case heliostatPeriod => fun_cases execHeliostatPeriod <;> exact .next _
  case repeatableLouvreTick => fun_cases execRepeatableLouvreTick <;> exact .next _
  case dieAgentTick => fun_cases execDieAgentTick <;> exact .next _
  case voltageReached => fun_cases execVoltageReached <;> exact .next _
  case droopDetect => fun_cases execDroopDetect <;> exact .next _
  case phaseMark => fun_cases execPhaseMark <;> exact .next _
  case shutterWave => fun_cases execShutterWave <;> exact .next _
  case regFail => fun_cases execRegFail <;> exact .next _
  case refclkLoss => fun_cases execRefclkLoss <;> exact .next _
  case inputVoltageWarn => fun_cases execInputVoltageWarn <;> exact .next _
  -- bring-up (15)
  case stageB0 => fun_cases execStageB0 <;> exact .next _
  case stageB1 => fun_cases execStageB1 <;> exact .next _
  case stageB2 => fun_cases execStageB2 <;> exact .next _
  case stageB3 => fun_cases execStageB3 <;> exact .next _
  case stageB4 => fun_cases execStageB4 <;> exact .next _
  case stageB5 => fun_cases execStageB5 <;> exact .next _
  case stageB6 => fun_cases execStageB6 <;> exact .next _
  case stageBoundExpiry => fun_cases execStageBoundExpiry <;> exact .next _
  -- the Coelostat pair (17)
  case hello => fun_cases execHello <;> exact .next _
  case finish => fun_cases execFinish <;> exact .next _
  case ackTimer => fun_cases execAckTimer <;> exact .next _
  case journalResend => fun_cases execJournalResend <;> exact .next _
  case mirrorSilence => fun_cases execMirrorSilence <;> exact .next _
  case resyncComplete => fun_cases execResyncComplete <;> exact .next _
  case receiveWindowOverrun => fun_cases execReceiveWindowOverrun <;> exact .next _
  -- trust and registers (13, 18)
  case debugTokenRead => fun_cases execDebugTokenRead <;> exact .next _
  case registerReadClear => fun_cases execRegisterReadClear <;> exact .next _
  case registerWrite => fun_cases execRegisterWrite <;> exact .next _
  all_goals exact .next _

/-! ### The statement -/

/-- Settles O2: a step carries out the front command, which goes on, or idles on an empty queue. -/
theorem everyStepGoesOn : Obligations.EveryStepGoesOn := by
  intro s
  unfold Safe step
  split
  · exact ⟨s, rfl⟩
  · exact exec_goesOn ..

end Sys2Proof.Proofs
end

section
/-! PROOFS. Facts about the sequencer that the rules of its instructions share: bits of a status word (R73), what a trap leaves of a
core (R92), and what the end of a raw program keeps (R96). -/

namespace Sys2Proof.Proofs

open Sys2Proof Sys2Proof.Machine

/-! ### Bits of a word (R11) -/

theorem bit_eq_testBit (n i : Nat) : bit n i = n.testBit i := by
  rw [Nat.testBit_eq_decide_div_mod_eq, bit, Nat.shiftRight_eq_div_pow]

theorem testBit_putBits (n v i : Nat) {hi lo : Nat} (h : lo ≤ hi) :
    (putBits n hi lo v).testBit i = if i < lo ∨ hi < i then n.testBit i else v.testBit (i - lo) := by
  simp only [putBits, Nat.testBit_or, Nat.testBit_shiftLeft, Nat.testBit_mod_two_pow, Nat.testBit_shiftRight]
  rcases lt_trichotomy i lo with hl | rfl | hl
  · simp [hl, show ¬ hi + 1 ≤ i by omega, show ¬ lo ≤ i by omega]
  · simp [show ¬ hi + 1 ≤ i by omega, show ¬ hi < i by omega, show 0 < hi + 1 - i by omega]
  · by_cases hh : hi < i
    · simp [hh, show hi + 1 ≤ i by omega, show ¬ i - lo < hi + 1 - lo by omega, show ¬ i < lo by omega,
        show hi + 1 + (i - (hi + 1)) = i by omega]
    · simp [hh, show ¬ hi + 1 ≤ i by omega, show lo ≤ i by omega, show i - lo < hi + 1 - lo by omega, show ¬ i < lo by omega]

/-- A trap clears MIE. -/
theorem bit_trapStatus_mie (st : Word) (machine : Bool) : bit (trapStatus st machine).toNat 3 = false := by
  rw [trapStatus, bit_eq_testBit, BitVec.toNat_ofNat, Nat.testBit_mod_two_pow]
  simp [testBit_putBits]

/-- Interrupt 18 is pending as soon as mcycle has reached wcyccmp. -/
theorem bit_mipNow_cycles {c : Core} (h : c.wcyccmp.toNat ≤ c.mcycle.toNat) : bit c.mipNow.toNat 18 = true := by
  have hset : Nat.testBit (1 <<< 18) 18 = true := by decide
  simp only [Core.mipNow, bit_eq_testBit, BitVec.toNat_ofNat, Nat.testBit_mod_two_pow, Nat.testBit_or, h, decide_true, b2n, if_true,
    hset, Bool.or_true]
  rfl

/-! ### A core (R67, R70, R92) -/

/-- Fetching changes only the instruction cache and a counter. -/
theorem fetched_eq (c : Core) : ∃ i h, c.fetched = { c with icache := i, hpm := h } := by
  unfold Core.fetched Core.count
  split
  · exact ⟨c.icache, c.hpm, rfl⟩
  · dsimp only
    split
    · exact ⟨_, c.hpm, rfl⟩
    · exact ⟨_, _, rfl⟩

@[simp] theorem fetched_parked (c : Core) : c.fetched.parked = c.parked := by obtain ⟨i, h, e⟩ := fetched_eq c; rw [e]

@[simp] theorem fetched_machineMode (c : Core) : c.fetched.machineMode = c.machineMode := by
  obtain ⟨i, h, e⟩ := fetched_eq c; rw [e]

@[simp] theorem fetched_mtvec (c : Core) : c.fetched.mtvec = c.mtvec := by obtain ⟨i, h, e⟩ := fetched_eq c; rw [e]

@[simp] theorem fetched_wait (c : Core) : c.fetched.wait = c.wait := by obtain ⟨i, h, e⟩ := fetched_eq c; rw [e]

@[simp] theorem fetched_x (c : Core) : c.fetched.x = c.x := by obtain ⟨i, h, e⟩ := fetched_eq c; rw [e]

theorem setReg_pc (c : Core) (r : Reg) (v : Word) : (c.setReg r v).pc = c.pc := by
  unfold Core.setReg
  split <;> rfl

theorem retire_wait (c : Core) (len : Nat) : (c.retire len).wait = c.wait := fetched_wait c

theorem retire_x (c : Core) (len : Nat) : (c.retire len).x = c.x := fetched_x c

theorem reg_of_x {c d : Core} (h : c.x = d.x) (r : Reg) : c.reg r = d.reg r := by unfold Core.reg; rw [h]

/-! ### The end of a raw program (R96) -/

/-- A listed program once program p has begun to end. -/
def ended (p : Program) (e : ProgEnd) (fault : Option (Nat × Nat × Nat × Word × Word)) (x : Program) : Program :=
  if x.f = p.f && x.r = p.r && x.q = p.q && decide (x.ending = .running) then { x with ending := e, fault := fault } else x

/-- Beside the list of programs, the end of a program changes only what quieting a core and stopping a channel change. -/
theorem endProgram_keeps {γ : Type} (view : State → γ) (hquiet : ∀ s g, view (State.modCore s g quietCore) = view s)
    (hstop : ∀ s g q, view (State.stopChan s g q) = view s) (s : State) (p : Program) (e : ProgEnd)
    (fault : Option (Nat × Nat × Nat × Word × Word)) :
    view (s.endProgram p e fault) = view { s with srv := { s.srv with programs := s.srv.programs.map (ended p e fault) } } := by
  unfold State.endProgram
  dsimp only
  split
  · refine foldl_keeps view (fun t c => ?_) _ _
    refine (foldl_keeps view (fun t q => ?_) _ _).trans (hquiet t c.g)
    split
    · exact hstop t c.g q
    · rfl
  · rfl

/-- What neither quieting a core nor emptying a queue changes of a core, the end of a program does not change. -/
theorem endProgram_core {γ : Type} (view : Core → γ) (hquiet : ∀ c, view (quietCore c) = view c)
    (hqueue : ∀ c q x, view (Core.setQueue c q x) = view c) (s : State) (p : Program) (e : ProgEnd)
    (fault : Option (Nat × Nat × Nat × Word × Word)) (h : Nat) :
    view ((s.endProgram p e fault).core h) = view (s.core h) := by
  refine endProgram_keeps (fun t : State => view (t.core h)) (fun t g => ?quiet) (fun t g q => ?stop) s p e fault
  case quiet =>
    rw [State.modCore_core]
    split
    next e => rw [hquiet, e]
    · rfl
  case stop =>
    rw [State.stopChan, State.modCore_core]
    split
    next e => rw [hqueue, e]; rfl
    · rfl

theorem endProgram_mem (s : State) (p : Program) (e : ProgEnd) (fault : Option (Nat × Nat × Nat × Word × Word)) :
    (s.endProgram p e fault).mem = s.mem :=
  endProgram_keeps State.mem (fun _ _ => rfl) (fun _ _ _ => rfl) s p e fault

/-- A running program is listed with its end once it has begun to end. -/
theorem endProgram_ending {s : State} {p : Program} (hp : p ∈ s.srv.programs) (hrun : p.ending = .running) (e : ProgEnd)
    (fault : Option (Nat × Nat × Nat × Word × Word)) :
    { p with ending := e, fault := fault } ∈ (s.endProgram p e fault).srv.programs := by
  rw [endProgram_keeps (fun t => t.srv.programs) (fun _ _ => rfl) (fun _ _ _ => rfl)]
  exact List.mem_map.mpr ⟨p, hp, by simp [ended, hrun]⟩

end Sys2Proof.Proofs
end

section
/-! PROOFS. The sequencer: registers and loads (R67, R69, R203), CSR instructions and interrupts (R73, R75, R93), exceptions and the
environment calls of a raw program (R92, R95). -/

namespace Sys2Proof.Proofs

open Sys2Proof Sys2Proof.Machine

/-! ### Registers and loads (R67, R69, R203) -/

/-- Settles O4: x0 takes no write, and a write is read back at its register alone. -/
theorem registerZero : Obligations.RegisterZero := by
  intro c r r' v
  refine ⟨?zero, fun hr => ?same, fun hne => ?other, ?pc, ?finish⟩
  case zero => exact Core.reg_zero _
  case same => rw [Core.setReg_reg, if_pos ⟨rfl, hr⟩]
  case other => rw [Core.setReg_reg, if_neg (fun h => hne h.1)]
  case pc => exact setReg_pc c 0 v
  case finish => exact congrArg (· + 4) (setReg_pc c r v)

/-- How a load whose place is ready ends, by what the store buffer holds of its bytes. -/
def loadEnd (g : CoreId) (rd : Reg) (kind : LoadKind) (c : Bool) (q : Requester) (a : Word) (s : State) : Forward → Res
  | .partly => .next s
  | .all bs => .next (s.modCore g (fun x => x.finish rd (loadValue kind (leNat bs)) (instrLen c)))
  | .none =>
    match s.readRange q (s.unitCore g) a.toNat (loadBytes kind) with
    | (some bs, s) => .next ((s.dropIo q.who).modCore g (fun x => x.finish rd (loadValue kind (leNat bs)) (instrLen c)))
    | (none, s) => .next ((s.dropIo q.who).except g 5 a)

/-- Past its checks and with its place ready, a load takes what the buffer holds; a device-strict one takes nothing from it. -/
theorem exec_load_of_ready {g : CoreId} {rs1 : Reg} {imm : BitVec 12} {kind : LoadKind} {s s1 : State} {a : Word} {q : Requester}
    (rd : Reg) (c : Bool) (ha : effAddr ((s.core g).reg rs1) imm = a) (hq : s.seqReq g = q)
    (hissue : s.canIssue g = true) (hshut : s.shutOut g = false)
    (hname : s.mayName q.fw q.tag a.toNat (loadBytes kind) .read = true)
    (hstrict : s.strictRange g q.fw q.tag a.toNat (loadBytes kind) = true →
      a.toNat % loadBytes kind = 0 ∧ s.strictPending g = false)
    (hprep : s.seqPrep q a.toNat (loadBytes kind) .read = (.ready, s1)) :
    exec (.load g rd rs1 imm kind c) s = loadEnd g rd kind c q a s1
      (if s.strictRange g q.fw q.tag a.toNat (loadBytes kind) then .none
        else s1.forward g (s1.placesOf q a.toNat (loadBytes kind))) := by
  have halign : ¬ (s.strictRange g q.fw q.tag a.toNat (loadBytes kind) && decide (a.toNat % loadBytes kind ≠ 0)) = true := by
    simpa using fun h => (hstrict h).1
  have hfree : ¬ (s.strictRange g q.fw q.tag a.toNat (loadBytes kind) && s.strictPending g) = true := by
    simpa using fun h => (hstrict h).2
  subst ha hq
  unfold exec execLoad
  dsimp only
  rw [if_neg (by simp [hissue]), if_neg (by simp [hshut, hname]), if_neg halign, if_neg hfree, hprep]
  rfl

/-- Settles O5: the bytes come from the buffer where it holds them whole, and else from the place. -/
theorem loadCompletes : Obligations.LoadCompletes := by
  intro g rd rs1 imm kind c s s1 s2 bs a n q held hissue hshut hname hstrict hprep
  have hload : exec (.load g rd rs1 imm kind c) s = loadEnd g rd kind c q a s1 held :=
    exec_load_of_ready rd c rfl rfl hissue hshut hname hstrict hprep
  refine ⟨fun hheld => ?buffered, fun hheld hread => ?read⟩
  case buffered => rw [hload, hheld]; rfl
  case read =>
    rw [hload, hheld, loadEnd]
    simp only [n] at hread
    rw [hread]

/-! ### CSR instructions (R67, R73, R75, R92) -/

section

variable {g : CoreId} {s : State} (hissue : s.canIssue g = true)

include hissue

/-- A CSR instruction that is allowed and names a register writes it by its operation and answers what it held. -/
theorem exec_csrAccess_of_some {csr : BitVec 12} {op : CsrOp} (useImm : Bool) (rd : Reg) {rs1 : Reg} {old : Word}
    (hmay : (s.core g).mayCsr csr.toNat = true)
    (hrw : ((decide (op = .rw) || decide (rs1 ≠ 0)) && decide (bits csr.toNat 11 10 = 3)) = false)
    (hold : s.csr g csr.toNat = some old) :
    exec (.csrAccess g csr op useImm rd rs1) s = .next (s.modCore g (fun c =>
      if decide (op = .rw) || decide (rs1 ≠ 0) then
        (c.finish rd old 4).csrWrite csr.toNat (csrValue op old (if useImm then rs1.zeroExtend 64 else (s.core g).reg rs1))
      else c.finish rd old 4)) := by
  unfold exec execCsrAccess
  dsimp only
  rw [if_neg (by simp [hissue]), if_neg (by rw [hmay, hrw]; decide), hold]

/-- Any other CSR instruction is illegal. -/
theorem exec_csrAccess_of_illegal {csr : BitVec 12} {op : CsrOp} (useImm : Bool) (rd : Reg) {rs1 : Reg}
    (h : (s.core g).mayCsr csr.toNat = false ∨
      ((decide (op = .rw) || decide (rs1 ≠ 0)) && decide (bits csr.toNat 11 10 = 3)) = true ∨ s.csr g csr.toNat = none) :
    exec (.csrAccess g csr op useImm rd rs1) s = .next (s.except g 2 (wordI opSystem (csrF3 op useImm) csr rs1 rd)) := by
  unfold exec execCsrAccess
  dsimp only
  rw [if_neg (by simp [hissue])]
  rcases h with hmay | hrw | hnone
  · rw [if_pos (by rw [hmay]; rfl)]
  · rw [if_pos (by rw [hrw, Bool.or_true])]
  · rw [hnone]; exact ite_self _

end

/-! ### Interrupts (R75, R93, R96) -/

/-- Of the order of R93 the first interrupt that is pending and enabled is taken. -/
theorem interrupt_of_first {c : Core} {i : Nat} {before after : List Nat} (horder : interruptOrder = before ++ i :: after)
    (hmode : c.machineMode = false ∨ bit c.mstatus.toNat 3 = true)
    (hi : (bit c.mipNow.toNat i && bit c.mie.toNat i) = true)
    (hbefore : ∀ j ∈ before, (bit c.mipNow.toNat j && bit c.mie.toNat j) = false) : c.interrupt = some i := by
  unfold Core.interrupt
  rw [if_neg (by rcases hmode with h | h <;> simp [h])]
  exact List.find?_eq_some_iff_append.mpr ⟨hi, before, after, horder, fun j hj => by rw [hbefore j hj]; rfl⟩

/-- The core after an interrupt is the trapped core, but for a message that was taken with it. -/
theorem exec_takeInterrupt_of_some {g : CoreId} {s : State} {i : Nat} (hup : s.coreUp g = true)
    (hparked : (s.core g).parked = false) (hwait : (s.core g).wait.breaks = true) (hi : (s.core g).interrupt = some i) :
    ∃ m, exec (.takeInterrupt g) s =
      .next (s.setCore g { (s.core g).trap true i (s.core g).pc 0 with mip := m }) := by
  unfold exec execTakeInterrupt
  dsimp only
  rw [if_neg (by simp [hup, hparked, hwait]), hi]
  dsimp only [State.modCore]
  split
  · exact ⟨_, rfl⟩
  · exact ⟨((s.core g).trap true i (s.core g).pc 0).mip, rfl⟩

/-- A core whose mcycle has reached wcyccmp. -/
def cyclesReached (c : Core) : Core := { c with mcycle := BitVec.ofNat 64 (max c.mcycle.toNat c.wcyccmp.toNat) }

theorem cyclesReached_mcycle (c : Core) : (cyclesReached c).mcycle.toNat = max c.mcycle.toNat c.wcyccmp.toNat := by
  rw [cyclesReached, BitVec.toNat_ofNat, Nat.mod_eq_of_lt (max_lt c.mcycle.isLt c.wcyccmp.isLt)]

/-- WCYCCMP_MATCH brings mcycle to wcyccmp, and ends a raw program that has a time limit. -/
theorem exec_wcyccmpMatch {g : CoreId} {s : State} (hup : s.coreUp g = true)
    (hcount : bit (s.core g).mcountinhibit.toNat 0 = false) :
    ∃ t, exec (.wcyccmpMatch g) s = .next t ∧
      ((t = s.modCore g cyclesReached ∧ ∀ p, s.programOf g = some p → p.limit = 0) ∨
        ∃ p, s.programOf g = some p ∧ t = (s.modCore g cyclesReached).endProgram p .aborted none) := by
  unfold exec execWcyccmpMatch
  dsimp only
  rw [if_neg (by simp [hup, hcount])]
  cases hp : s.programOf g with
  | none => exact ⟨_, rfl, .inl ⟨rfl, fun p h => nomatch h⟩⟩
  | some p =>
    refine ⟨_, rfl, ?_⟩
    by_cases hl : p.limit = 0
    · exact .inl ⟨if_pos hl, fun q h => Option.some.inj h ▸ hl⟩
    · exact .inr ⟨p, rfl, if_neg hl⟩

/-- The raw program that holds a core is listed and runs. -/
theorem programOf_running {s : State} {g : Nat} {p : Program} (h : s.programOf g = some p) :
    p ∈ s.srv.programs ∧ p.ending = .running := by
  have hp := List.find?_some h
  simp only [Bool.and_eq_true, decide_eq_true_eq] at hp
  exact ⟨List.mem_of_find?_eq_some h, hp.1.2⟩

/-- Settles O8: the rules of CSR_ACCESS, TAKE_INTERRUPT and WCYCCMP_MATCH. -/
theorem csrAccessAndInterrupts : Obligations.CsrAccessAndInterrupts := by
  refine ⟨fun g csr op useImm rd rs1 s => ?csr, fun g s hup => ⟨?interrupt, ?cycles⟩⟩
  case csr =>
    intro c src writes readOnly hissue
    exact ⟨fun old => exec_csrAccess_of_some hissue useImm rd, exec_csrAccess_of_illegal hissue useImm rd⟩
  case interrupt =>
    intro i before after horder hparked hwait hmode hpending henabled hbefore
    have hi := interrupt_of_first horder hmode (by rw [hpending, henabled]; rfl) hbefore
    obtain ⟨m, hexec⟩ := exec_takeInterrupt_of_some hup hparked hwait hi
    refine ⟨_, hexec, ?_⟩
    rw [State.setCore_core_self]
    exact ⟨rfl, congrArg (BitVec.ofNat 64) (Nat.add_comm i (2 ^ 63)), rfl, rfl, bit_trapStatus_mie _ _, rfl, rfl, rfl⟩
  case cycles =>
    intro hcount
    obtain ⟨t, hexec, ht⟩ := exec_wcyccmpMatch hup hcount
    have hview {γ : Type} (view : Core → γ) (hquiet : ∀ c, view (quietCore c) = view c)
        (hqueue : ∀ c q x, view (Core.setQueue c q x) = view c) : view (t.core g) = view (cyclesReached (s.core g)) := by
      rcases ht with ⟨rfl, -⟩ | ⟨p, -, rfl⟩
      · rw [State.modCore_core_self]
      · rw [endProgram_core view hquiet hqueue, State.modCore_core_self]
    refine ⟨t, hexec, ?pending, ?mcycle, hview Core.x (fun _ => rfl) (fun _ _ _ => rfl),
      hview Core.pc (fun _ => rfl) (fun _ _ _ => rfl), ?mem, ?ends⟩
    case pending =>
      rw [hview Core.mipNow (fun _ => rfl) (fun _ _ _ => rfl)]
      exact bit_mipNow_cycles (by rw [cyclesReached_mcycle]; exact le_max_right _ _)
    case mcycle => rw [hview Core.mcycle (fun _ => rfl) (fun _ _ _ => rfl), cyclesReached_mcycle]
    case mem =>
      rcases ht with ⟨rfl, -⟩ | ⟨p, -, rfl⟩
      · rfl
      · exact endProgram_mem ..
    case ends =>
      intro p hp hlimit
      rcases ht with ⟨-, hnone⟩ | ⟨p', hp', rfl⟩
      · exact absurd (hnone p hp) hlimit
      · obtain rfl : p' = p := Option.some.inj (hp'.symm.trans hp)
        obtain ⟨hmem, hrun⟩ := programOf_running hp
        exact ⟨_, endProgram_ending (s := s.modCore g cyclesReached) hmem hrun .aborted none, rfl, rfl, rfl, rfl⟩

/-! ### Exceptions and environment calls (R92, R95) -/

theorem programFault_of_none {s : State} {g : Nat} (h : s.programOf g = none) (queue code : Nat) (cause tval : Word) :
    s.programFault g queue code cause tval = s := by
  unfold State.programFault
  rw [h]

/-- An exception that ends no raw program traps the core that fetched its instruction. -/
theorem except_core {s : State} {g : Nat} (cause : Nat) (tval : Word)
    (hmode : (s.core g).machineMode = true ∨ s.programOf g = none) (hparked : (s.core g).parked = false) :
    (s.except g cause tval).core g = (s.core g).fetched.trap false cause (s.core g).pc tval ∧
      (s.except g cause tval).mem = s.mem := by
  unfold State.except State.exceptAt
  dsimp only
  rw [State.modCore_core_self, if_neg (by simp [hparked])]
  by_cases hm : (s.core g).machineMode = true
  · rw [if_pos (by simp [hm])]
    exact ⟨by simp, rfl⟩
  · rw [if_neg (by simpa using hm), programFault_of_none (by exact hmode.resolve_left hm)]
    exact ⟨by simp, rfl⟩

/-- An environment call of a raw program is served. -/
theorem ecall_of_program {s : State} {g : Nat} {mine : Nat → Bool} (act : State) (hissue : s.canIssue g = true)
    (hmode : (s.core g).machineMode = false) (hprog : (s.progCore g).isSome = true) (hmine : mine (s.core g).a7 = true) :
    s.ecall g mine act = act := by
  unfold State.ecall
  dsimp only
  rw [if_neg (by simp [hissue, hmine]), if_neg (by simp [hmode]), if_pos hprog]

/-- RENDEZVOUS returns once every core of the set has made the call. -/
theorem exec_rendezvousReturn_of_met {g : CoreId} {s : State} {p : Program} {k : Nat} (hwait : (s.core g).wait = .rendezvous k)
    (hp : s.programOf g = some p) (hmet : p.met k = true) (hup : s.coreUp g = true) (hparked : (s.core g).parked = false) :
    exec (.rendezvousReturn g) s = .next (s.modCore g (fun c =>
      let r := { c with wait := .none, mepc := c.mepc + 4 }.trapReturn
      { r with minstret := if bit r.mcountinhibit.toNat 2 then r.minstret else r.minstret + 1 })) := by
  unfold exec execRendezvousReturn
  dsimp only
  rw [hwait, hp]
  dsimp only
  rw [if_pos (by simp [hmet, hup, hparked])]

/-- Settles O9: the trap of an exception, and the environment calls that firmware serves. -/
theorem exceptionsAndEnvironmentCalls : Obligations.ExceptionsAndEnvironmentCalls := by
  refine ⟨fun g c s hissue => ⟨?ebreak, fun cause tval _ hmode hparked => ?trap⟩,
    fun g s p hissue hmode hp hprog => ?calls⟩
  case ebreak =>
    unfold exec execEbreak
    dsimp only
    rw [if_neg (by simp [hissue])]
  case trap =>
    intro t
    obtain ⟨hcore, hmem⟩ := except_core cause tval hmode hparked
    rw [hcore]
    exact ⟨rfl, rfl, rfl, rfl, bit_trapStatus_mie _ _, by simp [Core.trap, trapPc], hmem⟩
  case calls =>
    intro k
    have hserve {mine : Nat → Bool} (act : State) (hmine : mine (s.core g).a7 = true) : s.ecall g mine act = act :=
      ecall_of_program act hissue hmode hprog hmine
    refine ⟨fun hf => ?exit, fun hf => congrArg _ (hserve _ (by simp [hf])), fun hf => congrArg _ (hserve _ (by simp [hf])),
      fun hf => congrArg _ (hserve _ (by simp [hf])), fun s' p' k' => exec_rendezvousReturn_of_met⟩
    rw [exec, execExit, hserve _ (by simp [hf]), hp]

end Sys2Proof.Proofs
end

section
/-! PROOFS. Dispatch and the engine queues (R76 to R85), engine control (R82, R84), semaphores (R85 to R88) and FENCE (R71). -/

namespace Sys2Proof.Proofs

open Sys2Proof Sys2Proof.Machine

/-! ### EDISP (R76 to R81) -/

/-- A rs1 value that is not at fault lies in core SRAM and is aligned. -/
theorem inSram_of_not_badCommand {s : State} {g q : Nat} {a : Word} (h : s.badCommand g q a = false) :
    (decide (2 ^ 20 ≤ a.toNat) || decide (a.toNat % (if q < 2 then 32 else 64) ≠ 0)) = false :=
  (Bool.or_eq_false_iff.mp h).1

/-- The channel that EDISP translates ahead for is that of its queue. -/
theorem chan_of_queue {q : Nat} {ch : Chan} (h : q = 2 + ch.val) : (⟨(q - 2) % 2, Nat.mod_lt _ (by decide)⟩ : Chan) = ch :=
  Fin.ext (by have := ch.isLt; simp only; omega)

section

variable {g : CoreId} {f7 : BitVec 7} {f3 : BitVec 3} {rs2 rs1 rd : Reg} {s : State}

/-- The command that EDISP copies from core SRAM (R77, R80). -/
def dispatched (s : State) (g q : Nat) (a sync : Word) : EngCmd :=
  { ticket := nextTicket ((s.core g).queue q).issued, bytes := s.mem.read (coreSramPa g a.toNat) (s.commandBytes g q a.toNat),
    sync := sync, user := !(s.core g).machineMode, wctx := (s.core g).wctx, phase := .queued, desc := 0, tile := 0,
    checked := false, joined := false }

/-- The core that has queued a command and gone on. -/
def queueUp (q : Nat) (cmd : EngCmd) (rd : Reg) (c : Core) : Core :=
  (c.setQueue q { c.queue q with items := (c.queue q).items ++ [.cmd cmd], issued := cmd.ticket }).finish rd
    (cmd.ticket.zeroExtend 64) 4

/-- A reserved number is an illegal instruction. -/
theorem exec_edisp_of_reserved (hissue : s.canIssue g = true) (h : 4 ≤ f3.toNat ∨ f7.toNat / 2 ≠ 0) :
    exec (.edisp g f7 f3 rs2 rs1 rd) s = .next (s.except g 2 (wordR opDispatch f7.toNat f3.toNat rs2 rs1 rd)) := by
  unfold exec execEdisp
  dsimp only
  rw [if_neg (by simp [hissue]), if_pos (by simpa using h)]

variable (hissue : s.canIssue g = true) (hq : f3.toNat < 4) (hf7 : f7.toNat / 2 = 0)
  (hbad : s.badCommand g f3.toNat ((s.core g).reg rs1) = false) (hsram : (s.core g).sramPerformed = true)
  (hpoison : s.mem.poisoned (coreSramPa g ((s.core g).reg rs1).toNat)
    (s.commandBytes g f3.toNat ((s.core g).reg rs1).toNat) = false)
  (hsync : syncBad ((s.core g).reg rs2) = false)

include hissue hq hf7 hbad hsram hpoison hsync

/-- A dispatch without a fault: 0 from a halted queue, else the command is queued, or with a full queue 0 or a wait. -/
theorem exec_edisp :
    exec (.edisp g f7 f3 rs2 rs1 rd) s =
      let cmd := dispatched s g f3.toNat ((s.core g).reg rs1) ((s.core g).reg rs2)
      let t := s.modCore g (queueUp f3.toNat cmd rd)
      if (s.core g).halted f3.toNat then .next (s.modCore g (fun c => c.finish rd 0 4))
      else if ((s.core g).queue f3.toNat).used f3.toNat + cmd.entries f3.toNat ≤ queueDepth f3.toNat then
        .next (if f3.toNat < 2 then t else t.aheadQueued g ⟨(f3.toNat - 2) % 2, Nat.mod_lt _ (by decide)⟩ cmd)
      else if f7.toNat % 2 = 1 then .next (s.modCore g (fun c => c.finish rd 0 4))
      else .next s := by
  unfold exec execEdisp
  dsimp only
  rw [if_neg (by simp [hissue]), if_neg (by simp [hf7, hq]), if_neg (ne_true_of_eq_false (inSram_of_not_badCommand hbad)),
    if_neg (by simp [hsram]), if_neg (by simp [hbad]), if_neg (by simp [hpoison]), if_neg (by simp [hsync])]
  rfl

theorem exec_edisp_of_halted (hhalt : (s.core g).halted f3.toNat = true) :
    exec (.edisp g f7 f3 rs2 rs1 rd) s = .next (s.modCore g (fun c => c.finish rd 0 4)) :=
  (exec_edisp hissue hq hf7 hbad hsram hpoison hsync).trans (if_pos hhalt)

theorem exec_edisp_of_room (hrun : (s.core g).halted f3.toNat = false)
    (hroom : ((s.core g).queue f3.toNat).used f3.toNat +
      (dispatched s g f3.toNat ((s.core g).reg rs1) ((s.core g).reg rs2)).entries f3.toNat ≤ queueDepth f3.toNat) :
    exec (.edisp g f7 f3 rs2 rs1 rd) s =
      let cmd := dispatched s g f3.toNat ((s.core g).reg rs1) ((s.core g).reg rs2)
      let t := s.modCore g (queueUp f3.toNat cmd rd)
      .next (if f3.toNat < 2 then t else t.aheadQueued g ⟨(f3.toNat - 2) % 2, Nat.mod_lt _ (by decide)⟩ cmd) := by
  rw [exec_edisp hissue hq hf7 hbad hsram hpoison hsync]
  dsimp only
  rw [if_neg (ne_true_of_eq_false hrun), if_pos hroom]

theorem exec_edisp_of_full (hrun : (s.core g).halted f3.toNat = false)
    (hfull : queueDepth f3.toNat < ((s.core g).queue f3.toNat).used f3.toNat +
      (dispatched s g f3.toNat ((s.core g).reg rs1) ((s.core g).reg rs2)).entries f3.toNat) (hnb : f7.toNat % 2 = 1) :
    exec (.edisp g f7 f3 rs2 rs1 rd) s = .next (s.modCore g (fun c => c.finish rd 0 4)) := by
  rw [exec_edisp hissue hq hf7 hbad hsram hpoison hsync]
  dsimp only
  rw [if_neg (ne_true_of_eq_false hrun), if_neg (Nat.not_le.mpr hfull), if_pos hnb]

end

/-! ### The head of a queue (R79, R80, R83, R85) -/

section

variable {g : CoreId} {q : QueueId} {s : State} {cmd : EngCmd} (hhead : s.head g q.val = some cmd) (hup : s.coreUp g = true)
  (hrun : (s.core g).halted q.val = false)

include hhead hup hrun

/-- A head that does not wait on a semaphore starts. -/
theorem exec_commandStart_of_free (hphase : cmd.phase = .queued) (hwait : syncWaitEn cmd.sync = false) :
    exec (.commandStart g q) s = .next (s.startCmd g q.val (s.core g) cmd) := by
  unfold exec execCommandStart
  dsimp only
  rw [hhead]
  dsimp only
  rw [if_neg (by simp [hup, hrun, hphase]), if_pos (by simp [hwait])]

/-- A head that waits on a semaphore starts when it is first in line and the value suffices. -/
theorem exec_commandStart_of_waits (hphase : cmd.phase = .queued ∨ cmd.phase = .waiting) (hwait : syncWaitEn cmd.sync = true) :
    exec (.commandStart g q) s =
      let b := (s.core g).beginWait q.val cmd
      .next (if b.firstWaiter (syncWaitSem cmd.sync) (q.val + 1) ∧ syncWaitCount cmd.sync ≤ b.sem (syncWaitSem cmd.sync) then
          s.startCmd g q.val b cmd
        else s.setCore g b) := by
  have hready : ¬ (!s.coreUp g || (s.core g).halted q.val || decide (cmd.phase ≠ .queued ∧ cmd.phase ≠ .waiting)) = true := by
    rcases hphase with h | h <;> simp [hup, hrun, h]
  unfold exec execCommandStart
  dsimp only
  rw [hhead]
  dsimp only
  rw [if_neg hready, if_neg (by simp [hwait])]
  simp only [Bool.and_eq_true, decide_eq_true_eq]
  split <;> rfl

/-- A finished head releases its operands, and signals here where SIG_ON says so. -/
theorem exec_operandRelease_of_finished (hphase : cmd.phase = .finished) :
    exec (.operandRelease g q) s =
      let t := s.setHead g q.val { cmd with phase := .released }
      .next (if syncSigOn cmd.sync then t.signalOf g cmd else t) := by
  unfold exec execOperandRelease
  dsimp only
  rw [hhead]
  dsimp only
  rw [if_pos (by simp [hup, hrun, hphase])]

/-- A finished or released head completes, and signals here unless it did so at its release. -/
theorem exec_commandCompletion_of_done (hphase : cmd.phase = .finished ∨ cmd.phase = .released) :
    exec (.commandCompletion g q) s =
      let t := s.modCore g (fun c => c.setQueue q.val ((c.queue q.val).complete cmd))
      .next (if syncSigOn cmd.sync = false ∨ cmd.phase = .finished then t.signalOf g cmd else t) := by
  unfold exec execCommandCompletion
  dsimp only
  rw [hhead]
  dsimp only
  rw [if_pos (by simpa [hup, hrun] using hphase)]
  simp only [Bool.or_eq_true, Bool.not_eq_true', decide_eq_true_eq]

end

/-- What a command that starts does next: nothing with a reserved opcode, and the next tiles of a DMA channel are translated. -/
theorem startCmd_eq (s : State) (g : CoreId) (q : QueueId) (c : Core) (cmd : EngCmd) :
    s.startCmd g q.val c cmd =
      let t := s.setCore g (c.start q.val cmd)
      if reservedOp q.val cmd.bytes then t.halt g q.val 1 cmd.ticket
      else if q.val = 2 then t.ahead g 0 else if q.val = 3 then t.ahead g 1 else t := by
  match q with
  | 0 | 1 | 2 | 3 => rfl

/-- Settles O10: the rules of EDISP and of the head of a queue. -/
theorem queuesDispatchAndProgress : Obligations.QueuesDispatchAndProgress := by
  refine ⟨fun g f7 f3 rs2 rs1 rd s => ?dispatch, fun g q s cmd hhead hup hrun => ?progress⟩
  case dispatch =>
    intro c a q n t cmd queued hissue
    refine ⟨exec_edisp_of_reserved hissue, fun hq hf7 hbad hsram hpoison hsync => ?_⟩
    refine ⟨exec_edisp_of_halted hissue hq hf7 hbad hsram hpoison hsync,
      fun hrun hroom => ?room, exec_edisp_of_full hissue hq hf7 hbad hsram hpoison hsync⟩
    have hexec := exec_edisp_of_room (rd := rd) hissue hq hf7 hbad hsram hpoison hsync hrun hroom
    refine ⟨fun hengine => hexec.trans (congrArg _ (if_pos hengine)), fun ch hch => hexec.trans (congrArg _ ?channel)⟩
    rw [if_neg (by omega), chan_of_queue hch]
    rfl
  case progress =>
    intro begun
    have hbegun (c : Core) : s.startCmd g q.val c cmd = begun c := startCmd_eq s g q c cmd
    refine ⟨fun hphase hwait => ?free, fun hphase hwait => ?waits, exec_operandRelease_of_finished hhead hup hrun,
      exec_commandCompletion_of_done hhead hup hrun⟩
    case free => rw [exec_commandStart_of_free hhead hup hrun hphase hwait, hbegun]
    case waits =>
      rw [exec_commandStart_of_waits hhead hup hrun hphase hwait]
      dsimp only
      rw [hbegun]

/-! ### Engine control (R82, R84) -/

/-- Settles O11: each instruction by the branches of its definition. -/
theorem engineControl : Obligations.EngineControl := by
  intro g imm rs1 rd s
  refine ⟨fun hissue himm => ?wait, fun t hwait hup hdone => ?returns, fun hissue himm => ⟨?status, fun hh => ?clears, fun hh => ?runs⟩⟩
  case wait =>
    intro t
    unfold exec execEwait
    dsimp only
    rw [if_neg (by simp [hissue]), if_neg (by omega)]
    by_cases hdone : (s.core g).ewaitDone imm t
    · rw [if_pos hdone]; simp only [hdone, if_true]
    · rw [if_neg hdone]; simp only [hdone]; rfl
  case returns =>
    unfold exec execEwaitReturn
    dsimp only
    rw [hwait]
    dsimp only
    rw [if_pos (by simp [hup, hdone])]
  case status =>
    unfold exec execEqstat
    dsimp only
    rw [if_neg (by simp [hissue]), if_neg (by simp [himm])]
  case clears =>
    unfold exec execEclr
    dsimp only
    rw [if_neg (by simp [hissue]), if_neg (by simp [himm]), if_pos hh]
  case runs =>
    unfold exec execEclr
    dsimp only
    rw [if_neg (by simp [hissue]), if_neg (by simp [himm]), if_neg (by simp [hh])]

/-! ### Semaphores (R85 to R88) -/

/-- A semaphore instruction that is not illegal acts. -/
theorem semInstr_of_legal {s : State} {g : Nat} (f3 : Nat) {imm : BitVec 12} (rs1 rd : Reg) {bad : Bool} (act : Nat → State)
    (hissue : s.canIssue g = true) (himm : imm.toNat < 64) (hbad : bad = false) :
    s.semInstr g f3 imm rs1 rd bad act = act imm.toNat := by
  unfold State.semInstr
  rw [if_neg (by simp [hissue]), if_neg (by simp [himm, hbad])]

/-- The first in line on a semaphore, a sequencer, is granted once the value suffices. -/
theorem exec_semwaitGrant_of_seq {g : CoreId} {m : Fin 64} {s : State} {a j : Nat} {rd : Reg} (hup : s.coreUp g = true)
    (hfirst : (s.core g).semWaits.find? (fun w => w.1 = m.val) = some (a, 0)) (hwait : (s.core g).wait = .sem m j rd)
    (hj : j ≤ (s.core g).sem m) : exec (.semwaitGrant g m) s = .next (s.modCore g (fun x => x.grantSeq m j rd)) := by
  unfold exec execSemwaitGrant
  dsimp only
  rw [if_neg (by simp [hup]), hfirst]
  dsimp only
  rw [hwait]
  dsimp only
  rw [if_pos hj]

/-- Settles O12: each instruction by the branches of its definition. -/
theorem semaphoreInstrs : Obligations.SemaphoreInstrs := by
  intro g imm rs1 rd s himm c n k
  refine ⟨fun hissue => ⟨fun hsram => ⟨?semsig, ?semset⟩, ?semwait, ?semtry, ?semrd⟩,
    fun m j a hup hfirst hwait hj => exec_semwaitGrant_of_seq hup hfirst hwait hj⟩
  case semsig =>
    refine congrArg _ ((semInstr_of_legal 0 rs1 rd _ hissue himm rfl).trans ?_)
    exact if_neg (by simpa using hsram)
  case semset =>
    refine congrArg _ ((semInstr_of_legal 4 rs1 0 _ hissue himm rfl).trans ?_)
    exact if_neg (by simpa using hsram)
  case semwait =>
    refine congrArg _ ((semInstr_of_legal 1 rs1 rd _ hissue himm rfl).trans ?_)
    simp only [State.modCore, apply_ite (s.setCore g), Bool.and_eq_true, Bool.not_eq_true', decide_eq_true_eq]
    rfl
  case semtry =>
    refine congrArg _ ((semInstr_of_legal 2 rs1 rd _ hissue himm rfl).trans ?_)
    simp only [State.modCore, apply_ite (s.setCore g), Bool.and_eq_true, Bool.not_eq_true', decide_eq_true_eq, and_assoc]
    rfl
  case semrd => exact congrArg _ (semInstr_of_legal 3 0 rd _ hissue himm rfl)

/-! ### FENCE (R71) -/

/-- FENCE is FBAR with bit 0 of the mask alone. -/
theorem exec_fence_eq_fbar (g : CoreId) (fm pred succ : BitVec 4) (s : State) :
    exec (.fence g fm pred succ) s = exec (.fbar g 1 0 0) s := by
  unfold exec execFence execFbar State.barrierInstr
  dsimp only
  split
  · rfl
  · rfl

/-- The barrier of a FENCE: its marker stands in no queue. -/
def fenceBarrier (c : Core) : Barrier := { id := c.nextBarrier, kind := .full, mask := 1 }

/-- The core whose sequencer waits at the barrier of a FENCE. -/
def atFence (c : Core) : Core :=
  { c with nextBarrier := c.nextBarrier + 1, wait := .barrier (fenceBarrier c).id, barriers := c.barriers ++ [fenceBarrier c] }

/-- The mask of a FENCE names no queue, so that its barrier is placed at the sequencer alone. -/
theorem placeBarrier_fence (s : State) (g : Nat) :
    s.placeBarrier g .full 1 = s.setCore g (if (atFence (s.core g)).barrierDone (fenceBarrier (s.core g)) then
      (atFence (s.core g)).passBarrier (fenceBarrier (s.core g)) else atFence (s.core g)) := rfl

/-- The barrier of a FENCE waits for the buffered stores alone. -/
theorem barrierDone_fence (c : Core) : (atFence c).barrierDone (fenceBarrier c) = c.sb.isEmpty := by
  have hqueues : maskQueues 1 = [] := rfl
  have hseq : bit (1 : BitVec 4).toNat 0 = true := rfl
  simp only [Core.barrierDone, fenceBarrier, hqueues, hseq, List.all_nil, reduceCtorEq, decide_false, Bool.true_and, Bool.false_or,
    Bool.not_true, Bool.and_true, atFence]

theorem exec_fence {g : CoreId} {s : State} (fm pred succ : BitVec 4) (hissue : s.canIssue g = true) :
    exec (.fence g fm pred succ) s = .next (s.setCore g
      (if (s.core g).sb.isEmpty then (atFence (s.core g)).passBarrier (fenceBarrier (s.core g)) else atFence (s.core g))) := by
  unfold exec execFence
  dsimp only
  rw [if_neg (by simp [hissue]), placeBarrier_fence, barrierDone_fence]

/-- The sequencer goes on past the barrier that it waits at. -/
theorem passBarrier_of_wait {c : Core} {b : Barrier} (h : c.wait = .barrier b.id) :
    (c.passBarrier b).pc = c.pc + 4 ∧ (c.passBarrier b).wait = .none ∧ (c.passBarrier b).x = c.x := by
  unfold Core.passBarrier
  dsimp only
  rw [if_pos h]
  exact ⟨rfl, retire_wait _ _, retire_x _ _⟩

/-- Settles O13: with no store buffered the barrier completes as it is placed, and else the sequencer waits at it. -/
theorem fenceActsAsBarrier : Obligations.FenceActsAsBarrier := by
  intro g fm pred succ s
  refine ⟨exec_fence_eq_fbar g fm pred succ s, fun hissue => ?_⟩
  intro b
  refine ⟨fun hempty => ?goesOn, fun hstores => ?waits⟩
  case goesOn =>
    obtain ⟨hpc, hwait, hx⟩ := passBarrier_of_wait (c := atFence (s.core g)) (b := fenceBarrier (s.core g)) rfl
    refine ⟨_, exec_fence fm pred succ hissue, ?_⟩
    rw [State.setCore_core_self, hempty]
    exact ⟨hpc, hwait, fun x => reg_of_x hx x, rfl⟩
  case waits =>
    rw [exec_fence fm pred succ hissue, if_neg (by simpa using hstores)]
    rfl

end Sys2Proof.Proofs
end

section
/-! PROOFS. Started matrix and vector commands (R83, R104 to R123): each runs by the common course of an engine command. -/

namespace Sys2Proof.Proofs

open Sys2Proof Sys2Proof.Machine

section

variable {s : State} {g q op : Nat} {cmd : EngCmd} {check : EngCmd → Nat} {run : EngCmd → State → Nat × State}
  (hhead : s.head g q = some cmd) (hphase : cmd.phase = .started) (hup : s.coreUp g = true) (hrun : (s.core g).halted q = false)
  (hop : cmdByte cmd.bytes 0 = op)

include hhead hphase hup hrun hop

/-- A started command is checked; one that passes runs. -/
theorem engine_of_started :
    s.engine g q op check run =
      if check cmd ≠ 0 then s.halt g q (check cmd) cmd.ticket
      else if (run cmd s).1 = 0 then (run cmd s).2.setHead g q { cmd with phase := .finished }
      else (run cmd s).2.halt g q (run cmd s).1 cmd.ticket := by
  unfold State.engine
  rw [hhead]
  dsimp only
  rw [if_neg (by simp [hphase, hup, hrun, hop])]

/-- A started command ends finished, or halts its queue with the code of its check or of its run. -/
theorem engine_ends :
    (check cmd = 0 → (run cmd s).1 = 0 →
      s.engine g q op check run = (run cmd s).2.setHead g q { cmd with phase := .finished }) ∧
    (check cmd = 0 → (run cmd s).1 ≠ 0 → s.engine g q op check run = (run cmd s).2.halt g q (run cmd s).1 cmd.ticket) ∧
    (check cmd ≠ 0 → s.engine g q op check run = s.halt g q (check cmd) cmd.ticket) := by
  rw [engine_of_started hhead hphase hup hrun hop]
  exact ⟨fun hc hr => by rw [if_neg (not_not.mpr hc), if_pos hr], fun hc hr => by rw [if_neg (not_not.mpr hc), if_neg hr],
    fun hc => if_pos hc⟩

/-- A row that is the common course of an engine command ends as that course does. -/
theorem exec_engine_ends {i : Instr} (hi : exec i s = .next (s.engine g q op check run)) :
    (check cmd = 0 → (run cmd s).1 = 0 → exec i s = .next ((run cmd s).2.setHead g q { cmd with phase := .finished })) ∧
    (check cmd = 0 → (run cmd s).1 ≠ 0 → exec i s = .next ((run cmd s).2.halt g q (run cmd s).1 cmd.ticket)) ∧
    (check cmd ≠ 0 → exec i s = .next (s.halt g q (check cmd) cmd.ticket)) := by
  obtain ⟨hfinish, herror, hcheck⟩ := engine_ends (check := check) (run := run) hhead hphase hup hrun hop
  rw [hi]
  exact ⟨fun hc hr => congrArg _ (hfinish hc hr), fun hc hr => congrArg _ (herror hc hr), fun hc => congrArg _ (hcheck hc)⟩

end

/-- Settles O15: each of the four rows is the common course with its check and its run. -/
theorem matrixCommands : Obligations.MatrixCommands := by
  intro g s cmd hhead hphase hup hrun i op check run hrow hop
  refine exec_engine_ends hhead hphase hup hrun hop ?_
  simp only [List.mem_cons, List.not_mem_nil, or_false, Prod.mk.injEq] at hrow
  rcases hrow with ⟨rfl, rfl, rfl, rfl⟩ | ⟨rfl, rfl, rfl, rfl⟩ | ⟨rfl, rfl, rfl, rfl⟩ | ⟨rfl, rfl, rfl, rfl⟩ <;> rfl

/-- Settles O17: each of the rows is the common course with the checks of the vector engine and its run. -/
theorem vectorCommands : Obligations.VectorCommands := by
  intro g s cmd hhead hphase hup hrun
  refine ⟨fun i op run hrow hop => exec_engine_ends hhead hphase hup hrun hop ?row, fun hop hbytes => ?vnop⟩
  case row =>
    simp only [List.mem_cons, List.not_mem_nil, or_false, Prod.mk.injEq] at hrow
    rcases hrow with ⟨rfl, rfl, rfl⟩ | ⟨rfl, rfl, rfl⟩ | ⟨rfl, rfl, rfl⟩ | ⟨rfl, rfl, rfl⟩ | ⟨rfl, rfl, rfl⟩ | ⟨rfl, rfl, rfl⟩ |
      ⟨rfl, rfl, rfl⟩ | ⟨rfl, rfl, rfl⟩ | ⟨rfl, rfl, rfl⟩ | ⟨rfl, rfl, rfl⟩ | ⟨rfl, rfl, rfl⟩ | ⟨rfl, rfl, rfl⟩ |
      ⟨rfl, rfl, rfl⟩ | ⟨rfl, rfl, rfl⟩ | ⟨rfl, rfl, rfl⟩ <;> rfl
  case vnop =>
    obtain ⟨hfinish, -, -⟩ := exec_engine_ends (i := .vnop g) hhead hphase hup hrun hop rfl
    exact hfinish (by simp [hbytes]) rfl

end Sys2Proof.Proofs
end

section
/-! PROOFS. What an MMUL writes (R103, R106, R109): the entries of its region of the accumulator. -/

namespace Sys2Proof.Proofs

open Sys2Proof Sys2Proof.Machine

/-! ### Checks in table order (R109, R123) -/

/-- A command whose checks answer 0 has failed none. -/
theorem firstCode_eq_zero {l : List (Bool × Nat)} (hcodes : ∀ p ∈ l, p.2 ≠ 0) (h : firstCode l = 0) : ∀ p ∈ l, p.1 = false := by
  unfold firstCode at h
  cases hfind : l.find? (fun p => p.1) with
  | none => simpa using hfind
  | some p =>
    rw [hfind] at h
    exact absurd h (hcodes p (List.mem_of_find?_eq_some hfind))

/-! ### The accumulator store (R103) -/

/-- An entry that is not written keeps its value. -/
theorem mapGet_foldl_mapSet_of_notMem {l : List (Nat × Nat)} {k : Nat} (h : ∀ p ∈ l, p.1 ≠ k) (m : List (Nat × Nat)) :
    mapGet 0 (l.foldl (fun m p => mapSet 0 m p.1 p.2) m) k = mapGet 0 m k := by
  refine List.foldlRecOn (motive := fun x => mapGet 0 x k = mapGet 0 m k) l _ rfl (fun x hx p hp => ?_)
  rw [mapGet_mapSet, if_neg (h p hp).symm, hx]

/-- An entry that is written holds the value, if it is written with that value alone. -/
theorem mapGet_foldl_mapSet_of_mem {l : List (Nat × Nat)} {k v : Nat} (hmem : (k, v) ∈ l) (h : ∀ p ∈ l, p.1 = k → p.2 = v)
    (m : List (Nat × Nat)) : mapGet 0 (l.foldl (fun m p => mapSet 0 m p.1 p.2) m) k = v := by
  induction l using List.reverseRecOn with
  | nil => cases hmem
  | append_singleton l p ih =>
    rw [List.foldl_append, List.foldl_cons, List.foldl_nil, mapGet_mapSet]
    split
    next hk => exact h p (by simp) hk.symm
    next hk =>
      have hl : (k, v) ∈ l := (List.mem_append.mp hmem).resolve_right (fun hp => hk (by rw [← List.mem_singleton.mp hp]))
      exact ih hl (fun q hq => h q (List.mem_append_left _ hq))

/-- Entry numbers tell rows and columns apart: a row holds 64 entries. -/
theorem accIndex_inj {r c r' c' : Nat} (hc : c < 64) (hc' : c' < 64) (h : accIndex r c = accIndex r' c') : r = r' ∧ c = c' := by
  unfold accIndex at h
  omega

/-! ### MMUL (R105, R106, R109) -/

/-- What an MMUL writes: the entries of its region with their sums. -/
def mmulEntries (s : State) (g : Nat) (f : Mmul) : List (Nat × Nat) :=
  (List.range f.m).flatMap (fun m => (List.range f.n).map (fun n =>
    (accIndex (f.accRow + m) (f.accCol + n), s.mmulEntry g f (decide (f.w = 7)) m n)))

theorem mem_mmulEntries {s : State} {g : Nat} {f : Mmul} {p : Nat × Nat} : p ∈ mmulEntries s g f ↔
    ∃ m n, m < f.m ∧ n < f.n ∧ p = (accIndex (f.accRow + m) (f.accCol + n), s.mmulEntry g f (decide (f.w = 7)) m n) := by
  simp only [mmulEntries, List.mem_flatMap, List.mem_map, List.mem_range, eq_comm (a := p)]
  exact ⟨fun ⟨m, hm, n, hn, h⟩ => ⟨m, n, hm, hn, h⟩, fun ⟨m, n, hm, hn, h⟩ => ⟨m, hm, n, hn, h⟩⟩

/-- The columns of a checked MMUL lie in the accumulator. -/
theorem mmulCols_of_check {cmd : EngCmd} (h : mmulCheck cmd = 0) : (mmulOf cmd.bytes).accCol + (mmulOf cmd.bytes).n ≤ 64 := by
  have hfails := firstCode_eq_zero (by simp) h
  simp only [List.mem_cons, List.not_mem_nil, or_false, forall_eq_or_imp, forall_eq, Bool.or_eq_false_iff, decide_eq_false_iff_not,
    not_lt] at hfails
  obtain ⟨-, -, -, -, -, hcols⟩ := hfails
  exact hcols

/-- An MMUL that reads no poison writes its entries. -/
theorem mmulRun_of_clean {g : Nat} {cmd : EngCmd} {s : State} (hsram : s.sramPoison g (mmulOf cmd.bytes).ranges = none)
    (hacc : (s.core g).accPoison = []) :
    mmulRun g cmd s = (0, s.modCore g (·.accWrite (mmulEntries s g (mmulOf cmd.bytes)))) := by
  unfold mmulRun
  dsimp only
  have hbad : (if (mmulOf cmd.bytes).init then none else
      (accRegion (mmulOf cmd.bytes).accRow (mmulOf cmd.bytes).accCol (mmulOf cmd.bytes).m (mmulOf cmd.bytes).n).find?
        (fun p => (s.core g).accPoison.contains (accIndex p.1 p.2))) = none := by
    rw [hacc]
    simp
  rw [hsram, hbad]
  rfl

/-- The queue alone of the core changes with its head. -/
theorem setHead_core_self (s : State) (g q : Nat) (cmd : EngCmd) :
    (s.setHead g q cmd).core g = (s.core g).setQueue q (((s.core g).queue q).setHead cmd) := by
  rw [State.setHead, State.modCore_core_self]

/-- Settles O16: the entries written are told apart by row and column, and only the accumulator and the queue of the core change. -/
theorem matrixProducts : Obligations.MatrixProducts := by
  intro g s cmd f hhead hphase hup hrun hop hcheck hsram haccPoison
  obtain ⟨hfinish, -, -⟩ := exec_engine_ends (i := .mmul g) hhead hphase hup hrun hop rfl
  rw [mmulRun_of_clean hsram haccPoison] at hfinish
  have hcore := setHead_core_self (s.modCore g (·.accWrite (mmulEntries s g f))) g 0 { cmd with phase := .finished }
  rw [State.modCore_core_self] at hcore
  have hacc : (State.core _ g).acc = (mmulEntries s g f).foldl (fun m p => mapSet 0 m p.1 p.2) (s.core g).acc :=
    congrArg Core.acc hcore
  refine ⟨_, hfinish hcheck rfl, fun m n hm hn => ?region, fun k hk => ?apart, rfl, (congrArg Core.x hcore :),
    (congrArg Core.pc hcore :), (congrArg Core.sems hcore :), (congrArg Core.wengerr hcore :), fun h hh => ?cores, rfl, rfl⟩
  case region =>
    rw [hacc]
    refine mapGet_foldl_mapSet_of_mem (mem_mmulEntries.mpr ⟨m, n, hm, hn, rfl⟩) (fun p hp hkey => ?_) _
    obtain ⟨m', n', hm', hn', rfl⟩ := mem_mmulEntries.mp hp
    have hcols : f.accCol + f.n ≤ 64 := mmulCols_of_check hcheck
    obtain ⟨hrow, hcol⟩ := accIndex_inj (by omega) (by omega) hkey
    rw [Nat.add_left_cancel hrow, Nat.add_left_cancel hcol]
  case apart =>
    rw [hacc]
    refine mapGet_foldl_mapSet_of_notMem (fun p hp hkey => ?_) _
    obtain ⟨m, n, hm, hn, rfl⟩ := mem_mmulEntries.mp hp
    exact hk m n hm hn hkey.symm
  case cores =>
    rw [State.setHead, State.modCore_core, if_neg hh, State.modCore_core, if_neg hh]

end Sys2Proof.Proofs
end

section
/-! PROOFS. What an element operation of the vector engine writes (R113 to R118): the rows of its destination, and no register of a
core. -/

namespace Sys2Proof.Proofs

open Sys2Proof Sys2Proof.Machine

/-! ### Addresses in core SRAM (R177) -/

/-- Within a core's SRAM an offset adds to the address. -/
theorem coreSramPa_add (g : Nat) {off : Nat} (h : off < 2 ^ 20) : coreSramPa g off = coreSramPa g 0 + off := by
  have hdvd : coreSramPa g 0 = ((0x10 + g / 32) * 2 ^ 26 + g % 32) * 2 ^ 20 := by
    rw [coreSramPa_zero]
    ring
  have hor : coreSramPa g off = coreSramPa g 0 ||| off := by simp [coreSramPa]
  rw [hor, hdvd, ← Nat.shiftLeft_eq, Nat.shiftLeft_add_eq_or_of_lt h]

/-! ### What the engines leave of a core -/

/-- The registers of a core that its vector engine does not change. -/
def registers (c : Core) := (c.x, c.pc, c.sems, c.acc, c.sb, c.mstatus)

/-- What changing the listed values keeps of each, it keeps of what is found at a key. -/
theorem mapGet_map {α β : Type} (view : α → β) {f : Nat × α → Nat × α} (hkey : ∀ p, (f p).1 = p.1)
    (hview : ∀ p, view (f p).2 = view p.2) (d : α) (m : List (Nat × α)) (k : Nat) : view (mapGet d (m.map f) k) = view (mapGet d m k) := by
  unfold mapGet
  induction m with
  | nil => rfl
  | cons p m ih =>
    have hp : f p = (p.1, (f p).2) := Prod.ext (hkey p) rfl
    rw [List.map_cons, hp, mapFind, mapFind]
    split
    · exact hview p
    · exact ih

theorem loseResv_registers (s : State) (line g h : Nat) : registers ((s.loseResv line g).core h) = registers (s.core h) := by
  refine mapGet_map registers (fun p => ?_) (fun p => ?_) _ _ h
  · split <;> rfl
  · split <;> rfl

/-- Beside memory and reservations a stored line changes only the coherence state and the fault agents. -/
theorem storeLine_keeps {γ : Type} (view : State → γ) (hcoh : ∀ (s : State) (c : Coh), view { s with coh := c } = view s)
    (hreport : ∀ s e, view (State.report s e) = view s) (s : State) (k : Nat) (bs : Bytes) (tag : Option Nat) :
    view (s.storeLine k bs tag) = view (State.loseResv { s with mem := s.mem.store k bs } (lineOf k) 512) := by
  have hlines : ∀ t : State, view (if isHostKey k then
      { t with coh := { t.coh with
        dc := if (mapFind t.coh.dc (lineOf (k - 2 ^ 64))).isSome then mapPut t.coh.dc (lineOf (k - 2 ^ 64)) .m else t.coh.dc } }
      else if needsHome k then { t with coh := t.coh.recall (lineOf k) } else t) = view t := by
    intro t
    split
    · exact hcoh ..
    · split
      · exact hcoh ..
      · rfl
  unfold State.storeLine
  dsimp only
  split
  · exact (hreport ..).trans (hlines _)
  · exact hlines _

theorem storeLine_registers (s : State) (k : Nat) (bs : Bytes) (tag : Option Nat) (h : Nat) :
    registers ((s.storeLine k bs tag).core h) = registers (s.core h) :=
  (storeLine_keeps (fun t => registers (t.core h)) (fun _ _ => rfl) (fun _ _ => rfl) s k bs tag).trans (loseResv_registers ..)

theorem storeLine_mem (s : State) (k : Nat) (bs : Bytes) (tag : Option Nat) : (s.storeLine k bs tag).mem = s.mem.store k bs :=
  storeLine_keeps State.mem (fun _ _ => rfl) (fun _ _ => rfl) s k bs tag

theorem modCore_registers {f : Core → Core} (hf : ∀ c, registers (f c) = registers c) (s : State) (g h : Nat) :
    registers ((s.modCore g f).core h) = registers (s.core h) := by
  rw [State.modCore_core]
  split
  next e => rw [hf, e]
  · rfl

theorem programFault_registers (s : State) (g queue code : Nat) (cause tval : Word) (h : Nat) :
    registers ((s.programFault g queue code cause tval).core h) = registers (s.core h) := by
  unfold State.programFault
  split
  · exact endProgram_core registers (fun _ => rfl) (fun _ _ _ => rfl) ..
  · rfl

theorem programFault_mem (s : State) (g queue code : Nat) (cause tval : Word) : (s.programFault g queue code cause tval).mem = s.mem := by
  unfold State.programFault
  split
  · exact endProgram_mem ..
  · rfl

/-! ### The rows that a vector command writes (R114, R118) -/

/-- The key of the first byte of destination row r. -/
def rowKey (g : Nat) (f : Vec) (r : Nat) : Nat := coreSramPa g 0 + f.dst + 16 * f.dStride * r

/-- Key k lies in no destination row. -/
def ApartFromRows (g : Nat) (f : Vec) (k : Nat) : Prop :=
  ∀ r, r < f.rows → k < rowKey g f r ∨ rowKey g f r + f.cols * codeSize f.d ≤ k

/-- From s to t the registers of every core stay, and every byte of memory outside the destination rows. -/
def WritesRowsAlone (g : Nat) (f : Vec) (s t : State) : Prop :=
  (∀ h, registers (t.core h) = registers (s.core h)) ∧ ∀ k, ApartFromRows g f k → t.mem.byte k = s.mem.byte k

section

variable {g : Nat} {f : Vec} {s t u : State}

theorem WritesRowsAlone.refl : WritesRowsAlone g f s s := ⟨fun _ => rfl, fun _ _ => rfl⟩

theorem WritesRowsAlone.trans (h : WritesRowsAlone g f s t) (h' : WritesRowsAlone g f t u) : WritesRowsAlone g f s u :=
  ⟨fun c => (h'.1 c).trans (h.1 c), fun k hk => (h'.2 k hk).trans (h.2 k hk)⟩

theorem writesRowsAlone_poisonUsed (cmd : EngCmd) (detail : Nat) : WritesRowsAlone g f s (s.poisonUsed g cmd detail) :=
  ⟨fun _ => rfl, fun _ _ => rfl⟩

theorem writesRowsAlone_setHead (q : Nat) (cmd : EngCmd) : WritesRowsAlone g f s (s.setHead g q cmd) :=
  ⟨fun h => modCore_registers (f := fun c => c.setQueue q ((c.queue q).setHead cmd)) (fun _ => rfl) s g h, fun _ _ => rfl⟩

theorem writesRowsAlone_halt (q code : Nat) (ticket : BitVec 32) : WritesRowsAlone g f s (s.halt g q code ticket) :=
  ⟨fun h => (programFault_registers ..).trans (modCore_registers (f := fun c => c.halt q code ticket) (fun _ => rfl) s g h),
    fun k _ => congrArg (Memory.byte · k) (programFault_mem ..)⟩

/-- Bytes of columns j0 to j1 of row r, all within core SRAM. -/
theorem writesRowsAlone_sramWrite (cmd : EngCmd) {r j0 j1 : Nat} {bs : Bytes} (hr : r < f.rows) (hj : j1 ≤ f.cols)
    (hlen : j0 * codeSize f.d + bs.length ≤ j1 * codeSize f.d)
    (hsram : f.dst + 16 * f.dStride * r + j0 * codeSize f.d < 2 ^ 20) :
    WritesRowsAlone g f s (s.sramWrite g cmd (f.dst + 16 * f.dStride * r + j0 * codeSize f.d) bs) := by
  refine ⟨fun h => storeLine_registers .., fun k hk => ?_⟩
  rw [State.sramWrite, storeLine_mem, coreSramPa_add g hsram]
  refine Memory.byte_store_apart _ _ _ _ ?_
  have hcols : j1 * codeSize f.d ≤ f.cols * codeSize f.d := Nat.mul_le_mul_right _ hj
  have hrow := hk r hr
  unfold rowKey at hrow
  omega

/-- Parts that each write rows alone do so together, also where poison ends the command before the last (R118). -/
theorem writesRowsAlone_vecParts {α : Type} (cmd : EngCmd) (parts : List α) (reads : α → List (Nat × Nat)) (act : α → State → State)
    (hact : ∀ p ∈ parts, ∀ s, WritesRowsAlone g f s (act p s)) : WritesRowsAlone g f s (vecParts g cmd parts reads act s).2 := by
  unfold vecParts
  refine List.foldlRecOn (motive := fun x : Nat × State => WritesRowsAlone g f s x.2) parts _ .refl (fun x hx p hp => ?_)
  split
  · exact hx
  · split
    · exact hx.trans (writesRowsAlone_poisonUsed cmd _)
    · exact hx.trans (hact p hp x.2)

end

/-! ### Element operations (R113, R116, R117, R123) -/

/-- A chunk lies in a row of the command, holds a column, and ends within the row. -/
theorem chunk_bounds {f : Vec} {r j0 j1 : Nat} (h : (r, j0, j1) ∈ f.chunks) : r < f.rows ∧ j0 < f.cols ∧ j0 ≤ j1 ∧ j1 ≤ f.cols := by
  simp only [Vec.chunks, List.mem_flatMap, List.mem_map, List.mem_range, Prod.mk.injEq] at h
  obtain ⟨r', hr, i, hi, rfl, rfl, rfl⟩ := h
  have hlanes : 0 < f.lanes := by
    by_contra hzero
    rw [Nat.eq_zero_of_not_pos hzero, Nat.div_zero] at hi
    exact absurd hi (Nat.not_lt_zero i)
  have hfirst : i * f.lanes < f.cols := by
    have := (Nat.le_div_iff_mul_le hlanes).mp (Nat.succ_le_of_lt hi)
    rw [Nat.succ_mul] at this
    omega
  exact ⟨hr, hfirst, le_min hfirst.le (Nat.mul_le_mul_right _ (Nat.le_succ i)), min_le_left ..⟩

@[simp] theorem natLe_length (n k : Nat) : (natLe n k).length = k := by
  induction k generalizing n with
  | zero => rfl
  | succ k ih => rw [natLe, List.length_cons, ih]

theorem length_flatMap_le {α β : Type} {n : Nat} {f : α → List β} (h : ∀ a, (f a).length ≤ n) (l : List α) :
    (l.flatMap f).length ≤ l.length * n := by
  rw [List.length_flatMap, ← List.length_map (fun a => (f a).length)]
  exact List.sum_le_card_nsmul _ n (by simpa using fun a _ => h a)

theorem elemBytes_length_le (c : Nat) (sat : Bool) (v : FVal) : (elemBytes c sat v).length ≤ codeSize c := by
  unfold elemBytes
  split
  · exact (natLe_length ..).le
  · exact Nat.zero_le _

theorem codeSize_pos_of_vecFmt {c : Nat} (h : vecFmt c = true) : 0 < codeSize c := by
  simp only [vecFmt, Bool.or_eq_true, decide_eq_true_eq] at h
  rcases h with ((rfl | rfl) | rfl) | rfl <;> decide

/-- A range that a command may name ends within core SRAM (R98). -/
theorem end_of_not_outOf {cmd : EngCmd} {off len : Nat} (h : outOf cmd off len = false) : off + len ≤ 2 ^ 20 := by
  simp only [outOf, Bool.or_eq_false_iff, decide_eq_false_iff_not] at h
  obtain ⟨-, hend⟩ := h
  split at hend <;> omega

/-- The destination rows of an element operation with good ranges end within core SRAM. -/
theorem dstEnd_of_not_badRange {f : Vec} {cmd : EngCmd} (h : f.badRange cmd = false) (hop : f.op ≤ 9) :
    f.dst + (16 * f.dStride * (f.rows - 1) + f.cols * codeSize f.d) ≤ 2 ^ 20 := by
  have hreduces : f.reduces = false := by
    simp only [Vec.reduces, Bool.and_eq_false_iff, decide_eq_false_iff_not]
    omega
  have hspan : f.dSpan = 16 * f.dStride * (f.rows - 1) + f.cols * codeSize f.d := by
    rw [Vec.dSpan, hreduces, if_neg Bool.false_ne_true, if_neg (by omega)]
  simp only [Vec.badRange, Bool.or_eq_false_iff] at h
  obtain ⟨⟨-, hdst, -⟩, -⟩ := h
  exact hspan ▸ end_of_not_outOf hdst

/-- A checked vector command has good ranges and a destination format of the engine. -/
theorem rangeAndFormat_of_check {cmd : EngCmd} (h : vecCheck cmd = 0) :
    (vecOf cmd.bytes).badRange cmd = false ∧ vecFmt (vecOf cmd.bytes).d = true := by
  have hfails := firstCode_eq_zero (by simp) h
  simp only [List.mem_cons, List.not_mem_nil, or_false, forall_eq_or_imp, forall_eq, Bool.or_eq_false_iff, Bool.not_eq_false'] at hfails
  obtain ⟨-, hrange, ⟨⟨⟨-, hfmt⟩, -⟩, -⟩, -⟩ := hfails
  exact ⟨hrange, hfmt⟩

/-- An element operation that passed its checks writes rows alone. -/
theorem writesRowsAlone_vecElem (fn : FVal → FVal → FVal → FVal) (g : Nat) {cmd : EngCmd} (s : State) (hcheck : vecCheck cmd = 0)
    (hop : (vecOf cmd.bytes).op ≤ 9) : WritesRowsAlone g (vecOf cmd.bytes) s (vecElem fn g cmd s).2 := by
  obtain ⟨hrange, hfmt⟩ := rangeAndFormat_of_check hcheck
  unfold vecElem
  generalize vecOf cmd.bytes = f at hrange hfmt hop ⊢
  refine writesRowsAlone_vecParts cmd _ _ _ (fun (r, j0, j1) hp x => ?_)
  obtain ⟨hr, hj0, hj, hj1⟩ := chunk_bounds hp
  refine writesRowsAlone_sramWrite cmd hr hj1 ?len ?sram
  case len =>
    refine (Nat.add_le_add_left (length_flatMap_le (fun i => elemBytes_length_le _ _ _) _) _).trans ?_
    rw [List.length_range, ← Nat.add_mul, Nat.add_sub_of_le hj]
  case sram =>
    have hend := dstEnd_of_not_badRange hrange hop
    have hrow : 16 * f.dStride * r ≤ 16 * f.dStride * (f.rows - 1) := Nat.mul_le_mul_left _ (by omega)
    have hcol : j0 * codeSize f.d < f.cols * codeSize f.d := Nat.mul_lt_mul_of_pos_right hj0 (codeSize_pos_of_vecFmt hfmt)
    omega

/-- What holds before a command of an engine, and what its run, its end and a halt keep, holds after it. -/
theorem engine_keeps {P : State → Prop} {s : State} {g q op : Nat} {check : EngCmd → Nat} {run : EngCmd → State → Nat × State} (hs : P s)
    (hset : ∀ t cmd, P t → P (t.setHead g q cmd)) (hhalt : ∀ t code ticket, P t → P (t.halt g q code ticket))
    (hrun : ∀ cmd, s.head g q = some cmd → cmdByte cmd.bytes 0 = op → check cmd = 0 → P (run cmd s).2) :
    P (s.engine g q op check run) := by
  unfold State.engine
  split
  · exact hs
  next cmd hhead =>
    split
    · exact hs
    next hgo =>
      simp only [Bool.or_eq_true, decide_eq_true_eq, not_or, not_not] at hgo
      split
      · exact hhalt s _ _ hs
      next hcheck =>
        have hend := hrun cmd hhead hgo.2 (not_not.mp hcheck)
        dsimp only
        split
        · exact hset _ _ hend
        · exact hhalt _ _ _ hend

/-- The element operations are the common course of a vector command with opcodes up to 9. -/
theorem exec_elementOp {g : CoreId} {i : Instr}
    (hi : i ∈ [Instr.vadd g, .vsub g, .vmul g, .vfma g, .vmax g, .vmin g, .vcvt g, .vsfu g, .vgsilu g]) (s : State) :
    ∃ (op : Nat) (fn : EngCmd → FVal → FVal → FVal → FVal), op ≤ 9 ∧ exec i s = .next (s.vector g op (fun c => vecElem (fn c) g c)) := by
  simp only [List.mem_cons, List.not_mem_nil, or_false] at hi
  rcases hi with rfl | rfl | rfl | rfl | rfl | rfl | rfl | rfl | rfl
  · exact ⟨1, fun _ a b _ => fadd a b, by decide, rfl⟩
  · exact ⟨2, fun _ a b _ => fsub a b, by decide, rfl⟩
  · exact ⟨3, fun _ a b _ => fmul a b, by decide, rfl⟩
  · exact ⟨4, fun _ => ffma, by decide, rfl⟩
  · exact ⟨5, fun _ a b _ => vmaxF a b, by decide, rfl⟩
  · exact ⟨6, fun _ a b _ => vminF a b, by decide, rfl⟩
  · exact ⟨7, fun _ a _ _ => a, by decide, rfl⟩
  · exact ⟨8, fun c a b _ => f32 (sfuFn (vecOf c.bytes).fn (f32 (rne32 (fmul a b)))), by decide, rfl⟩
  · exact ⟨9, fun _ a b _ => fmul (f32 (sfuSilu a)) b, by decide, rfl⟩

/-- Settles O18: an element operation that runs writes rows alone, and neither its end nor a halt touches those registers or memory. -/
theorem vectorFrame : Obligations.VectorFrame := by
  intro g s t cmd i f hhead _ hcheck hi hexec
  obtain ⟨op, fn, hop, he⟩ := exec_elementOp hi s
  obtain rfl := Host.Outcome.next.inj (he.symm.trans hexec)
  have hframe : WritesRowsAlone g f s (s.vector g op (fun c => vecElem (fn c) g c)) := by
    refine engine_keeps (P := WritesRowsAlone g f s) .refl (fun t c h => h.trans (writesRowsAlone_setHead 1 c))
      (fun t code k h => h.trans (writesRowsAlone_halt 1 code k)) (fun c hc hcop hcchk => ?_)
    obtain rfl : cmd = c := Option.some.inj (hhead.symm.trans hc)
    exact writesRowsAlone_vecElem _ g s hcheck (hcop.trans_le hop)
  obtain ⟨hregs, hbytes⟩ := hframe
  exact ⟨fun h => by simpa only [registers, Prod.mk.injEq] using hregs h, hbytes⟩

end Sys2Proof.Proofs
end

section
/-! PROOFS. DMA descriptors that move data (R135 to R139, R231, R232): the check, the tiles, and how a descriptor ends. -/

namespace Sys2Proof.Proofs

open Sys2Proof Sys2Proof.Machine

section

variable {g : CoreId} {ch : Chan} {c : EngCmd} {s x : State} {i ty : Nat}

/-- The tiles of the current descriptor of a channel, run from where they stand: the tile reached, how it ended, the state. -/
def descTiles (g : CoreId) (ch : Chan) (c : EngCmd) (s : State) : Nat × Tile × State :=
  runTiles (fun x i => x.tile (dmaReq g ch c) (c.descriptor c.desc) i) (tileCount (c.descriptor c.desc) - c.tile) c.tile s

/-! ### The end of a run of tiles (R135, R137, R139, R231) -/

theorem runDesc_of_done (h : descTiles g ch c s = (i, .done, x)) : s.runDesc g ch c = (x.descDone g ch c).ahead g ch := by
  rw [descTiles] at h
  simp only [State.runDesc, h]

theorem runDesc_of_wait (h : descTiles g ch c s = (i, .wait, x)) :
    s.runDesc g ch c =
      let waits := x.setHead g (2 + ch) { c with tile := i, checked := true }
      if waits.endingOn g && waits.chanHeld g (2 + ch) then waits.stopChan g (2 + ch) else waits.ahead g ch := by
  rw [descTiles] at h
  simp only [State.runDesc, h]

theorem runDesc_of_err {e : Nat} (h : descTiles g ch c s = (i, .err e, x)) :
    s.runDesc g ch c = x.halt g (2 + ch) e c.ticket := by
  rw [descTiles] at h
  simp only [State.runDesc, h]

/-- A row that carries the descriptor out ends as its tiles do. -/
theorem exec_runDesc_ends {instr : Instr} (hexec : exec instr s = .next (s.runDesc g ch c)) :
    let tiles := descTiles g ch c s
    let waits := tiles.2.2.setHead g (2 + ch) { c with tile := tiles.1, checked := true }
    (tiles.2.1 = .done → exec instr s = .next ((tiles.2.2.descDone g ch c).ahead g ch)) ∧
    (tiles.2.1 = .wait → exec instr s =
      .next (if waits.endingOn g && waits.chanHeld g (2 + ch) then waits.stopChan g (2 + ch) else waits.ahead g ch)) ∧
    (∀ e, tiles.2.1 = .err e → exec instr s = .next (tiles.2.2.halt g (2 + ch) e c.ticket)) := by
  intro tiles waits
  have hcases {t : Tile} (h : tiles.2.1 = t) : descTiles g ch c s = (tiles.1, t, tiles.2.2) := Prod.ext rfl (Prod.ext h rfl)
  rw [hexec]
  exact ⟨fun h => congrArg _ (runDesc_of_done (hcases h)), fun h => congrArg _ (runDesc_of_wait (hcases h)),
    fun e h => congrArg _ (runDesc_of_err (hcases h))⟩

/-! ### The check (R138) -/

theorem dma_of_ok (hrun : s.running g ch (· = ty) = some c)
    (hok : c.checked = true ∨ s.dmaCheck (dmaReq g ch c) (c.descriptor c.desc) c.desc = 0) : s.dma g ch ty = s.runDesc g ch c := by
  unfold State.dma
  simp only [hrun]
  rcases hok with hchecked | hpass
  · rw [if_pos hchecked]
  · rw [if_neg (not_not.mpr hpass), ite_self]

theorem dma_of_refused (hrun : s.running g ch (· = ty) = some c) (hnew : c.checked = false)
    (hbad : s.dmaCheck (dmaReq g ch c) (c.descriptor c.desc) c.desc ≠ 0) :
    s.dma g ch ty = s.halt g (2 + ch) (s.dmaCheck (dmaReq g ch c) (c.descriptor c.desc) c.desc) c.ticket := by
  unfold State.dma
  simp only [hrun]
  rw [if_neg (by simp [hnew]), if_pos hbad]

/-! ### The rows (R141 to R147, R232) -/

theorem exec_dma {instr : Instr} (s : State) (hrow : (instr, ty) ∈ [(Instr.dnop g ch, 0), (.copy g ch, 1), (.strided g ch, 2),
    (.gather g ch, 3), (.scatter g ch, 4), (.kvput g ch, 5), (.kvget g ch, 6)]) : exec instr s = .next (s.dma g ch ty) := by
  simp only [List.mem_cons, List.not_mem_nil, or_false, Prod.mk.injEq] at hrow
  rcases hrow with ⟨rfl, rfl⟩ | ⟨rfl, rfl⟩ | ⟨rfl, rfl⟩ | ⟨rfl, rfl⟩ | ⟨rfl, rfl⟩ | ⟨rfl, rfl⟩ | ⟨rfl, rfl⟩ <;> rfl

theorem exec_tileStart_of_checked (hrun : s.running g ch (fun t => decide (t ≤ 9)) = some c) (hopen : s.openOn g ch = false)
    (hchecked : c.checked = true) (htype : dType (c.descriptor c.desc) ≤ 6) :
    exec (.tileStart g ch) s = .next (s.runDesc g ch c) := by
  change execTileStart g ch s = _
  unfold execTileStart
  simp [hrun, hopen, hchecked, htype]

end

/-- Settles O19: each row is the common course of a descriptor, which ends as its tiles do. -/
theorem dmaDescriptors : Obligations.DmaDescriptors := by
  intro g ch s c
  refine ⟨fun i ty hrow hrun => ⟨fun hok => ?runs, fun hnew hbad => ?refused⟩, fun hrun hopen hchecked htype => ?tileStart⟩
  case runs => exact exec_runDesc_ends ((exec_dma s hrow).trans (congrArg _ (dma_of_ok hrun hok)))
  case refused => exact (exec_dma s hrow).trans (congrArg _ (dma_of_refused hrun hnew hbad))
  case tileStart => exact exec_runDesc_ends (exec_tileStart_of_checked hrun hopen hchecked htype)

end Sys2Proof.Proofs
end

section
/-! PROOFS. Collectives (R138, R149 to R159): a descriptor joins its group or halts its channel, and the last member sets the group
going. -/

namespace Sys2Proof.Proofs

open Sys2Proof Sys2Proof.Machine

/-! ### A descriptor joins or ends (R138, R149, R150) -/

section

variable {g : CoreId} {ch : Chan} {c : EngCmd} {s s1 : State} {e : Nat} {l : List (List (Nat × Nat × Nat))}
  {more : State → Tile × List (List (Nat × Nat × Nat)) × State} (order : List Nat)

theorem joinNext_of_routed (h : more s = (.done, l, s1)) :
    s.joinNext g ch c 0 more order =
      let r := (s1.dropIo (.chan g ch)).join g ch c (c.descriptor c.desc) l
      r.1.fire r.2 order := by
  simp only [State.joinNext, h, if_true]

theorem joinNext_of_unrouted (h : more s = (.err e, l, s1)) :
    s.joinNext g ch c 0 more order = ((s1.dropIo (.chan g ch)).issue g (c.descriptor c.desc)).halt g (2 + ch) e c.ticket := by
  simp only [State.joinNext, h, if_true]

/-- An expert map entry that is not valid comes before the codes after 0x30. -/
theorem joinNext_of_badEntry (he : 0x30 < e) (h : more s = (.err 0x30, l, s1)) :
    s.joinNext g ch c e more order = ((s1.dropIo (.chan g ch)).issue g (c.descriptor c.desc)).halt g (2 + ch) 0x30 c.ticket := by
  unfold State.joinNext
  dsimp only
  rw [if_neg (by omega), if_pos he]
  simp only [h]

theorem joinNext_of_refused (he : e ≠ 0) (h : 0x30 < e → (more s).1 ≠ .err 0x30) :
    s.joinNext g ch c e more order = (s.issue g (c.descriptor c.desc)).halt g (2 + ch) e c.ticket := by
  unfold State.joinNext
  dsimp only
  rw [if_neg he]
  split
  · next hlate =>
    split
    · next hentry => exact absurd (congrArg Prod.fst hentry) (h hlate)
    · rfl
  · rfl

end

section

variable {g : CoreId} {ch : Chan} {c : EngCmd} {s : State} {ty : Nat} (check : Requester → EngCmd → Bytes → Nat → Nat)
  (more : State → Requester → Bytes → Tile × List (List (Nat × Nat × Nat)) × State) (order : List Nat)
  (hrun : s.running g ch (· = ty) = some c)

include hrun

theorem collective_of_joined (h : c.joined = true) : s.collective g ch ty check more order = s.fireAll g ch order := by
  simp only [State.collective, hrun, h, if_true]

theorem collective_of_new (h : c.joined = false) :
    s.collective g ch ty check more order =
      s.joinNext g ch c (check (dmaReq g ch c) c (c.descriptor c.desc) c.desc)
        (fun s => more s (dmaReq g ch c) (c.descriptor c.desc)) order := by
  unfold State.collective
  simp [hrun, h]

end

/-! ### The members that have joined go on (R149 to R151) -/

section

variable {s : State} {j : Joined} {p : Part} {ps : List Part} (order : List Nat)

theorem begins_of_mismatch (h : ∃ x ∈ ps, commonOf x.d ≠ commonOf p.d) : s.begins ps p = s.allEnd ps 0x34 := by
  unfold State.begins
  exact if_pos (by simpa using h)

theorem begins_of_match (h : ∀ x ∈ ps, commonOf x.d = commonOf p.d) :
    (dType p.d = 7 → s.begins ps p = s.startExchange ps) ∧ (dType p.d = 8 → s.begins ps p = s.startCombine ps) ∧
    (dType p.d = 9 → s.begins ps p = ps.foldl (fun x p => x.modJoin p.j (fun y => { y with phase := .running })) s) := by
  unfold State.begins
  rw [if_neg (by simpa using h)]
  refine ⟨fun ht => ?_, fun ht => ?_, fun ht => ?_⟩ <;> simp only [ht]

theorem goOn_of_type :
    (dType j.bytes = 7 → s.goOn j order = (s.parts j).foldl (fun x p => x.runExchange p) s) ∧
    (dType j.bytes = 8 → s.goOn j order = s.runCombine j order) ∧
    (dType j.bytes = 9 → s.goOn j order = State.runReduce (reduceTiles j.bytes) s j order) := by
  unfold State.goOn
  refine ⟨fun ht => ?_, fun ht => ?_, fun ht => ?_⟩ <;> simp only [ht]

variable (hnow : s.joinNow j = j)

include hnow

theorem fire_of_running (hphase : j.phase = .running) : s.fire j order = (s.goOn j order).closeColl j := by
  simp only [State.fire, hnow, hphase, if_true]

variable (hhead : (s.parts j).head? = some p) (hphase : j.phase = .waiting)

include hhead hphase

theorem fire_of_missing (h : (s.parts j).length < p.e.members) : s.fire j order = s := by
  unfold State.fire
  simp [hnow, hphase, hhead, h]

theorem fire_of_complete (h : p.e.members ≤ (s.parts j).length) :
    s.fire j order =
      let b := s.begins (s.parts j) p
      (if (b.joinNow j).phase = .running then b.goOn j order else b).closeColl j := by
  unfold State.fire
  simp [hnow, hphase, hhead, not_lt.mpr h]

end

/-- Settles O21: each row is the common course of a collective, and what its members do follows their phase. That a descriptor which
ends at its check counts as issued, and what else the spec leaves open here, is the model's choice (log entries 32 and 111). -/
theorem collectivesRun : Obligations.CollectivesRun := by
  intro g ch order s c
  refine ⟨fun i ty check more o hrow hrun => ?rows, fun j p hnow hhead => ⟨fun hwaits => ⟨?missing, ?complete⟩, ?running⟩⟩
  case rows =>
    have hexec : exec i s = .next (s.collective g ch ty check more o) := by
      simp only [List.mem_cons, List.not_mem_nil, or_false, Prod.mk.injEq] at hrow
      rcases hrow with ⟨rfl, rfl, rfl, rfl, rfl⟩ | ⟨rfl, rfl, rfl, rfl, rfl⟩ | ⟨rfl, rfl, rfl, rfl, rfl⟩ <;> rfl
    rw [hexec]
    refine ⟨fun hnew l s1 => ?routed, fun hnew hbad hentry => ?refused, fun hjoined => ?joined⟩
    case routed =>
      rw [collective_of_new check more o hrun hnew]
      refine ⟨fun hok hroutes => ?_, fun hok e hroutes => ?_, fun hlate hroutes => ?_⟩
      · rw [hok]
        exact congrArg _ (joinNext_of_routed o hroutes)
      · rw [hok]
        exact congrArg _ (joinNext_of_unrouted o hroutes)
      · exact congrArg _ (joinNext_of_badEntry o hlate hroutes)
    case refused =>
      rw [collective_of_new check more o hrun hnew]
      exact congrArg _ (joinNext_of_refused o hbad hentry)
    case joined => exact congrArg _ (collective_of_joined check more o hrun hjoined)
  case missing => exact fire_of_missing order hnow hhead hwaits
  case complete =>
    exact fun hall => ⟨fire_of_complete order hnow hhead hwaits hall, begins_of_mismatch, begins_of_match⟩
  case running => exact fun hruns => ⟨fire_of_running order hnow hruns, goOn_of_type order⟩

end Sys2Proof.Proofs
end

section
/-! PROOFS. PREFETCH and the Finder (R160, R161, R163, R164, R166). -/

namespace Sys2Proof.Proofs

open Sys2Proof Sys2Proof.Machine

/-! ### PREFETCH (R160, R161, R163, R164) -/

section

variable {g : CoreId} {ch : Chan} {c : EngCmd} {s s1 : State} {level : Nat}

/-- The pages that a descriptor of level 0 or 1 names. -/
def prefetchPages (d : Bytes) : List (Nat × Nat) := cutAt 4096 (fieldLe d 24 8 / 4096 + 2) (dSrc d) (fieldLe d 24 8)

/-- Some pages, taken in order from where the descriptor stands. -/
def pageTiles (f : State → Nat → Nat → Tile × State) (pages : List (Nat × Nat)) (c : EngCmd) (s : State) : Nat × Tile × State :=
  runTiles (fun s i => match pages[i]? with
    | some p => f s p.1 p.2
    | none => (.done, s)) (pages.length - c.tile) c.tile s

/-- What a channel does once its pages are tried: it waits at one of them, or its descriptor is done. -/
def afterPages (g : CoreId) (ch : Chan) (c : EngCmd) : Nat × Tile × State → State
  | (i, .wait, s) => s.setHead g (2 + ch) { c with tile := i, checked := true }
  | (_, _, s) => s.descDone g ch c

theorem afterPages_of_done {r : Nat × Tile × State} (h : r.2.1 = .done) : afterPages g ch c r = r.2.2.descDone g ch c := by
  obtain ⟨i, t, x⟩ := r
  obtain rfl : t = .done := h
  rfl

variable (hrun : s.running g ch (· = 10) = some c)

include hrun

theorem prefetchRange_of_ok (hlevel : pLevel (c.descriptor c.desc) = level)
    (hok : c.checked = true ∨ rangeCheck (c.descriptor c.desc) c.desc = 0) :
    s.prefetchRange g ch level = afterPages g ch c (pageTiles
      (fun s p n => if level = 0 then s.bringPage (dmaReq g ch c) p n else s.prefetchPage (dmaReq g ch c) p n)
      (prefetchPages (c.descriptor c.desc)) c s) := by
  have hpass : ¬((!c.checked && decide (rangeCheck (c.descriptor c.desc) c.desc ≠ 0)) = true) := by
    rcases hok with h | h <;> simp [h]
  unfold State.prefetchRange
  simp only [hrun]
  rw [if_neg (not_not.mpr hlevel), if_neg hpass]
  rfl

theorem exec_prefetchLevel2_of_fetched {bs : Bytes} (hlevel : pLevel (c.descriptor c.desc) = 2)
    (hok : s.predictCheck (dmaReq g ch c) (c.descriptor c.desc) c.desc = 0)
    (hfetch : s.fetch (dmaReq g ch c) (dSrc (c.descriptor c.desc)) (4 * fieldLe (c.descriptor c.desc) 24 8) = (.done, bs, s1)) :
    exec (.prefetchLevel2 g ch) s =
      let d := c.descriptor c.desc
      let l := (List.range (fieldLe d 24 8)).map (fun i => (fieldLe bs (4 * i) 2, fieldLe bs (4 * i + 2) 2))
      let s2 := s1.dropIo (dmaReq g ch c).who
      .next ((if s2.finderOn g then s2.finderSubmit g (pLayer d) l else s2).descDone g ch c) := by
  change execPrefetchLevel2 g ch s = _
  unfold execPrefetchLevel2
  simp only [hrun]
  rw [if_neg (not_not.mpr hlevel), if_neg (not_not.mpr hok)]
  simp only [hfetch]

theorem exec_prefetchLevel3_of_ok (hlevel : pLevel (c.descriptor c.desc) = 3) (hok : beginCheck (c.descriptor c.desc) c.desc = 0) :
    exec (.prefetchLevel3 g ch) s =
      .next ((if s.finderOn g then s.finderBegin (g / 32) (pLayer (c.descriptor c.desc)) else s).descDone g ch c) := by
  change execPrefetchLevel3 g ch s = _
  unfold execPrefetchLevel3
  simp only [hrun]
  rw [if_neg (not_not.mpr hlevel), if_neg (not_not.mpr hok)]

end

/-! ### The Finder (R163, R164, R166) -/

section

variable {d : DieId} {e : BitVec 16} {s : State}

theorem exec_finderRankTimeout_of_waiting (hrank : (s.finder d).ranked = false) (hsub : (s.finder d).submitted ≠ [])
    (hmain : s.srv.main.isSome = true) :
    exec (.finderRankTimeout d) s = .next (s.setFinder d (s.finderRank d (s.finder d))) := by
  change execFinderRankTimeout d s = _
  unfold execFinderRankTimeout
  have hmain' : s.srv.main.isNone = false := by rw [← Option.not_isSome, hmain, Bool.not_true]
  simp [hrank, hsub, hmain']

/-- A half holds a block of expert e whose staging is not complete. -/
def stages (e : Nat) (l : List Staged) : Bool := l.any (fun x => decide (x.expert = e) && !x.complete)

theorem stages_iff {e : Nat} {l : List Staged} : stages e l = true ↔ ∃ b ∈ l, b.expert = e ∧ b.complete = false := by
  simp [stages]

theorem exec_finderStagingDone_of_serving (h : stages e.toNat (s.finder d).serving = true) :
    exec (.finderStagingDone d e) s = .next (s.setFinder d { s.finder d with
      serving := (s.finder d).serving.map (fun x => if x.expert = e.toNat then { x with complete := true } else x),
      stagedCount := satAdd (2 ^ 64 - 1) (s.finder d).stagedCount 1 }) :=
  if_pos h

theorem exec_finderStagingDone_of_filling (hserving : stages e.toNat (s.finder d).serving = false)
    (h : stages e.toNat (s.finder d).filling = true) :
    exec (.finderStagingDone d e) s = .next (s.setFinder d { s.finder d with
      filling := (s.finder d).filling.map (fun x => if x.expert = e.toNat then { x with complete := true } else x),
      stagedCount := satAdd (2 ^ 64 - 1) (s.finder d).stagedCount 1 }) :=
  (if_neg (ne_true_of_eq_false hserving)).trans (if_pos h)

end

/-- Settles O23, level by level, and then the two commands of the Finder. -/
theorem prefetchAndFinder : Obligations.PrefetchAndFinder := by
  refine ⟨fun g ch s c hrun => ⟨fun hok => ⟨?level0, ?level1⟩, ?level2, ?level3⟩, fun d e s => ⟨?rank, ?serving, ?filling⟩⟩
  case level0 => exact fun hlevel hdone => congrArg _ ((prefetchRange_of_ok hrun hlevel hok).trans (afterPages_of_done hdone))
  case level1 => exact fun hlevel hdone => congrArg _ ((prefetchRange_of_ok hrun hlevel hok).trans (afterPages_of_done hdone))
  case level2 => exact fun bs s1 hlevel hok hfetch => exec_prefetchLevel2_of_fetched hrun hlevel hok hfetch
  case level3 => exact exec_prefetchLevel3_of_ok hrun
  case rank => exact exec_finderRankTimeout_of_waiting
  case serving => exact fun b hb he hopen => exec_finderStagingDone_of_serving (stages_iff.mpr ⟨b, hb, he, hopen⟩)
  case filling =>
    intro b hb he hopen hserving
    refine exec_finderStagingDone_of_filling ?_ (stages_iff.mpr ⟨b, hb, he, hopen⟩)
    rw [Bool.eq_false_iff, ne_eq, stages_iff]
    rintro ⟨x, hx, hxe, hxopen⟩
    simp [hserving x hx hxe] at hxopen

end Sys2Proof.Proofs
end

section
/-! PROOFS. QUERY_STATISTICS (R166, R191, R280, R317): what a query gives once its packet is ready. -/

namespace Sys2Proof.Proofs

open Sys2Proof Sys2Proof.Machine

theorem giveRecord_of_short {s : State} {f r bytes : Nat} {q : BitVec 16} {p : Pkt} {rec : Bytes} (res : Bytes)
    (h : bytes < rec.length) : s.giveRecord f r q p bytes rec res = s.finish f r q 5 (natLe rec.length 8) :=
  if_pos h

theorem giveRecord_of_planned {s s1 : State} {f r bytes : Nat} {q : BitVec 16} {p : Pkt} {rec : Bytes} {ws : List Planned} (res : Bytes)
    (h : rec.length ≤ bytes) (hplan : s.planBuf (pktW f r q) p.ctx (p.field 24 8) rec p.direct = (.ok ws, s1)) :
    s.giveRecord f r q p bytes rec res = s1.finishWith f r q 0 res ws false := by
  unfold State.giveRecord
  rw [if_neg (not_lt.mpr h), hplan]
  rfl

section

variable {f : FnId} {r : RingId} {q : PktSeq} {s : State} {p : Pkt} {sel : Nat} {pfOnly : Bool} {rec : State → Pkt → Bytes}
  (hready : s.ready f r q 0x71 (fun p => decide (p.byte 16 = sel)) p = true)

include hready

theorem query_of_denied (hpf : pfOnly = true) (hfn : f.val ≠ 0) :
    s.query f r q sel pfOnly rec = .next ((s.begun f r q p).finish f r q 6 []) := by
  unfold State.query
  rw [State.packet_ready _ hready, if_pos (by simp [hpf, hfn])]
  rfl

theorem query_of_allowed (h : pfOnly = false ∨ f.val = 0) :
    s.query f r q sel pfOnly rec =
      let t := s.begun f r q p
      .next (t.giveRecord f r q p (p.field 32 8) (rec t p) (natLe (rec t p).length 8)) := by
  unfold State.query
  rw [State.packet_ready _ hready, if_neg (by rcases h with h | h <;> simp [h])]

/-- A query gives its record, unless it is the PF's alone. -/
theorem query_ends {o : Res} (ho : o = s.query f r q sel pfOnly rec) :
    let t := s.begun f r q p
    (pfOnly = true → f.val ≠ 0 → o = .next (t.finish f r q 6 [])) ∧
    (pfOnly = false ∨ f.val = 0 →
      (p.field 32 8 < (rec t p).length → o = .next (t.finish f r q 5 (natLe (rec t p).length 8))) ∧
      ((rec t p).length ≤ p.field 32 8 → ∀ ws s1,
        t.planBuf (pktW f r q) p.ctx (p.field 24 8) (rec t p) p.direct = (.ok ws, s1) →
          o = .next (s1.finishWith f r q 0 (natLe (rec t p).length 8) ws false))) := by
  intro t
  rw [ho]
  refine ⟨fun hpf hfn => query_of_denied hready hpf hfn, fun h => ?_⟩
  rw [query_of_allowed hready h]
  exact ⟨fun hshort => congrArg _ (giveRecord_of_short _ hshort),
    fun hlen ws s1 hplan => congrArg _ (giveRecord_of_planned _ hlen hplan)⟩

end

/-- Settles O38: each of the six rows is a query with its selector and its record. The layouts of selectors 3 and 4 are the model's
choice (log entry 46). -/
theorem queryPackets : Obligations.QueryPackets := by
  intro f r q s p t i sel pfOnly rec hrow hready
  simp only [List.mem_cons, List.not_mem_nil, or_false, Prod.mk.injEq] at hrow
  rcases hrow with ⟨rfl, rfl, rfl, rfl⟩ | ⟨rfl, rfl, rfl, rfl⟩ | ⟨rfl, rfl, rfl, rfl⟩ | ⟨rfl, rfl, rfl, rfl⟩ | ⟨rfl, rfl, rfl, rfl⟩ |
    ⟨rfl, rfl, rfl, rfl⟩
  · exact query_ends hready (execQuerySequenceCounts.eq_def f r q s)
  · exact query_ends hready (execQuerySequences.eq_def f r q s)
  · exact query_ends hready (execQueryFinder.eq_def f r q s)
  · exact query_ends hready (execQueryRegulators.eq_def f r q s)
  · exact query_ends hready (execQueryTranslationCaches.eq_def f r q s)
  · exact query_ends hready (execQueryRingCounts.eq_def f r q s)

end Sys2Proof.Proofs
end

section
/-! PROOFS. Targets that do not answer (R179, R221), and collectives that are not joined in time (R152). -/

namespace Sys2Proof.Proofs

open Sys2Proof Sys2Proof.Machine

/-! ### Writes to a target that does not answer (R179, R221) -/

section

variable (s : State) (g q : Nat)

/-- What neither a report nor the count in wbstat changes is as it was when the writes were taken off. -/
theorem abandonWrites_keeps {γ : Type} (view : State → γ) (hreport : ∀ s e, view (State.report s e) = view s)
    (hcount : ∀ s n, view (State.modCore s g (fun c => { c with wbstat := dropCount c.wbstat n })) = view s) :
    view (s.abandonWrites g q) =
      view (s.modCore g (fun c => { c with deadWrites := c.deadWrites.filter (fun w => w.q ≠ q) })) := by
  unfold State.abandonWrites
  extract_lets dead named taken reported
  have hreported : view reported = view taken := foldl_keeps view (fun s _ => hreport s _) dead taken
  clear_value reported dead
  split
  · split
    · rw [hreport, hcount, hreported]
    · exact hreported
  · exact hreported

theorem abandonWrites_mem : (s.abandonWrites g q).mem = s.mem :=
  abandonWrites_keeps s g q State.mem (fun _ _ => rfl) (fun _ _ => rfl)

theorem abandonWrites_core {γ : Type} (view : Core → γ) (hcount : ∀ c w, view { c with wbstat := w } = view c) :
    view ((s.abandonWrites g q).core g) =
      view { s.core g with deadWrites := (s.core g).deadWrites.filter (fun w => w.q ≠ q) } := by
  rw [abandonWrites_keeps s g q (fun s => view (s.core g)) (fun _ _ => rfl)
    (fun s n => by rw [State.modCore_core_self, hcount]), State.modCore_core_self]

end

theorem exec_targetTimeout_of_writes {g : CoreId} {q : QueueId} {s : State}
    (h : (s.core g).deadWrites.any (fun w => w.q = q.val) = true) :
    exec (.targetTimeout g q) s = .next (s.abandonWrites g q) :=
  if_pos h

/-! ### Reads from a target that does not answer (R179) -/

section

variable {g : CoreId} {ch : Chan} {s x : State} {c : EngCmd}

theorem exec_targetTimeout_of_channel {q : QueueId} (hq : q.val = 2 + ch.val)
    (hno : (s.core g).deadWrites.any (fun w => w.q = q.val) = false)
    (hrun : s.running g ch (fun t => decide (t ≤ 9)) = some c) :
    exec (.targetTimeout g q) s = .next (s.deadRead g ch c) := by
  change execTargetTimeout g q s = _
  unfold execTargetTimeout
  rw [if_neg (by simp only [hno, Bool.false_eq_true, not_false_eq_true]), if_neg (by omega), chan_of_queue hq]
  simp only [hrun]

theorem deadRead_of_descriptor (hpart : s.joins.find? (fun j => decide (j.phase = .running) && j.onQueue g (2 + ch.val)) = none)
    (hchecked : c.checked = true) (htype : dType (c.descriptor c.desc) ≤ 6)
    (htile : s.tile { dmaReq g ch c with abandon := true } (c.descriptor c.desc) c.tile = (.err 4, x)) :
    s.deadRead g ch c = x.halt g (2 + ch) 4 c.ticket := by
  simp [State.deadRead, hpart, hchecked, htype, htile]

theorem deadRead_of_part {j : Joined} {p : Part}
    (hpart : s.joins.find? (fun j => decide (j.phase = .running) && j.onQueue g (2 + ch.val)) = some j)
    (hmember : (s.parts j).find? (fun p => j.same p.j) = some p) (htile : s.memberTile p = (.err 4, x)) :
    s.deadRead g ch c = (x.partEnd p 4 false).closeColl j := by
  simp only [State.deadRead, hpart, hmember, htile]

end

/-! ### The watchdog (R152) -/

theorem exec_collectiveTimeout_of_waiting {g : CoreId} {ch : Chan} {s : State} {j : Joined}
    (h : s.joins.find? (fun j => j.onQueue g (2 + ch.val) && s.waitsForMembers j) = some j) :
    let e := s.group g (collGroup j.bytes)
    exec (.collectiveTimeout g ch) s =
      .next (((s.memberMap e.map e.members).foldl (fun x h => x.breakGroup e.map h)
        ((s.allEnd (s.parts j) 0x35).closeColl j)).report
          (event 16 (unitDie (g.val / 32)) (collId j.bytes + collGroup j.bytes <<< 16 + g.val <<< 20))) := by
  change execCollectiveTimeout g ch s = _
  simp only [execCollectiveTimeout, h]

/-- Settles O20: a queue's writes are taken off and the rest is reports, a read ends its descriptor or its part, and the watchdog ends
the open parts. Of which sources an abandoned write is reported (log entry 24) and that the watchdog bounds the wait for a member that
has failed too (log entry 111) are the model's choices. -/
theorem timeoutsOfTargetsAndCollectives : Obligations.TimeoutsOfTargetsAndCollectives := by
  refine ⟨fun g q s => ⟨fun hwrites => ?writes, fun ch c x hq hno hrun => ⟨?descriptor, ?part⟩⟩,
    fun g ch s j hwait => exec_collectiveTimeout_of_waiting hwait⟩
  case writes =>
    exact ⟨_, exec_targetTimeout_of_writes hwrites, abandonWrites_mem s g q,
      abandonWrites_core s g q Core.deadWrites (fun _ _ => rfl), abandonWrites_core s g q Core.x (fun _ _ => rfl),
      abandonWrites_core s g q Core.pc (fun _ _ => rfl)⟩
  case descriptor =>
    intro hpart hchecked htype htile
    rw [exec_targetTimeout_of_channel hq hno hrun, deadRead_of_descriptor hpart hchecked htype htile, hq]
  case part =>
    intro j p hpart hmember htile
    rw [exec_targetTimeout_of_channel hq hno hrun, deadRead_of_part hpart hmember htile]

end Sys2Proof.Proofs
end

section
/-! PROOFS. Ownership entries (R182, R187, R188, R195) and patrol scrub (R193, R194, R196). -/

namespace Sys2Proof.Proofs

open Sys2Proof Sys2Proof.Machine

/-! ### The entry of a granule (R182) -/

theorem mapFind_mapSet_of_ne {α : Type} [DecidableEq α] {k j : Nat} (d : α) (m : List (Nat × α)) (v : α) (h : j ≠ k) :
    mapFind (mapSet d m k v) j = mapFind m j := by
  unfold mapSet
  split
  · rw [mapFind_mapDel, if_neg h]
  · rw [mapFind_mapPut, if_neg h]

theorem setEntry_entryOf_self (s : State) {granule : Nat} (e : BitVec 32) (h : granuleOf granule = granule) :
    (s.setEntry granule e).entryOf granule = e &&& 0x7F_FFFF := by
  unfold State.entryOf
  rw [h]
  exact mapGet_mapSet_self _ s.own granule _

/-- Both sides take the default of the address that is read, whatever that of the entry written is. -/
theorem setEntry_entryOf_of_ne (s : State) {granule pa : Nat} (e : BitVec 32) (h : granuleOf pa ≠ granule) :
    (s.setEntry granule e).entryOf pa = s.entryOf pa :=
  congrArg (fun o => o.getD (s.ownDefault pa)) (mapFind_mapSet_of_ne _ s.own _ h)

/-! ### A granule that loses its contents (R188, R195) -/

theorem hbmStack_range {pa : Nat} (h : (hbmStack pa).isSome = true) : 0x20 ≤ paTarget pa ∧ paTarget pa ≤ 0x2B := by
  by_contra hout
  simp [hbmStack, hout] at h

theorem mapFind_filter_of_not {α : Type} (l : List (Nat × α)) (f : Nat → Bool) {j : Nat} (h : f j = false) :
    mapFind (l.filter (fun x => f x.1)) j = none := by
  induction l with
  | nil => rfl
  | cons x l ih =>
    obtain ⟨k, v⟩ := x
    cases hk : f k with
    | false => simp [hk, ih]
    | true =>
      have hne : j ≠ k := by rintro rfl; simp [hk] at h
      simp [hk, mapFind, hne, ih]

theorem unlisted_of_lost {m : Memory} {k d : Nat} (htarget : 0x20 ≤ paTarget k) (hkey : 2 ^ 51 ≤ k ∧ k < 2 ^ 52)
    (h : mapFind m.lost (k / 2 ^ 21) = some d) : m.unlisted k = Config.entryByte d (k % 2 ^ 21) := by
  unfold Memory.unlisted
  rw [if_neg (by simp; omega), if_pos (by simpa using hkey), h]

section

variable (m : Memory) {granule : Nat} (d : Nat) (halign : granule % 2 ^ 21 = 0)

include halign

theorem byte_loseGranule_apart {k : Nat} (h : k < granule ∨ granule + 2 ^ 21 ≤ k) : (m.loseGranule granule d).byte k = m.byte k := by
  have hcells : mapFind (m.loseGranule granule d).cells k = mapFind m.cells k :=
    mapFind_filter_of m.cells (fun x => decide (x < granule) || decide (granule + 2 ^ 21 ≤ x)) (by simpa using h)
  have hunlisted : (m.loseGranule granule d).unlisted k = m.unlisted k := by
    refine Memory.unlisted_congr (fun _ _ _ _ _ => rfl) (fun _ _ => ?_)
    change mapFind (mapPut m.lost (granule / 2 ^ 21) d) _ = _
    rw [mapFind_mapPut, if_neg (by omega)]
  unfold Memory.byte
  rw [hcells, hunlisted]

theorem byte_loseGranule_within (hstack : (hbmStack granule).isSome = true) (hpa : granule < 2 ^ 52) {i : Nat} (hi : i < 2 ^ 21) :
    (m.loseGranule granule d).byte (granule + i) = Config.entryByte d i := by
  have hin : (granule + i) / 2 ^ 21 * 2 ^ 21 = granule := by omega
  have hcells : mapFind (m.loseGranule granule d).cells (granule + i) = none :=
    mapFind_filter_of_not m.cells (fun x => decide (x < granule) || decide (granule + 2 ^ 21 ≤ x)) (by simp; omega)
  have htarget : paTarget (granule + i) = paTarget granule := by rw [← paTarget_granule, hin]
  have hrange := hbmStack_range hstack
  have hkey : 2 ^ 51 ≤ granule + i ∧ granule + i < 2 ^ 52 := by
    simp only [paTarget, bits, Nat.shiftRight_eq_div_pow] at hrange
    omega
  have hlost : mapFind (m.loseGranule granule d).lost ((granule + i) / 2 ^ 21) = some d := by
    change mapFind (mapPut m.lost (granule / 2 ^ 21) d) _ = _
    rw [mapFind_mapPut, if_pos (by omega)]
  unfold Memory.byte
  rw [hcells, unlisted_of_lost (by omega) hkey hlost, Option.getD_none, show (granule + i) % 2 ^ 21 = i by omega]

end

/-! ### Granules (R181) -/

section

variable {granule : Nat}

theorem granuleOf_of_exists (h : granuleExists granule = true) : granuleOf granule = granule := by
  simp only [granuleExists, Bool.and_eq_true, decide_eq_true_eq] at h
  exact h.1

theorem granuleOf_of_stack {pa : Nat} (h : (hbmStack pa).isSome = true) : granuleOf pa = pa / 2 ^ 21 * 2 ^ 21 := by
  have := (hbmStack_range h).1
  exact if_neg (by omega)

theorem aligned_of_exists (hexists : granuleExists granule = true) (hstack : (hbmStack granule).isSome = true) :
    granule % 2 ^ 21 = 0 := by
  have := (granuleOf_of_stack hstack).symm.trans (granuleOf_of_exists hexists)
  omega

/-- An address within 2 MiB from where a granule of a stack begins is an address of that granule. -/
theorem apart_of_granuleOf_ne {k : Nat} (hstack : (hbmStack granule).isSome = true) (halign : granule % 2 ^ 21 = 0)
    (h : granuleOf k ≠ granule) : k < granule ∨ granule + 2 ^ 21 ≤ k := by
  by_contra hin
  have hk : k / 2 ^ 21 * 2 ^ 21 = granule := by omega
  have hkstack : (hbmStack k).isSome = true := by rwa [← hbmStack_granule, hk]
  exact h ((granuleOf_of_stack hkstack).trans hk)

end

/-! ### The write of an entry (R187) -/

section

variable {s : State} {granule : Nat} {e : BitVec 32}

theorem rekey_of_kept (h : bits (s.entryOf granule).toNat 21 16 = bits e.toNat 21 16) : s.rekey granule e = s :=
  if_neg (by simp [h])

theorem rekey_of_changed (hstack : (hbmStack granule).isSome = true)
    (h : bits (s.entryOf granule).toNat 21 16 ≠ bits e.toNat 21 16) :
    s.rekey granule e = { s.draw.2 with mem := s.mem.loseGranule granule s.draw.1 } :=
  if_pos (by simp [hstack, h])

/-- A new key changes memory and the count of the values drawn. -/
theorem rekey_keeps {γ : Type} (view : State → γ) (h : ∀ m n, view { s with mem := m, fresh := n } = view s) :
    view (s.rekey granule e) = view s := by
  unfold State.rekey
  split
  · exact h _ _
  · rfl

theorem rekey_byte_of_other {k : Nat} (hexists : granuleExists granule = true) (h : granuleOf k ≠ granule) :
    (s.rekey granule e).mem.byte k = s.mem.byte k := by
  unfold State.rekey
  split
  · next hchanged =>
    have hstack := (Bool.and_eq_true_iff.mp hchanged).1
    have halign := aligned_of_exists hexists hstack
    exact byte_loseGranule_apart s.mem _ halign (apart_of_granuleOf_ne hstack halign h)
  · rfl

theorem exec_ownershipEntryWrite_of_exists {granule : BitVec 52} (h : granuleExists granule.toNat = true) :
    exec (.ownershipEntryWrite granule e) s = .next ((s.rekey granule.toNat e).setEntry granule.toNat e) :=
  if_pos h

end

/-! ### Patrol scrub (R193, R194, R196) -/

section

variable {w : BitVec 52} {cache : Bool} {s : State} (newer : Bool) (hword : scrubbed (w.toNat / 8 * 8) cache = true)

include hword

theorem exec_patrolScrub_of_poisoned (h : s.mem.poisoned (w.toNat / 8 * 8) 8 = true) (n : Nat) :
    exec (.patrolScrub ⟨w, cache⟩ n newer) s = .next (s.report (s.scrubEvent (w.toNat / 8 * 8) cache true)) := by
  change execPatrolScrub ⟨w, cache⟩ n newer s = _
  simp [execPatrolScrub, hword, h]

/-- What scrub makes of a word without poison: nothing flipped, one bit, and two with and without a newer write. -/
theorem exec_patrolScrub_of_clean (h : s.mem.poisoned (w.toNat / 8 * 8) 8 = false) :
    let k := w.toNat / 8 * 8
    exec (.patrolScrub ⟨w, cache⟩ 0 newer) s = .next s ∧
    exec (.patrolScrub ⟨w, cache⟩ 1 newer) s = .next (s.report (s.scrubEvent k cache false)) ∧
    exec (.patrolScrub ⟨w, cache⟩ 2 false) s = .next
      (({ s with mem := { s.mem with poison := setAdd s.mem.poison (k / 8) } } : State).report (s.scrubEvent k cache true)) ∧
    exec (.patrolScrub ⟨w, cache⟩ 2 true) s = .next (s.report (s.scrubEvent k cache true)) := by
  have hrow (n : Nat) (newer : Bool) : exec (.patrolScrub ⟨w, cache⟩ n newer) s = execPatrolScrub ⟨w, cache⟩ n newer s := rfl
  refine ⟨?_, ?_, ?_, ?_⟩ <;> simp [hrow, execPatrolScrub, hword, h]

end

/-- Settles O24: an entry write is a rekey, which touches the granule's own bytes alone, and then the entry; each other row is its own
equation. That a granule under a new key reads Config.entryByte of a draw is the model's choice (log entries 100 and 3). -/
theorem ownershipWindowsAndScrub : Obligations.OwnershipWindowsAndScrub := by
  refine ⟨fun granule e t s => ⟨fun hexists => ?entry, rfl, rfl⟩, fun h w cache newer s => ⟨rfl, ?clean, ?poisoned⟩⟩
  case entry =>
    refine ⟨_, exec_ownershipEntryWrite_of_exists hexists, setEntry_entryOf_self _ e (granuleOf_of_exists hexists), fun pa hpa => ?others,
      fun k hk => rekey_byte_of_other hexists hk, fun hkept => ?kept, ?lost,
      rekey_keeps State.cores (fun _ _ => rfl), rekey_keeps State.coh (fun _ _ => rfl), rekey_keeps State.ctxs (fun _ _ => rfl),
      rekey_keeps State.flt (fun _ _ => rfl)⟩
    case others => exact (setEntry_entryOf_of_ne _ e hpa).trans (rekey_keeps (fun s => s.entryOf pa) (fun _ _ => rfl))
    case kept =>
      change (s.rekey granule.toNat e).mem = s.mem
      rw [rekey_of_kept hkept]
    case lost =>
      intro hstack hchanged i hi
      have halign := aligned_of_exists hexists hstack
      change (s.rekey granule.toNat e).mem.byte (granule.toNat + i) = _
      rw [rekey_of_changed hstack hchanged]
      exact byte_loseGranule_within s.mem _ halign hstack granule.isLt hi
  case clean => exact fun hword hclean => exec_patrolScrub_of_clean newer hword hclean
  case poisoned => exact fun hword hpoison n => exec_patrolScrub_of_poisoned newer hword hpoison n

end Sys2Proof.Proofs
end

section
/-! PROOFS. Atomics (R57, R91, R211, R212), LR, SC and the end of a reservation (R213). -/

namespace Sys2Proof.Proofs

open Sys2Proof Sys2Proof.Machine

/-! ### The course of an atomic, LR or SC (R91, R211, R226) -/

/-- The sequencer issues an access on n bytes at p that takes no exception before readiness and has no store to wait for. -/
structure AtomicIssued (s : State) (g : CoreId) (p : Word) (n : Nat) (rl : Bool) : Prop where
  issue : s.canIssue g = true
  aligned : p.toNat % n = 0
  valid : s.shutOut g = false
  lawfulSpace : space p.toNat < 3
  named : s.mayName (s.seqReq g).fw (s.seqReq g).tag p.toNat n .atomic = true
  notStrict : s.strict g (s.seqReq g).fw (s.seqReq g).tag p.toNat = false
  released : rl = true → (s.core g).sb = []

/-- The ready place at p takes an atomic of q: it has one, no buffered store goes to its line, and its target does not refuse. -/
structure AtomicTaken (s : State) (g : CoreId) (q : Requester) (p : Word) : Prop where
  place : s.noAtomic q p.toNat = false
  unbuffered : s.buffersLine g (s.tgt q p.toNat).key = false
  granted : (isHostKey (s.tgt q p.toNat).key || s.allowed (s.tgt q p.toNat).key q.fw (s.tgt q p.toNat).host q.tag true) = true

section

variable {s s1 : State} {g : CoreId} {p : Word} {n : Nat} {rl : Bool}

theorem AtomicIssued.noFault (h : AtomicIssued s g p n rl) :
    (s.shutOut g || decide (3 ≤ space p.toNat) || !s.mayName (s.seqReq g).fw (s.seqReq g).tag p.toNat n .atomic ||
      s.strict g (s.seqReq g).fw (s.seqReq g).tag p.toNat) = false := by
  simp [h.valid, h.lawfulSpace, h.named, h.notStrict]

theorem AtomicIssued.noWait (h : AtomicIssued s g p n rl) : (rl && !(s.core g).sb.isEmpty) = false := by
  simpa using h.released

theorem AtomicTaken.notRefused {q : Requester} (h : AtomicTaken s g q p) :
    (!isHostKey (s.tgt q p.toNat).key && !s.allowed (s.tgt q p.toNat).key q.fw (s.tgt q p.toNat).host q.tag true) = false := by
  rw [← Bool.not_or, h.granted]
  rfl

/-! ### Atomics (R57, R91, R211, R212) -/

/-- How an atomic ends: it writes the new value, if there is one. -/
def atomicEnd (key n : Nat) (ctx : Option Nat) : Option Nat × State → State
  | (some v, s) => s.storeLine key (natLe v n) ctx
  | (none, s) => s

/-- Past its checks and with its place ready, an atomic does with the old value what its operation says. -/
theorem atomic_of_ready (h : AtomicIssued s g p n rl) (hprep : s.atomPrep (s.seqReq g) p.toNat n = (.ready, s1))
    (ht : AtomicTaken s1 g (s.seqReq g) p) (hclean : s1.mem.poisoned (s1.tgt (s.seqReq g) p.toNat).key n = false)
    (misaligned access pageFault : Nat) (refused : State → State) (act : State → Nat → Option Nat × State) :
    s.atomic g p n rl misaligned access pageFault refused act =
      atomicEnd (s1.tgt (s.seqReq g) p.toNat).key n (s.seqReq g).ctx (act s1 (s1.mem.nat (s1.tgt (s.seqReq g) p.toNat).key n)) := by
  unfold State.atomic
  dsimp only
  rw [if_neg (by simp [h.issue]), if_neg (by simp [h.aligned]), if_neg (by simp [h.noFault]), if_neg (by simp [h.noWait]), hprep]
  dsimp only
  rw [if_neg (by simp [ht.place]), if_neg (by simp [ht.unbuffered]), if_neg (by simp [ht.notRefused]), if_neg (by simp [hclean])]
  rfl

end

section

variable {s s1 : State} {g : CoreId} {rs1 : Reg} {n : Nat} {rl : Bool}
  (h : AtomicIssued s g ((s.core g).reg rs1) n rl)
  (hprep : s.atomPrep (s.seqReq g) ((s.core g).reg rs1).toNat n = (.ready, s1))
  (ht : AtomicTaken s1 g (s.seqReq g) ((s.core g).reg rs1))
  (hclean : s1.mem.poisoned (s1.tgt (s.seqReq g) ((s.core g).reg rs1).toNat).key n = false)
  (rd rs2 : Reg)

include h hprep ht hclean

theorem exec_amo_of_ready {op : AmoOp} {dbl : Bool} (aq : Bool) (hn : n = if dbl then 8 else 4) :
    let key := (s1.tgt (s.seqReq g) ((s.core g).reg rs1).toNat).key
    let old := s1.mem.nat key n
    exec (.amo g op dbl aq rl rd rs1 rs2) s = .next ((s1.modCore g (fun c => c.finish rd (sext (8 * n) old) 4)).storeLine key
      (natLe (amoResult op (8 * n) old (((s.core g).reg rs2).toNat % 2 ^ (8 * n))) n) (s.seqReq g).ctx) := by
  subst hn
  exact congrArg _ (atomic_of_ready h hprep ht hclean ..)

/-- Without deterministic mode a floating-point atomic is an atomic like the others. -/
theorem fpAtomic_of_free (f : Nat → Nat → Nat) (hfree : s1.boot.deterministic = false) :
    let key := (s1.tgt (s.seqReq g) ((s.core g).reg rs1).toNat).key
    let old := s1.mem.nat key n
    s.fpAtomic g n rl rd rs1 rs2 f = (s1.modCore g (fun c => c.finish rd (sext (8 * n) old) 4)).storeLine key
      (natLe (f old (((s.core g).reg rs2).toNat % 2 ^ (8 * n))) n) (s.seqReq g).ctx := by
  unfold State.fpAtomic
  dsimp only
  rw [atomic_of_ready h hprep ht hclean, if_neg (by simp [hfree])]
  rfl

/-- Deterministic mode refuses and counts a floating-point atomic. -/
theorem fpAtomic_of_deterministic (f : Nat → Nat → Nat) (hdet : s1.boot.deterministic = true) :
    s.fpAtomic g n rl rd rs1 rs2 f = { s1 with boot := { s1.boot with
      fpatomRefused := BitVec.ofNat 16 (satAdd 0xFFFF s1.boot.fpatomRefused.toNat 1) } }.except g 26 ((s.core g).reg rs1) := by
  unfold State.fpAtomic
  dsimp only
  rw [atomic_of_ready h hprep ht hclean, if_pos hdet]
  rfl

end

/-! ### Lines of host memory and reservations (R213, R361) -/

/-- A line of host memory that a sequencer writes becomes M in the device cache. -/
def hostLineM (s : State) (key : Nat) : State :=
  if isHostKey key then { s with coh := { s.coh with dc := mapPut s.coh.dc (lineOf (key - 2 ^ 64)) .m } } else s

theorem hostLineM_keeps {γ : Type} (view : State → γ) (hcoh : ∀ (s : State) (c : Coh), view { s with coh := c } = view s) (s : State)
    (key : Nat) : view (hostLineM s key) = view s := by
  unfold hostLineM
  split
  · exact hcoh ..
  · rfl

/-- What a lookup finds in a map whose values are changed by their keys, the default staying as it is. -/
theorem mapGet_map_values {α : Type} {d : α} {f : Nat × α → Nat × α} {v : Nat → α → α} (hf : ∀ p, f p = (p.1, v p.1 p.2))
    (hd : ∀ k, v k d = d) (m : List (Nat × α)) (k : Nat) : mapGet d (m.map f) k = v k (mapGet d m k) := by
  induction m with
  | nil => exact (hd k).symm
  | cons p m ih =>
    rw [List.map_cons, hf]
    unfold mapGet at ih ⊢
    rw [mapFind, mapFind]
    split
    next hk => rw [hk]; rfl
    next => exact ih

/-- A lost reservation is the only change of a core, and one's own is not lost. -/
theorem loseResv_core (s : State) (line g h : Nat) : (s.loseResv line g).core h =
    if h ≠ g ∧ (s.core h).resv = some line then { s.core h with resv := none } else s.core h := by
  refine mapGet_map_values (d := Core.reset) (v := fun k c => if k ≠ g ∧ c.resv = some line then { c with resv := none } else c)
    (fun p => ?_) (fun k => ?_) s.cores h
  · by_cases hp : p.1 ≠ g ∧ p.2.resv = some line <;> simp [hp]
  · exact if_neg (by simp [Core.reset])

/-! ### An SC that succeeds (R213) -/

/-- The core after an SC that succeeds: the count of failures in succession starts again. -/
def scPassed (rd : Reg) (c : Core) : Core := { c.finish rd 0 4 with resv := none, scFails := 0 }

/-- The state after an SC that succeeds: its bytes are written, and the reservations of others on the line are lost. -/
def scDone (s : State) (g : CoreId) (rd : Reg) (key : Nat) (bs : Bytes) : State :=
  ((hostLineM { s.draw.2 with mem := s.mem.store key bs } key).loseResv (lineOf key) g).modCore g (scPassed rd)

section

variable (s : State) (g : CoreId) (rd : Reg) (key : Nat) (bs : Bytes)

theorem scDone_mem : (scDone s g rd key bs).mem = s.mem.store key bs :=
  hostLineM_keeps State.mem (fun _ _ => rfl) { s.draw.2 with mem := s.mem.store key bs } key

/-- Before the core retires its SC, only others' reservations on the line differ. -/
theorem scWritten_core (h : Nat) :
    ((hostLineM { s.draw.2 with mem := s.mem.store key bs } key).loseResv (lineOf key) g).core h =
      if h ≠ g ∧ (s.core h).resv = some (lineOf key) then { s.core h with resv := none } else s.core h := by
  have hcore : (hostLineM { s.draw.2 with mem := s.mem.store key bs } key).core h = s.core h :=
    hostLineM_keeps (fun t => t.core h) (fun _ _ => rfl) _ key
  rw [loseResv_core, hcore]

theorem scDone_core_self : (scDone s g rd key bs).core g = scPassed rd (s.core g) := by
  rw [scDone, State.modCore_core_self, scWritten_core, if_neg (fun h => h.1 rfl)]

theorem scDone_resv_of_ne {h : Nat} (hne : h ≠ g.val) : ((scDone s g rd key bs).core h).resv =
    if (s.core h).resv = some (lineOf key) then none else (s.core h).resv := by
  rw [scDone, State.modCore_core, if_neg hne, scWritten_core]
  simp only [ne_eq, hne, not_false_eq_true, true_and]
  split <;> rfl

end

/-- An instruction that retires moves pc past its word. -/
theorem finish_pc (c : Core) (rd : Reg) (v : Word) (len : Nat) : (c.finish rd v len).pc = c.pc + BitVec.ofNat 64 len :=
  congrArg (· + BitVec.ofNat 64 len) (setReg_pc c rd v)

/-- A register into which an instruction retires 0 reads 0, x0 too. -/
theorem finish_zero_reg (c : Core) (rd : Reg) (len : Nat) : (c.finish rd 0 len).reg rd = 0 := by
  rw [Core.finish, reg_of_x (retire_x _ _), Core.setReg_reg]
  split
  · rfl
  next hrd =>
    have hzero : rd = 0 := by simpa using hrd
    rw [hzero]
    exact Core.reg_zero c

/-! ### LR and SC (R213) -/

section

variable {s s1 : State} {g : CoreId} {rs1 : Reg} {dbl rl : Bool}
  (h : AtomicIssued s g ((s.core g).reg rs1) (if dbl then 8 else 4) rl)

include h

/-- An SC of a core that holds no reservation fails before it asks for its place. -/
theorem exec_sc_of_unreserved (aq : Bool) (rd rs2 : Reg) (hresv : (s.core g).resv = none) :
    exec (.sc g dbl aq rl rd rs1 rs2) s = .next (s.modCore g (fun c => { c.finish rd 1 4 with resv := none })) := by
  change execSc g dbl aq rl rd rs1 rs2 s = _
  unfold execSc
  dsimp only
  rw [if_neg (by simp [h.issue]), if_neg (by simp [h.aligned]), if_neg (by simp [h.noFault]), if_neg (by simp [h.noWait]), if_pos hresv]

variable (hprep : s.seqPrep (s.seqReq g) ((s.core g).reg rs1).toNat (if dbl then 8 else 4) .atomic = (.ready, s1))
  (ht : AtomicTaken s1 g (s.seqReq g) ((s.core g).reg rs1))

include hprep ht

theorem exec_lr_of_ready (aq : Bool) (rd : Reg) {bs : Bytes} {s2 : State}
    (hread : s1.readRange (s.seqReq g) (s1.unitCore g) ((s.core g).reg rs1).toNat (if dbl then 8 else 4) = (some bs, s2)) :
    exec (.lr g dbl aq rl rd rs1) s = .next (s2.modCore g (fun c =>
      { c.finish rd (sext (8 * if dbl then 8 else 4) (leNat bs)) 4 with
        resv := some (lineOf (s1.tgt (s.seqReq g) ((s.core g).reg rs1).toNat).key) })) := by
  change execLr g dbl aq rl rd rs1 s = _
  unfold execLr
  dsimp only
  rw [if_neg (by simp [h.issue]), if_neg (by simp [h.aligned]), if_neg (by simp [h.noFault]), if_neg (by simp [h.noWait]), hprep]
  dsimp only
  rw [if_neg (by simp [ht.place]), if_neg (by simp [ht.unbuffered]), if_neg (by simp [ht.notRefused]), hread]

/-- An SC that holds the reservation fails or succeeds by the open draw. -/
theorem exec_sc_of_reserved (aq : Bool) (rd rs2 : Reg) (hresv : (s.core g).resv ≠ none)
    (hline : (s1.core g).resv = some (lineOf (s1.tgt (s.seqReq g) ((s.core g).reg rs1).toNat).key))
    (hclean : s1.mem.poisoned (s1.tgt (s.seqReq g) ((s.core g).reg rs1).toNat).key (if dbl then 8 else 4) = false) :
    exec (.sc g dbl aq rl rd rs1 rs2) s = .next
      (if s1.draw.1 % 2 = 1 ∧ (s1.core g).scFails < Config.unstated 213 g then
        (s1.draw.2.modCore g (fun c => { c.finish rd 1 4 with resv := none })).modCore g (fun c => { c with scFails := c.scFails + 1 })
      else scDone s1 g rd (s1.tgt (s.seqReq g) ((s.core g).reg rs1).toNat).key
        (natLe ((s.core g).reg rs2).toNat (if dbl then 8 else 4))) := by
  change execSc g dbl aq rl rd rs1 rs2 s = _
  unfold execSc
  dsimp only
  rw [if_neg (by simp [h.issue]), if_neg (by simp [h.aligned]), if_neg (by simp [h.noFault]), if_neg (by simp [h.noWait]), if_neg hresv,
    hprep]
  dsimp only
  rw [if_neg (by simp [ht.place]), if_neg (by simp [ht.unbuffered]), if_neg (by simp [ht.notRefused]), if_neg (by simp [hclean]),
    if_neg (by simp [hline])]
  simp only [Bool.and_eq_true, decide_eq_true_eq]
  split
  · rfl
  · rfl

end

/-- Settles O7: past its checks and with its place ready, each command is its own equation; an SC that succeeds is the state scDone.
That the draw is an open value is the model's choice (log entries 3 and 4). -/
theorem atomicsAndReservations : Obligations.AtomicsAndReservations := by
  refine ⟨?atomics, ?reservations⟩
  case atomics =>
    intro g aq rl rd rs1 rs2 s s1 n op dbl p v q t old fin put refuse
      hissue halign hshut hspace hname hstrict hrel hprep hplace hbuffer hgrant hclean
    have h : AtomicIssued s g p n rl := ⟨hissue, halign, hshut, hspace, hname, hstrict, hrel⟩
    have ht : AtomicTaken s1 g q p := ⟨hplace, hbuffer, hgrant⟩
    have hfree := fpAtomic_of_free h hprep ht hclean rd rs2
    have hrefused := fpAtomic_of_deterministic h hprep ht hclean rd rs2
    refine ⟨fun hn => exec_amo_of_ready h hprep ht hclean rd rs2 aq hn, ?single, ?half, fun hdet => ⟨?singleRefused, ?halfRefused⟩⟩
    case single =>
      rintro rfl hdet
      exact ⟨congrArg _ (hfree _ hdet), congrArg _ (hfree _ hdet)⟩
    case half =>
      rintro rfl hdet
      exact ⟨congrArg _ (hfree _ hdet), congrArg _ (hfree _ hdet)⟩
    case singleRefused =>
      rintro rfl
      exact ⟨congrArg _ (hrefused _ hdet), congrArg _ (hrefused _ hdet)⟩
    case halfRefused =>
      rintro rfl
      exact ⟨congrArg _ (hrefused _ hdet), congrArg _ (hrefused _ hdet)⟩
  case reservations =>
    intro g dbl aq rl rd rs1 rs2 s s1 n p q t fail
      hissue halign hshut hspace hname hstrict hrel hprep hplace hbuffer hgrant
    have h : AtomicIssued s g p n rl := ⟨hissue, halign, hshut, hspace, hname, hstrict, hrel⟩
    have ht : AtomicTaken s1 g q p := ⟨hplace, hbuffer, hgrant⟩
    refine ⟨fun bs s2 hread => exec_lr_of_ready h hprep ht aq rd hread, exec_sc_of_unreserved h aq rd rs2,
      fun hresv hline hclean => ?_, rfl⟩
    have hsc := exec_sc_of_reserved h hprep ht aq rd rs2 hresv hline hclean
    refine ⟨fun hdraw => ?fails, fun hdraw => ?succeeds⟩
    case fails => rw [hsc, if_pos hdraw]
    case succeeds =>
      have hself := scDone_core_self s1 g rd t.key (natLe ((s.core g).reg rs2).toNat n)
      refine ⟨_, hsc.trans (congrArg _ (if_neg hdraw)), scDone_mem .., ?reg, ?resv, ?pc, fun h hne => scDone_resv_of_ne s1 g rd _ _ hne⟩
      case reg => exact (congrArg (Core.reg · rd) hself).trans (finish_zero_reg (s1.core g) rd 4)
      case resv => exact congrArg Core.resv hself
      case pc => exact (congrArg Core.pc hself).trans (finish_pc (s1.core g) rd 0 4)

end Sys2Proof.Proofs
end

section
/-! PROOFS. Stores and the store buffer (R199, R203, R210, R214): a store enters the buffer or is performed at once, and an entry drains
line by line. -/

namespace Sys2Proof.Proofs

open Sys2Proof Sys2Proof.Machine

/-! ### Pages made ready for the buffer (R228, R230, R233) -/

section

variable {γ : Type} (view : State → γ) (hxlt : ∀ (s : State) (x : Xlt) (o : List OutMsg), view { s with xlt := x, out := o } = view s)

include hxlt

theorem askAts_keeps (s : State) (hub fn pasid va : Nat) (noWrite : Bool) : view (s.askAts hub fn pasid va noWrite) = view s := by
  unfold State.askAts
  extract_lets page one
  split
  · rfl
  · split
    · exact hxlt s _ s.out
    · split
      · rfl
      · split
        · rfl
        · exact hxlt s _ _

variable (hcore : ∀ (s : State) (g : Nat) (f : Core → Core), view (s.modCore g f) = view s)

include hcore

omit hxlt in
theorem countFault_keeps (s : State) (who : Waiter) : view (s.countFault who) = view s := by
  unfold State.countFault
  split
  · exact hcore ..
  · rfl

theorem needPage_keeps (s : State) (who : Waiter) (hub fn pasid va : Nat) (rd wr hasEntry : Bool) :
    view (s.needPage who hub fn pasid va rd wr hasEntry).2 = view s := by
  unfold State.needPage
  split
  · split
    · exact hxlt s _ s.out
    · exact askAts_keeps view hxlt ..
    · rfl
  · split
    · exact countFault_keeps view hcore ..
    · dsimp only
      split
      · exact (countFault_keeps view hcore ..).trans (hxlt s _ s.out)
      · exact (askAts_keeps view hxlt ..).trans (hxlt s _ s.out)

/-- Resolving an address changes only the translation state, what is sent and the counters of a core. -/
theorem resolve_keeps (s : State) (who : Waiter) (unit : Option Nat) (hub fn pasid va : Nat) (rd wr : Bool) :
    view (s.resolve who unit hub fn pasid va rd wr).2 = view s := by
  unfold State.resolve
  dsimp only
  split
  · split
    · exact hxlt s _ s.out
    · exact (needPage_keeps view hxlt hcore ..).trans (hxlt s _ s.out)
  · exact (needPage_keeps view hxlt hcore ..).trans (hxlt s _ s.out)

end

theorem touchL1_mem (s : State) (q : Requester) (ptr : Nat) : (s.touchL1 q ptr).mem = s.mem := by
  unfold State.touchL1
  split
  · split <;> rfl
  · rfl

theorem storePrep_mem (s : State) (q : Requester) (ptr len : Nat) : (s.storePrep q ptr len).2.mem = s.mem := by
  unfold State.storePrep
  split
  · refine foldl_keeps (fun x : Ready × State => x.2.mem) (fun x p => ?_) _ _
    have hpage := resolve_keeps State.mem (fun _ _ _ => rfl) (fun _ _ _ => rfl) x.2 q.who q.unit (q.g / 128) (s.reqFn q)
      (s.reqPasid q) p.1 false true
    split
    next h => rwa [h] at hpage
    next h => rwa [h] at hpage
    next h => rwa [h] at hpage
  · exact touchL1_mem ..

/-! ### STORE (R203, R214) -/

section

variable {g : CoreId} {rs1 rs2 : Reg} {imm : BitVec 12} {size : MemSize} {s : State} {a : Word} (c : Bool)
  (ha : effAddr ((s.core g).reg rs1) imm = a) (hissue : s.canIssue g = true) (hshut : s.shutOut g = false)
  (hname : s.mayName (s.seqReq g).fw (s.seqReq g).tag a.toNat (storeBytes size) .write = true)

include ha hissue hshut hname

/-- A store whose pages are ready retires into a buffer that has room. -/
theorem exec_store_of_room {s1 : State}
    (hstrict : s.strictRange g (s.seqReq g).fw (s.seqReq g).tag a.toNat (storeBytes size) = false)
    (hprep : s.storePrep (s.seqReq g) a.toNat (storeBytes size) = (.ready, s1)) :
    let es := sbEntries a.toNat (natLe ((s.core g).reg rs2).toNat (storeBytes size)) (s.seqReq g)
      (!(s.core g).machineMode && bit (s.core g).wctx.toNat 32)
    (s1.core g).sbRoom es = true →
      exec (.store g rs1 rs2 imm size c) s = .next (s1.modCore g (fun x => (es.foldl Core.buffer x).retire (instrLen c))) := by
  intro es hroom
  subst ha
  change execStore g rs1 rs2 imm size c s = _
  unfold execStore
  dsimp only
  rw [if_neg (by simp [hissue]), if_neg (by simp [hshut, hname]), if_neg (by simp [hstrict]), hprep]
  exact congrArg _ (if_pos hroom)

/-- A device-strict store that its target takes and answers is performed at once. -/
theorem exec_store_of_strict (hstrict : s.strictRange g (s.seqReq g).fw (s.seqReq g).tag a.toNat (storeBytes size) = true)
    (halign : a.toNat % storeBytes size = 0) (hfree : s.strictPending g = false)
    (hallowed : s.allowed (s.physOf g (s.seqReq g).fw (s.seqReq g).tag a.toNat) (s.seqReq g).fw false (s.seqReq g).tag true = true)
    (hanswers : s.answers (s.physOf g (s.seqReq g).fw (s.seqReq g).tag a.toNat) = true) :
    exec (.store g rs1 rs2 imm size c) s = .next
      ((s.writeRange (s.seqReq g) (s.unitCore g) a.toNat (natLe ((s.core g).reg rs2).toNat (storeBytes size))).modCore g
        (fun x => x.retire (instrLen c))) := by
  subst ha
  change execStore g rs1 rs2 imm size c s = _
  unfold execStore
  dsimp only
  rw [if_neg (by simp [hissue]), if_neg (by simp [hshut, hname]), if_pos hstrict, if_neg (by simp [halign]), if_neg (by simp [hfree]),
    if_neg (by simp [hallowed]), if_pos hanswers]

end

/-! ### A line of a store is performed (R194, R199, R210) -/

/-- The bytes of a line by their keys. -/
def keyed (key : Nat) (bs : List (Nat × Byte)) : List (Nat × Byte) := bs.map (fun b => (key + b.1, b.2))

/-- Memory with each byte of a list written at its key. -/
def putAll (m : Memory) (part : List (Nat × Byte)) : Memory := part.foldl (fun m b => m.put b.1 b.2) m

theorem byte_putAll_of_notMem {part : List (Nat × Byte)} {j : Nat} (h : ∀ b ∈ part, b.1 ≠ j) (m : Memory) :
    (putAll m part).byte j = m.byte j := by
  refine List.foldlRecOn (motive := fun x => Memory.byte x j = m.byte j) part _ rfl (fun x hx b hb => ?_)
  rw [Memory.byte_put, if_neg (h b hb).symm, hx]

theorem byte_putAll_of_mem {part : List (Nat × Byte)} (hnodup : (part.map (·.1)).Nodup) {b : Nat × Byte} (hb : b ∈ part) (m : Memory) :
    (putAll m part).byte b.1 = b.2 := by
  induction part generalizing m with
  | nil => cases hb
  | cons p part ih =>
    obtain ⟨hp, hrest⟩ := List.nodup_cons.mp hnodup
    rcases List.mem_cons.mp hb with rfl | hb
    · refine (byte_putAll_of_notMem (fun x hx hkey => hp (List.mem_map.mpr ⟨x, hx, hkey⟩)) (m.put b.1 b.2)).trans ?_
      rw [Memory.byte_put, if_pos rfl]
    · exact ih hrest hb _

/-- The poisoned words that a line writes only in part (R194). -/
def partlyWritten (poison : List Nat) (part : List (Nat × Byte)) : List Nat :=
  poison.filter (fun w => part.any (fun b => b.1 / 8 = w) && !((List.range 8).all (fun i => part.any (fun b => b.1 = 8 * w + i))))

theorem partlyWritten_of_clean {poison : List Nat} {part : List (Nat × Byte)} (h : ∀ w ∈ poison, ∀ b ∈ part, w ≠ b.1 / 8) :
    partlyWritten poison part = [] := by
  refine List.filter_eq_nil_iff.mpr (fun w hw => ?_)
  have hnone : part.any (fun b => b.1 / 8 = w) = false := by simpa using fun a v hb => (h w hw (a, v) hb).symm
  simp [hnone]

/-- A performed line of memory writes the bytes that do not lie in a word it leaves poisoned. -/
theorem performLine_byte {s : State} {q : Requester} {l : Nat × List (Nat × Byte)} (hio : (s.tgt q l.1).io = false) (g : Nat) (j : Nat) :
    let part := keyed (s.tgt q l.1).key l.2
    (s.performLine g q l).mem.byte j =
      (putAll s.mem (part.filter (fun b => !(partlyWritten s.mem.poison part).contains (b.1 / 8)))).byte j := by
  intro part
  unfold State.performLine
  dsimp only
  rw [if_neg (by simp [hio])]
  simp only [apply_ite State.mem, State.report_mem, State.loseResv_mem, ite_self]
  rfl

/-- Where no byte of the line lies in a poisoned word, every byte is written. -/
theorem performLine_byte_of_clean {s : State} {q : Requester} {l : Nat × List (Nat × Byte)} (hio : (s.tgt q l.1).io = false)
    (hclean : ∀ w ∈ s.mem.poison, ∀ b ∈ l.2, w ≠ ((s.tgt q l.1).key + b.1) / 8) (g j : Nat) :
    (s.performLine g q l).mem.byte j = (putAll s.mem (keyed (s.tgt q l.1).key l.2)).byte j := by
  have hpoison : partlyWritten s.mem.poison (keyed (s.tgt q l.1).key l.2) = [] :=
    partlyWritten_of_clean (fun w hw => List.forall_mem_map.mpr (hclean w hw))
  rw [performLine_byte hio, hpoison]
  simp

section

variable {s : State} {q : Requester} {l : Nat × List (Nat × Byte)} (hio : (s.tgt q l.1).io = false)
  (hclean : ∀ w ∈ s.mem.poison, ∀ b ∈ l.2, w ≠ ((s.tgt q l.1).key + b.1) / 8) (g : Nat)

include hio hclean

theorem performLine_byte_written (hnodup : (l.2.map (·.1)).Nodup) {b : Nat × Byte} (hb : b ∈ l.2) :
    (s.performLine g q l).mem.byte ((s.tgt q l.1).key + b.1) = b.2 := by
  have hkeys : ((keyed (s.tgt q l.1).key l.2).map (·.1)).Nodup := by
    have hshift : (keyed (s.tgt q l.1).key l.2).map (·.1) = (l.2.map (·.1)).map ((s.tgt q l.1).key + ·) := by
      simp [keyed, Function.comp_def]
    rw [hshift]
    exact hnodup.map (fun _ _ => Nat.add_left_cancel)
  rw [performLine_byte_of_clean hio hclean]
  exact byte_putAll_of_mem hkeys (List.mem_map.mpr ⟨b, hb, rfl⟩) s.mem

theorem performLine_byte_other {j : Nat} (hj : ∀ b ∈ l.2, j ≠ (s.tgt q l.1).key + b.1) :
    (s.performLine g q l).mem.byte j = s.mem.byte j := by
  rw [performLine_byte_of_clean hio hclean]
  exact byte_putAll_of_notMem (List.forall_mem_map.mpr (fun b hb => (hj b hb).symm)) s.mem

end

/-! ### STORE_BUFFER_DRAIN (R199, R203, R210) -/

/-- The bytes of an entry that leave the buffer with a word: a FIFO entry's are all its bytes. -/
def sbDrained (e : SbEntry) (w : Fin 8) : List (Nat × Byte) := if e.merge then e.bytes.filter (fun b => b.1 / 8 = w.val) else e.bytes

/-- The bytes of an entry that stay. -/
def sbRemaining (e : SbEntry) (w : Fin 8) : List (Nat × Byte) := if e.merge then e.bytes.filter (fun b => b.1 / 8 ≠ w.val) else []

/-- The lines of a store made ready one after the other. -/
def prepLines (s : State) (q : Requester) (ls : List (Nat × List (Nat × Byte))) : Ready × State :=
  ls.foldl (fun (a : Ready × State) l => let r := a.2.seqPrep q l.1 1 .write; (a.1.and r.1, r.2)) (.ready, s)

/-- The buffer of a core once its i-th entry keeps only some of its bytes. -/
def sbAfter (c : Core) (i : Nat) (e : SbEntry) (rest : List (Nat × Byte)) : Core :=
  { c with sb := if rest.isEmpty then c.sb.eraseIdx i else c.sb.set i { e with bytes := rest } }

/-- An entry whose lines are ready, and taken and answered by their targets, drains. -/
theorem exec_storeBufferDrain_of_ready {g : CoreId} {i : Nat} {w : Fin 8} {s s1 : State} {e : SbEntry}
    (hentry : (s.core g).sb[i]? = some e) (hsome : sbDrained e w ≠ []) (hup : s.coreUp g = true) (hmay : mayDrain (s.core g).sb i = true)
    (hprep : prepLines s (s.sbReq g e) (sbLines e.line (sbDrained e w)) = (.ready, s1))
    (htake : ∀ l ∈ sbLines e.line (sbDrained e w),
      s1.lineRefused (s.sbReq g e) l.1 = false ∧ s1.lineAnswers (s.sbReq g e) l.1 = true) :
    exec (.storeBufferDrain g i w) s = .next
      (((sbLines e.line (sbDrained e w)).foldl (fun x l => x.performLine g (s.sbReq g e) l) s1).modCore g
        (fun c => sbAfter c i e (sbRemaining e w))) := by
  have hanswer : (sbLines e.line (sbDrained e w)).any
      (fun l => !s1.lineRefused (s.sbReq g e) l.1 && !s1.lineAnswers (s.sbReq g e) l.1) = false :=
    List.any_eq_false.mpr (fun l hl => by simp [htake l hl])
  have hnone : (sbLines e.line (sbDrained e w)).filter (fun l => s1.lineRefused (s.sbReq g e) l.1) = [] :=
    List.filter_eq_nil_iff.mpr (fun l hl => by simp [htake l hl])
  have hall : (sbLines e.line (sbDrained e w)).filter (fun l => !s1.lineRefused (s.sbReq g e) l.1) = sbLines e.line (sbDrained e w) :=
    List.filter_eq_self.mpr (fun l hl => by simp [htake l hl])
  change execStoreBufferDrain g i w s = _
  unfold prepLines at hprep
  unfold execStoreBufferDrain
  rw [hentry]
  unfold sbDrained at *
  dsimp only
  rw [if_neg (by simp [hsome, hup, hmay]), hprep]
  dsimp only
  rw [hanswer, hnone, hall]
  rfl

/-- Settles O6: a store enters the buffer, or is performed at once where it is device-strict; what drains is performed line by line, and a
line without poison under its bytes writes them alone. -/
theorem storesBufferedThenDrained : Obligations.StoresBufferedThenDrained := by
  refine ⟨?store, ?drain⟩
  case store =>
    intro g rs1 rs2 imm size c s s1 a n bs q es hissue hshut hname
    refine ⟨fun hstrict hprep hroom => ⟨exec_store_of_room c rfl hissue hshut hname hstrict hprep hroom, ?mem⟩,
      fun hstrict halign hfree hallowed hanswers =>
        exec_store_of_strict c rfl hissue hshut hname hstrict halign hfree hallowed hanswers⟩
    case mem =>
      have hmem := storePrep_mem s q a.toNat n
      rwa [hprep] at hmem
  case drain =>
    intro g i w s s1 e part rest q ls hentry hsome hup hmay hprep htake
    refine ⟨exec_storeBufferDrain_of_ready hentry hsome hup hmay hprep htake, ?_⟩
    intro l _ hio hnodup k hclean
    exact ⟨fun b hb => performLine_byte_written hio hclean g hnodup hb, fun j hj => performLine_byte_other hio hclean g hj⟩

end Sys2Proof.Proofs
end

section
/-! PROOFS. PREFETCH, ADVISE, FLUSH and FENCE (R244, R310 to R313): what each row does with the packet that is ready. -/

namespace Sys2Proof.Proofs

open Sys2Proof Sys2Proof.Machine

/-- Past the last entry a copying PREFETCH ends with what it has copied. -/
theorem copyEntries_of_end (f r : Nat) (q : BitVec 16) {p : Pkt} {i : Nat} (h : p.field 32 8 ≤ i) (n : Nat) (s : State) :
    State.copyEntries f r q p i (n + 1) s = s.finish f r q 0 (natLe i 8 ++ natLe 0 8) :=
  if_pos h

section

variable {f : FnId} {r : RingId} {q : PktSeq} {s : State} {p : Pkt}

/-- A row that is the frame of a packet carries out the packet that is ready. -/
theorem carried_of_ready {o : Res} {op : Nat} {sel : Pkt → Bool} {k : Pkt → State → State} (ho : o = s.packet f r q op sel k)
    (hready : s.ready f r q op sel p = true) : o = .next (k p (s.begun f r q p)) :=
  ho.trans (State.packet_ready k hready)

/-! ### PREFETCH (R244, R310) -/

theorem exec_prefetch_of_ready {m : Nat} (hm : m < 2) (hready : s.ready f r q 0x40 (fun p => decide (p.byte 16 = m)) p = true) :
    exec (if m = 0 then .prefetchTranslate f r q else .prefetchTranslateFaults f r q) s =
      .next ((s.begun f r q p).prefetch f r q p (decide (m = 1))) := by
  rcases Nat.le_one_iff_eq_zero_or_eq_one.mp (Nat.le_of_lt_succ hm) with rfl | rfl
  · exact carried_of_ready (execPrefetchTranslate.eq_def f r q s) hready
  · exact carried_of_ready (execPrefetchTranslateFaults.eq_def f r q s) hready

theorem exec_prefetchCopy_of_ready (hready : s.ready f r q 0x40 (fun p => decide (p.byte 16 = 2)) p = true) :
    exec (.prefetchCopy f r q) s =
      .next (State.copyEntries f r q p p.progress (p.field 32 8 - p.progress + 1) (s.begun f r q p)) :=
  carried_of_ready (execPrefetchCopy.eq_def f r q s) hready

theorem exec_prefetchCopy_of_copied (hready : s.ready f r q 0x40 (fun p => decide (p.byte 16 = 2)) p = true)
    (hall : p.progress = p.field 32 8) :
    exec (.prefetchCopy f r q) s = .next ((s.begun f r q p).finish f r q 0 (natLe (p.field 32 8) 8 ++ natLe 0 8)) := by
  rw [exec_prefetchCopy_of_ready hready, hall, copyEntries_of_end _ _ _ le_rfl]

/-! ### ADVISE (R244, R311) -/

theorem exec_adviseAdd_of_room (hready : s.ready f r q 0x41 (fun p => decide (p.byte 16 = 0)) p = true)
    (hroom : ((s.begun f r q p).ctx p.ctx).advice.length < 64) :
    let t := s.begun f r q p
    let c := t.ctx p.ctx
    let a : Advice :=
      { start := BitVec.ofNat 64 (p.field 24 8), len := BitVec.ofNat 64 (p.field 32 8), preferHdm := bit (p.byte 17) 0,
        readMostly := bit (p.byte 17) 1 }
    exec (.adviseAdd f r q) s = .next ((t.setCtx p.ctx { c with advice := c.advice ++ [a] }).finish f r q 0 []) := by
  refine (carried_of_ready (execAdviseAdd.eq_def f r q s) hready).trans ?_
  dsimp only
  rw [if_neg (not_le.mpr hroom)]
  rfl

theorem exec_adviseRemove_of_ready (hready : s.ready f r q 0x41 (fun p => decide (p.byte 16 = 1)) p = true) :
    let t := s.begun f r q p
    let c := t.ctx p.ctx
    exec (.adviseRemove f r q) s =
      .next ((t.setCtx p.ctx { c with advice := c.advice.filter (fun a => a.start.toNat ≠ p.field 24 8) }).finish f r q 0 []) :=
  carried_of_ready (execAdviseRemove.eq_def f r q s) hready

theorem exec_adviseClear_of_ready (hready : s.ready f r q 0x41 (fun p => decide (p.byte 16 = 2)) p = true) :
    let t := s.begun f r q p
    exec (.adviseClear f r q) s = .next ((t.setCtx p.ctx { t.ctx p.ctx with advice := [] }).finish f r q 0 []) :=
  carried_of_ready (execAdviseClear.eq_def f r q s) hready

/-! ### FLUSH (R312) -/

section

variable (hready : s.ready f r q 0x42 (fun _ => true) p = true)
  (hdone : (s.begun f r q p).storesDone p.ctx (bit (p.byte 16) 0) (bit (p.byte 16) 1) = true)

include hready hdone

theorem exec_flush_of_paths (hscope : bit (p.byte 16) 2 = false) :
    exec (.flush f r q) s = .next ((s.begun f r q p).finish f r q 0 []) := by
  refine (carried_of_ready (execFlush.eq_def f r q s) hready).trans ?_
  dsimp only
  rw [if_neg (by simp [hdone]), if_pos (by simp [hscope])]
  rfl

theorem exec_flush_of_range (hscope : bit (p.byte 16) 2 = true) {s1 : State}
    (hrange : (s.begun f r q p).flushRange (pktW f r q) p.ctx (p.field 24 8) (p.field 32 8) = (some true, s1)) :
    exec (.flush f r q) s = .next (s1.finish f r q 0 []) := by
  refine (carried_of_ready (execFlush.eq_def f r q s) hready).trans ?_
  dsimp only
  rw [if_neg (by simp [hdone]), if_neg (by simp [hscope]), hrange]
  rfl

end

/-! ### FENCE (R313) -/

theorem exec_fenceRing_of_ready (hready : s.ready f r q 0x43 (fun p => decide (p.byte 16 = 0)) p = true) :
    exec (.fenceRing f r q) s = .next ((s.begun f r q p).finish f r q 0 []) :=
  carried_of_ready (execFenceRing.eq_def f r q s) hready

theorem exec_fenceContext_of_first (hready : s.ready f r q 0x43 (fun p => decide (p.byte 16 = 1)) p = true)
    (hfirst : ((s.begun f r q p).ringsOf f).any (fun x => decide (x.1 ≠ r.val) && x.2.pkts.any (fun y =>
      decide (y.order < p.order) && decide (3 ≤ y.opcode) && decide (y.ctx = p.ctx))) = false) :
    exec (.fenceContext f r q) s = .next ((s.begun f r q p).finish f r q 0 []) := by
  refine (carried_of_ready (execFenceContext.eq_def f r q s) hready).trans ?_
  dsimp only
  rw [hfirst]
  rfl

end

/-- Settles O36: each row is the frame of a packet around what it does, and the frame carries out the packet that is ready. -/
theorem memoryPackets : Obligations.MemoryPackets := by
  intro f r q s p t c
  refine ⟨?translate, ?copy, ?add, ?remove, ?clear, ?flush, ?ring, ?context⟩
  case translate => exact fun m hm hready => exec_prefetch_of_ready hm hready
  case copy => exact fun hready => ⟨exec_prefetchCopy_of_ready hready, exec_prefetchCopy_of_copied hready⟩
  case add => exact exec_adviseAdd_of_room
  case remove => exact exec_adviseRemove_of_ready
  case clear => exact exec_adviseClear_of_ready
  case flush =>
    exact fun hready hdone => ⟨exec_flush_of_paths hready hdone, fun hscope s1 => exec_flush_of_range hready hdone hscope⟩
  case ring => exact exec_fenceRing_of_ready
  case context => exact exec_fenceContext_of_first

end Sys2Proof.Proofs
end

section
/-! PROOFS. Contexts (R240, R295, R297, R298): IDENTIFY, ATTACH_CONTEXT, DETACH_CONTEXT, and what a torn-down context leaves. -/

namespace Sys2Proof.Proofs

open Sys2Proof Sys2Proof.Machine

section

variable {f : FnId} {r : RingId} {q : PktSeq} {s : State} {p : Pkt}

/-! ### IDENTIFY (R295) -/

theorem exec_identify_of_translated (hready : s.ready f r q 0x01 (fun _ => true) p = true) (hsends : (s.begun f r q p).sends f = true)
    {hpa : Nat} {s1 : State}
    (hpage : (s.begun f r q p).resolve (pktW f r q) none 0 f noPasid (p.field 16 8) false true = (.ok hpa, s1)) :
    exec (.identify f r q) s = .next (s1.finishWith f r q 0 [] [(1, (s1.hostTgt hpa).key, s1.identity f)] false) := by
  refine (carried_of_ready (execIdentify.eq_def f r q s) hready).trans ?_
  dsimp only
  rw [if_neg (by simp [hsends]), hpage]
  rfl

/-! ### ATTACH_CONTEXT (R297) -/

section

variable (hready : s.ready f r q 0x02 (fun _ => true) p = true)

include hready

theorem exec_attachContext_of_refused (tag : BitVec 12) (part : Fin 64) (granules : List Nat) {st : Nat}
    (h : (s.begun f r q p).attachRefused f p = some st) :
    exec (.attachContext f r q tag part granules) s = .next ((s.begun f r q p).finish f r q st []) := by
  refine (carried_of_ready (execAttachContext.eq_def f r q tag part granules s) hready).trans ?_
  dsimp only
  rw [h]

/-- The tag, the partition and the granules that firmware chose are taken where they are free and there is room for the rates. -/
theorem exec_attachContext_of_free {tag : BitVec 12} {part : Fin 64} {granules gs : List Nat} {t : State} {own : Nat}
    (ht : s.begun f r q p = t) (hown : p.field 24 8 / granuleBytes - (t.roGranules (p.field 24 8)).length = own)
    (hok : t.attachRefused f p = none) (hnew : bit (p.byte 21) 0 = false) (htag : (t.ctx tag.toNat).valid = false)
    (hidle : (t.ctx tag.toNat).draining = false) (hpart : t.partFree part = true)
    (hroom : t.hbmTaken + own * granuleBytes ≤ t.hbmServes) (hgranules : t.takeGranules granules own = some gs)
    (hrate : ∀ h, h < 4 → t.rateSum h + (if p.byte 62 = 2 then 0 else p.field 58 2) ≤ 49152) :
    exec (.attachContext f r q tag part granules) s =
      .next (let u := t.attach f p tag.toNat part gs
        u.finish f r q 0 (natLe (tag.toNat + mapGet 0 u.ctxGens tag.toNat * 2 ^ 12) 4 ++ natLe part.val 1)) := by
  have hrates : (List.range 4).any (fun h => decide (49152 < t.rateSum h + (if p.byte 62 = 2 then 0 else p.field 58 2)) &&
      decide ((if p.byte 62 = 2 then 0 else p.field 58 2) ≠ 0)) = false :=
    List.any_eq_false.mpr (fun h hh => by simp [not_lt.mpr (hrate h (List.mem_range.mp hh))])
  refine (carried_of_ready (execAttachContext.eq_def f r q tag part granules s) hready).trans ?_
  simp only [ht, hown, hok, hnew, htag, hidle, hpart, hgranules, hrates, if_neg (not_lt.mpr hroom), Bool.not_false, Bool.false_or,
    decide_eq_true_eq, Bool.false_eq_true, if_true, if_false]
  rfl

end

/-! ### DETACH_CONTEXT (R240, R298) -/

theorem exec_detachContext_of_attached (hready : s.ready f r q 0x03 (fun _ => true) p = true)
    (h : ((s.begun f r q p).ctx p.ctx).draining = false) :
    exec (.detachContext f r q) s = .next ((s.begun f r q p).startDetach p.ctx (some (f.val, r.val, q))) := by
  refine (carried_of_ready (execDetachContext.eq_def f r q s) hready).trans ?_
  rw [if_neg (by simp [h])]

end

theorem exec_detachComplete_of_ready {tag : BitVec 12} {s : State} {f r : Nat} {q : BitVec 16}
    (hvalid : (s.ctx tag.toNat).valid = true) (hdrain : (s.ctx tag.toNat).draining = true)
    (hby : (s.ctx tag.toNat).detachBy = some (f, r, q)) (hready : s.detachReady tag.toNat = true) :
    exec (.detachComplete tag) s = .next ((s.teardown tag.toNat).finish f r q 0
      (res4 (s.ctx tag.toNat).aborted ++ res4 (s.ctx tag.toNat).closed)) := by
  change execDetachComplete tag s = _
  unfold execDetachComplete
  dsimp only
  rw [if_neg (by simp [hvalid, hdrain, hready]), hby]
  rfl

/-! ### What is torn down (R240 steps 4 and 5) -/

section

variable {γ : Type} (view : State → γ) (hhand : ∀ s g e, view (State.handOver s g e) = view s)
  (hown : ∀ (s : State) (o : List (Nat × BitVec 32)), view { s with own := o } = view s)

include hhand hown

/-- What neither a granule handed over nor an ownership entry changes is as it was before a context's granules went back. -/
theorem granulesBack_keeps (s : State) (tag : Nat) (c : Ctx) :
    view ((c.ownArena.foldl (fun s a => s.handOver a.2 0) (s.dropKvGranules tag)).setGrants c.hdmOff c.hdmBytes) = view s :=
  calc
    _ = view (c.ownArena.foldl (fun s a => s.handOver a.2 0) (s.dropKvGranules tag)) := foldl_keeps view (fun _ _ => hown ..) _ _
    _ = view (s.dropKvGranules tag) := foldl_keeps view (fun _ _ => hhand ..) _ _
    _ = view s := foldl_keeps view (fun _ _ => hhand ..) _ _

end

theorem teardown_ctx_self (s : State) (tag : Nat) : (s.teardown tag).ctx tag = Ctx.none := by
  have hctxs : (s.teardown tag).ctxs = mapSet Ctx.none s.ctxs tag Ctx.none := by
    unfold State.teardown
    dsimp only
    split <;> exact granulesBack_keeps State.ctxs (fun _ _ _ => rfl) (fun _ _ => rfl) _ tag (s.ctx tag)
  rw [State.ctx, hctxs, mapGet_mapSet_self]

theorem teardown_sessions (s : State) (tag : Nat) :
    (s.teardown tag).sec.sessions = s.sec.sessions.filter (fun k => k.2.ctx ≠ tag) := by
  unfold State.teardown
  dsimp only
  split <;>
    exact congrArg _ (granulesBack_keeps (fun s => s.sec.sessions) (fun _ _ _ => rfl) (fun _ _ => rfl) _ tag (s.ctx tag))

/-- Settles O34: each packet that is ready is carried out as its row says, and the teardown that ends a detach removes the context and the
sessions bound to it. -/
theorem contextPackets : Obligations.ContextPackets := by
  intro f r q s p t
  refine ⟨?identify, ?attach, ?detach, ?complete⟩
  case identify => exact fun hready hsends hpa s1 hpage => exec_identify_of_translated hready hsends hpage
  case attach =>
    exact fun tag part granules gs hready => ⟨fun st => exec_attachContext_of_refused hready tag part granules,
      exec_attachContext_of_free hready rfl rfl⟩
  case detach => exact exec_detachContext_of_attached
  case complete =>
    intro tag f' r' q' hvalid hdrain hby hready
    refine ⟨exec_detachComplete_of_ready hvalid hdrain hby hready, ?_, ?_⟩
    · rw [teardown_ctx_self]
      rfl
    · rw [teardown_sessions]
      simp

end Sys2Proof.Proofs
end

section
/-! PROOFS. Responses to page requests (R235 to R237, R335) and invalidations (R238, R239, R242, R279): what the caches hold for a PASID
that is invalidated, and what is still outstanding for it. -/

namespace Sys2Proof.Proofs

open Sys2Proof Sys2Proof.Machine

/-! ### Host interrupts and events of translation (R336, R337) -/

section

variable {γ : Type} (view : State → γ) (hport : ∀ (s : State) (p : Port) (o : List OutMsg), view { s with port := p, out := o } = view s)
  (hfn : ∀ s f x, view (State.setFn s f x) = view s)

include hport

theorem driveIntx_keeps (s : State) : view s.driveIntx = view s := by
  unfold State.driveIntx
  dsimp only
  split
  · rfl
  · exact hport ..

include hfn

theorem msix_keeps (s : State) (f vec : Nat) : view (s.msix f vec) = view s := by
  unfold State.msix
  split
  · exact hport s s.port _
  · exact hfn ..

/-- A bit of HST_INT_STATUS changes only the port, what is sent and the pending vectors of a function. -/
theorem hostInt_keeps (s : State) (i : Nat) : view (s.hostInt i) = view s := by
  unfold State.hostInt
  extract_lets old
  have hset : view { s with port := { s.port with intStatus := old ||| (1 <<< i) } } = view s := hport s _ s.out
  split
  · split
    · exact (msix_keeps view hport hfn ..).trans hset
    · exact hset
  · exact (driveIntx_keeps view hport ..).trans hset

end

theorem xltEvent_mem (s : State) (i f : Nat) : (s.xltEvent i f).mem = s.mem :=
  hostInt_keeps State.mem (fun _ _ _ => rfl) (fun _ _ _ => rfl) ..

theorem xltEvent_reqs (s : State) (i f : Nat) : (s.xltEvent i f).xlt.reqs = s.xlt.reqs :=
  hostInt_keeps (fun s => s.xlt.reqs) (fun _ _ _ => rfl) (fun _ _ _ => rfl) ..

theorem xltEvent_events (s : State) (i f : Nat) : (s.xltEvent i f).xlt.events = s.xlt.events ||| (1 <<< i) :=
  hostInt_keeps (fun s => s.xlt.events) (fun _ _ _ => rfl) (fun _ _ _ => rfl) ..

theorem xltEvent_bit (s : State) {i : Nat} (f : Nat) (hi : i < 3) : bit (s.xltEvent i f).xlt.events.toNat i = true := by
  rw [xltEvent_events, bit_eq_testBit, BitVec.toNat_or, Nat.testBit_or]
  have hone : (1 <<< i : BitVec 3).toNat.testBit i = true := by interval_cases i <;> rfl
  rw [hone, Bool.or_true]

/-! ### PAGE_REQUEST_RESPONSE and PAGE_REQUEST_OVERDUE (R235 to R237, R335) -/

section

variable {f : FnId} {prg : BitVec 9} {s : State} {r : PageReq}

/-- What a response to request r does, once the request has ended (R235). -/
def responded (f : Nat) (r : PageReq) (s : State) : PrgCode → State
  | .success => s.pageSuccess r
  | .invalidRequest => s.failWaits (fun w => w.fn = r.fn && w.pasid = r.pasid && w.va = r.va && decide (w.phase = .requested))
  | .responseFailure => ((s.setFn f { s.fn f with respFailure := true }).failWaits (fun w =>
      w.fn = f && (decide (w.phase = .requested) || decide (w.phase = .stalled)))).xltEvent 0 f

theorem exec_pageRequestResponse_of_request (hserves : (s.fn f).quiescing = false)
    (hreq : s.xlt.reqs.find? (fun r => r.fn = f.val && r.prg = prg.toNat) = some r) (code : PrgCode) :
    exec (.pageRequestResponse f prg code) s =
      .next (responded f r { s with xlt := { s.xlt with reqs := s.xlt.reqs.filter (fun x => x ≠ r) } } code) := by
  change execPageRequestResponse f prg code s = _
  unfold execPageRequestResponse
  rw [if_neg (by simp [hserves]), hreq]
  cases code <;> rfl

/-- A response to no request is counted (R236). -/
def countUnexpected (s : State) (f : Nat) : State :=
  let t := s.setFn f { s.fn f with uprgi := true }
  { t with xlt := { t.xlt with uprgiCount := BitVec.ofNat 32 (satAdd (2 ^ 32 - 1) t.xlt.uprgiCount.toNat 1) } }

theorem exec_pageRequestResponse_of_none (hserves : (s.fn f).quiescing = false)
    (hnone : s.xlt.reqs.find? (fun r => r.fn = f.val && r.prg = prg.toNat) = none) (code : PrgCode) :
    exec (.pageRequestResponse f prg code) s = .next ((countUnexpected s f).xltEvent 1 f) := by
  change execPageRequestResponse f prg code s = _
  unfold execPageRequestResponse
  rw [if_neg (by simp [hserves]), hnone]
  rfl

theorem exec_pageRequestResponse_of_quiescing (h : (s.fn f).quiescing = true) (code : PrgCode) :
    exec (.pageRequestResponse f prg code) s =
      .next (let kept := s.xlt.reqs.filter (fun r => !(decide (r.fn = f.val) && decide (r.prg = prg.toNat)))
        { s with xlt := { s.xlt with reqs := kept } }) :=
  if_pos h

theorem exec_pageRequestOverdue_of_request
    (h : s.xlt.reqs.find? (fun r => r.fn = f.val && r.prg = prg.toNat && !r.overdue) = some r) :
    exec (.pageRequestOverdue f prg) s =
      .next ((({ s with xlt := { s.xlt with reqs := s.xlt.reqs.map (fun x =>
        if x = r then { x with overdue := true } else x) } } : State).xltEvent 2 f).report (event 17 unitHost r.pasid)) := by
  simp only [exec, execPageRequestOverdue, h]

end

/-! ### What an invalidation removes (R238, R239) -/

/-- A function and a PASID that an invalidation names: every PASID of the function where it names none. -/
def named (f : Nat) (pasid : Option Nat) (fn p : Nat) : Bool := decide (fn = f) && pasid.all (fun x => decide (p = x))

/-- No cache holds an entry that the invalidation names. -/
structure Untranslated (f : Nat) (pasid : Option Nat) (x : Xlt) : Prop where
  l1 : ∀ u, ∀ e ∈ mapGet [] x.l1 u, named f pasid e.fn e.pasid = false
  l2 : ∀ h, ∀ e ∈ mapGet [] x.l2 h, named f pasid e.fn e.pasid = false

/-- What an invalidation leaves of a state (R238, R239): memory and cores as they are, no translation that it names, and of the requests
that it names only stale ones, but for those of function addresses, with which ring pages are obtained again (R279). -/
structure Invalidated (f : Nat) (pasid : Option Nat) (s t : State) : Prop where
  mem : t.mem = s.mem
  cores : t.cores = s.cores
  caches : Untranslated f pasid t.xlt
  requests : ∀ a ∈ t.xlt.ats, named f pasid a.fn a.pasid = true → a.pasid ≠ noPasid → a.stale = true

/-- It speaks of memory, cores, caches and translation requests alone. -/
theorem Invalidated.of_eq {f : Nat} {pasid : Option Nat} {s t u : State} (h : Invalidated f pasid s t) (hmem : u.mem = t.mem)
    (hcores : u.cores = t.cores) (hl1 : u.xlt.l1 = t.xlt.l1) (hl2 : u.xlt.l2 = t.xlt.l2) (hats : u.xlt.ats = t.xlt.ats) :
    Invalidated f pasid s u :=
  ⟨hmem.trans h.mem, hcores.trans h.cores, ⟨hl1 ▸ h.caches.l1, hl2 ▸ h.caches.l2⟩, hats ▸ h.requests⟩

section

variable {f fn p : Nat} {pasid : Option Nat}

theorem find?_hits_of_unnamed {l : List XEntry} (hl : ∀ e ∈ l, named f pasid e.fn e.pasid = false) (hn : named f pasid fn p = true)
    (va : Nat) : l.find? (·.hits fn p va) = none := by
  refine List.find?_eq_none.mpr (fun e he hhit => ?_)
  simp only [XEntry.hits, Bool.and_eq_true, decide_eq_true_eq] at hhit
  obtain ⟨⟨⟨hfn, hp⟩, -⟩, -⟩ := hhit
  have hunnamed := hl e he
  rw [hfn, hp, hn] at hunnamed
  contradiction

/-- A lookup of what is not translated only counts a miss. -/
theorem lookup_of_untranslated {x : Xlt} (h : Untranslated f pasid x) (hn : named f pasid fn p = true) (unit : Option Nat) (hub va : Nat) :
    x.lookup unit hub fn p va = (none, { x with misses := mapPut x.misses hub (mapGet 0 x.misses hub + 1) }) := by
  have hl2 := find?_hits_of_unnamed (h.l2 hub) hn va
  unfold Xlt.lookup
  cases unit with
  | none =>
    dsimp only [List.find?_nil]
    rw [hl2]
  | some u =>
    dsimp only
    rw [find?_hits_of_unnamed (h.l1 u) hn va, hl2]

/-- What is left of caches from which the named entries were dropped. -/
theorem unnamed_of_filter (m : List (Nat × List XEntry)) (k : Nat) :
    ∀ e ∈ mapGet [] (m.map (fun x => (x.1, x.2.filter (fun e => !named f pasid e.fn e.pasid)))) k, named f pasid e.fn e.pasid = false := by
  have hget := mapGet_map_values (d := []) (v := fun _ l => l.filter (fun e => !named f pasid e.fn e.pasid)) (fun _ => rfl) (fun _ => rfl) m k
  rw [hget]
  exact fun e he => by simpa using (List.mem_filter.mp he).2

theorem dropXlt_eq (s : State) (f : Nat) (pasid : Option Nat) : s.dropXlt f pasid = { s with xlt := { s.xlt with
    l1 := s.xlt.l1.map (fun x => (x.1, x.2.filter (fun e => !named f pasid e.fn e.pasid))),
    l2 := s.xlt.l2.map (fun x => (x.1, x.2.filter (fun e => !named f pasid e.fn e.pasid))),
    ats := s.xlt.ats.map (fun a => if named f pasid a.fn a.pasid then { a with stale := true } else a) } } := by
  cases pasid <;> rfl

theorem dropXlt_invalidated (s : State) (f : Nat) (pasid : Option Nat) : Invalidated f pasid s (s.dropXlt f pasid) := by
  rw [dropXlt_eq]
  refine ⟨rfl, rfl, ⟨unnamed_of_filter _, unnamed_of_filter _⟩, fun a ha hn _ => ?_⟩
  obtain ⟨b, -, rfl⟩ := List.mem_map.mp ha
  by_cases hb : named f pasid b.fn b.pasid = true
  · rw [if_pos hb]
  · rw [if_neg hb] at hn
    contradiction

end

/-! ### Ring pages obtained again (R279) -/

/-- A request for a translation is sent or is not: nothing else changes. -/
theorem askAts_cases (s : State) (hub fn pasid va : Nat) (noWrite : Bool) :
    s.askAts hub fn pasid va noWrite = s ∨ ∃ (a : AtsReq) (o : List OutMsg), a.pasid = pasid ∧
      s.askAts hub fn pasid va noWrite = { s with xlt := { s.xlt with ats := s.xlt.ats ++ [a] }, out := o } := by
  unfold State.askAts
  extract_lets page one
  split
  · exact .inl rfl
  · split
    next a _ => exact .inr ⟨one a.noWrite, s.out, rfl, rfl⟩
    next =>
      split
      · exact .inl rfl
      · split
        · exact .inl rfl
        · exact .inr ⟨one noWrite, _, rfl, rfl⟩

section

variable {f : Nat} {s t : State}

theorem askAts_invalidated (h : Invalidated f none s t) (hub fn va : Nat) (noWrite : Bool) :
    Invalidated f none s (t.askAts hub fn noPasid va noWrite) := by
  rcases askAts_cases t hub fn noPasid va noWrite with e | ⟨a, o, ha, e⟩
  · rwa [e]
  · rw [e]
    refine ⟨h.mem, h.cores, ⟨h.caches.l1, h.caches.l2⟩, fun b hb hn hpasid => ?_⟩
    rcases List.mem_append.mp hb with hb | hb
    · exact h.requests b hb hn hpasid
    · rw [List.mem_singleton.mp hb] at hpasid
      exact absurd ha hpasid

/-- A packet that needs the page of a function address. -/
theorem needPage_invalidated (h : Invalidated f none s t) (g r : Nat) (q : BitVec 16) (hub va : Nat) (rd wr : Bool) :
    Invalidated f none s (t.needPage (pktW g r q) hub f noPasid va rd wr false).2 := by
  unfold State.needPage
  split
  · split
    · exact h.of_eq rfl rfl rfl rfl rfl
    · exact askAts_invalidated h ..
    · exact h
  · split
    · exact h
    · refine askAts_invalidated ?_ ..
      exact h.of_eq rfl rfl rfl rfl rfl

theorem resolve_invalidated (h : Invalidated f none s t) (g r : Nat) (q : BitVec 16) (hub va : Nat) (rd wr : Bool) :
    Invalidated f none s (t.resolve (pktW g r q) none hub f noPasid va rd wr).2 := by
  unfold State.resolve
  rw [lookup_of_untranslated h.caches (by simp [named])]
  refine needPage_invalidated ?_ ..
  exact h.of_eq rfl rfl rfl rfl rfl

theorem ringPages_invalidated (h : Invalidated f none s t) (r base len : Nat) (wr : Bool) :
    Invalidated f none s (t.ringPages f r base len wr).2 := by
  refine List.foldlRecOn (motive := fun a : Option Bool × State => Invalidated f none s a.2) _ _ h (fun a ha p _ => ?_)
  have hpage : Invalidated f none s (a.2.resolve ((a.2.ring f r).who f r) none 0 f noPasid p.1 (!wr) wr).2 := resolve_invalidated ha ..
  split
  · exact ha
  · generalize a.2.resolve ((a.2.ring f r).who f r) none 0 f noPasid p.1 (!wr) wr = y at hpage ⊢
    obtain ⟨res, u⟩ := y
    cases res <;> exact hpage

theorem pairPages_invalidated (h : Invalidated f none s t) (r : Nat) : Invalidated f none s (t.pairPages f r).2 := by
  unfold State.pairPages
  extract_lets x a b
  have ha : Invalidated f none s a.2 := by
    unfold a
    split
    · exact h
    · exact ringPages_invalidated h ..
  show Invalidated f none s b.2
  unfold b
  split
  · exact ha
  · exact ringPages_invalidated ha ..

theorem renewRings_invalidated (h : Invalidated f none s t) : Invalidated f none s (t.renewRings f) := by
  refine List.foldlRecOn (motive := Invalidated f none s) _ _ h (fun a ha x _ => ?_)
  have hpair := pairPages_invalidated ha (x.1 % 64)
  generalize a.pairPages f (x.1 % 64) = y at hpair ⊢
  obtain ⟨usable, u⟩ := y
  rcases usable with _ | _ | _
  · exact hpair
  · exact hpair.of_eq rfl rfl rfl rfl rfl
  · exact hpair

end

/-! ### INVALIDATION_REQUEST and INVALIDATION_COMPLETION (R238, R239, R242) -/

/-- An invalidation waits for the accesses in flight under what it removes. -/
def awaitInval (s : State) (f : Nat) (pasid : Option Nat) (itag : BitVec 5) : State :=
  { s with xlt := { s.xlt with invals := s.xlt.invals ++
    [{ fn := f, pasid := pasid, itag := itag, reads := s.readsOf f pasid, dead := s.deadOf f pasid }] } }

section

variable {f : FnId} {s : State} (hroom : (s.xlt.invals.filter (fun i => i.fn = f.val)).length < 32) (itag : BitVec 5)

include hroom

theorem exec_invalidationRequest_of_all :
    exec (.invalidationRequest f none itag) s = .next (awaitInval ((s.dropXlt f none).renewRings f) f none itag) :=
  if_neg (not_le.mpr hroom)

theorem exec_invalidationRequest_of_answered {x : BitVec 20} (h : ((s.ctxOf f x.toNat).isNone && s.invSends f) = true) :
    exec (.invalidationRequest f (some x) itag) s = .next ((s.dropXlt f (some x.toNat)).sendInvDone f itag) :=
  (if_neg (not_le.mpr hroom)).trans (if_pos h)

theorem exec_invalidationRequest_of_held {x : BitVec 20} (h : ((s.ctxOf f x.toNat).isNone && s.invSends f) = false) :
    exec (.invalidationRequest f (some x) itag) s = .next (awaitInval (s.dropXlt f (some x.toNat)) f (some x.toNat) itag) :=
  (if_neg (not_le.mpr hroom)).trans (if_neg (Bool.not_eq_true _ ▸ h))

end

theorem exec_invalidationCompletion_of_done {f : FnId} {s : State} {i : Inval} (hfirst : s.xlt.invals.find? (fun i => i.fn = f.val) = some i)
    (hsends : s.invSends f = true) (hdone : s.invDone i = true) :
    exec (.invalidationCompletion f i.itag) s =
      .next (({ s with xlt := { s.xlt with invals := s.xlt.invals.erase i } } : State).sendInvDone f i.itag) := by
  change execInvalidationCompletion f i.itag s = _
  unfold execInvalidationCompletion
  rw [hfirst]
  dsimp only
  rw [if_pos (by simp [hsends, hdone])]

/-- What an invalidation of a PASID, or of all, comes to. -/
theorem exec_invalidationRequest_invalidated {f : FnId} {s : State}
    (hroom : (s.xlt.invals.filter (fun i => i.fn = f.val)).length < 32) (pasid : Option (BitVec 20)) (itag : BitVec 5) :
    ∃ t, exec (.invalidationRequest f pasid itag) s = .next t ∧ Invalidated f (pasid.map (·.toNat)) s t ∧
      (pasid.any (fun x => (s.ctxOf f x.toNat).isNone) = true → s.invSends f = true →
        t.out = s.out ++ [.invalidationCompletion f itag]) := by
  cases pasid with
  | none =>
    exact ⟨_, exec_invalidationRequest_of_all hroom itag,
      (renewRings_invalidated (dropXlt_invalidated ..)).of_eq rfl rfl rfl rfl rfl, fun h => nomatch h⟩
  | some x =>
    have hdrop := dropXlt_invalidated s f (some x.toNat)
    cases hnow : (s.ctxOf f x.toNat).isNone && s.invSends f with
    | true =>
      exact ⟨_, exec_invalidationRequest_of_answered hroom itag hnow, hdrop.of_eq rfl rfl rfl rfl rfl, fun _ _ => rfl⟩
    | false =>
      refine ⟨_, exec_invalidationRequest_of_held hroom itag hnow, hdrop.of_eq rfl rfl rfl rfl rfl, fun hfree hsends => ?_⟩
      rw [Option.any_some] at hfree
      rw [hfree, hsends] at hnow
      contradiction

/-- Settles O26: a response finds its request or is counted as unexpected, and what an invalidation removes stays removed while the ring
pages are obtained again, since such a lookup misses and its request is one of a function address. When an invalidation that waits is
answered is the model's choice (log entry 38). -/
theorem pageResponsesAndInvalidations : Obligations.PageResponsesAndInvalidations := by
  refine ⟨fun f prg s r => ⟨?answered, ?unexpected, ?quiescing, ?overdue⟩, fun f pasid itag s => ⟨?request, ?completion⟩⟩
  case answered =>
    intro hserves hreq
    have hresponse := exec_pageRequestResponse_of_request hserves hreq
    exact ⟨hresponse .success, hresponse .invalidRequest, hresponse .responseFailure⟩
  case unexpected =>
    intro hserves hnone code
    exact ⟨_, exec_pageRequestResponse_of_none hserves hnone code, xltEvent_mem .., xltEvent_reqs .., xltEvent_bit _ _ (by decide)⟩
  case quiescing => exact exec_pageRequestResponse_of_quiescing
  case overdue => exact exec_pageRequestOverdue_of_request
  case request =>
    intro hroom
    obtain ⟨t, ht, hinv, hout⟩ := exec_invalidationRequest_invalidated hroom pasid itag
    refine ⟨t, ht, fun unit hub p va hp => ?_, fun a ha hfn hp => ?_, hinv.mem, hinv.cores, hout⟩
    · have hnamed : named f (pasid.map (·.toNat)) f p = true := by cases pasid <;> simp_all [named]
      exact congrArg Prod.fst (lookup_of_untranslated hinv.caches hnamed unit hub va)
    · cases pasid with
      | none => exact hinv.requests a ha (by simp [named, hfn]) hp
      | some x => exact hinv.requests a ha (by simp [named, hfn, hp]) (hp ▸ Nat.ne_of_lt x.isLt)
  case completion =>
    rintro i hfirst rfl hsends hdone
    exact exec_invalidationCompletion_of_done hfirst hsends hdone

end Sys2Proof.Proofs
end

section
/-! PROOFS. The sequence table (R247, R250): which operations keep it, how a slot is read after it was written or became FREE, and what
the places of a fork are (R262). -/

namespace Sys2Proof.Proofs

open Sys2Proof Sys2Proof.Machine

/-! ### Frames, messages and stored lines keep the scheduler (R340, R459, R460) -/

theorem pushFrames_srv (n : Nat) (s : State) : (s.pushFrames n).srv = s.srv := by
  induction n generalizing s with
  | zero => rfl
  | succ n ih =>
    unfold State.pushFrames
    dsimp only
    split
    · rfl
    · split
      · rfl
      · exact ih _

theorem journal_srv (s : State) (tag : Nat) (typ : BitVec 8) (m : JPayload) : (s.journal tag typ m).srv = s.srv := by
  unfold State.journal
  split
  · split
    · exact pushFrames_srv ..
    · rfl
  · rfl

theorem journalSeq_srv (s : State) (slot : Nat) (share : Option (BitVec 15 × Nat)) : (s.journalSeq slot share).srv = s.srv := by
  unfold State.journalSeq
  split
  · rfl
  · rw [journal_srv, journal_srv]

theorem journalPages_srv (s : State) (i : Image) (slot : Nat) (x : Sequence) (skip : Nat) : (s.journalPages i slot x skip).srv = s.srv := by
  unfold State.journalPages
  split
  · exact foldl_keeps State.srv (fun s m => journal_srv s ..) _ _
  · rfl

theorem ltr_srv (s : State) : s.ltr.srv = s.srv := by
  unfold State.ltr
  split
  · rfl
  · unfold State.sendLtr
    dsimp only
    split <;> rfl

theorem storeLine_srv (s : State) (k : Nat) (bs : Bytes) (tag : Option Nat) : (s.storeLine k bs tag).srv = s.srv :=
  storeLine_keeps State.srv (fun _ _ => rfl) (fun _ _ => rfl) s k bs tag

theorem putTables_srv (s : State) (slot : Nat) : (s.putTables slot).srv = s.srv := by
  unfold State.putTables
  split
  · rfl
  · refine foldl_keeps State.srv (fun s draft => ?_) _ _
    split
    · refine foldl_keeps State.srv (fun s e => ?_) _ _
      dsimp only
      split
      · rfl
      · exact foldl_keeps State.srv (fun s l => storeLine_srv s ..) _ _
    · rfl

/-! ### The end of a packet keeps the table (R290, R319, R461) -/

theorem carry_srv (s : State) (f : Nat) (tag : Option Nat) (w : Planned) : (s.carry f tag w).srv = s.srv := by
  have hlines : ((linesOf w.2.1 w.2.2.length).foldl (fun s p =>
      if s.answers p.1 then s.storeLine p.1 (sliceBytes w.2.2 (p.1 - w.2.1) p.2) tag
      else s.report (event 15 (unitHub 3 0) (p.1 / 8 * 8) tag)) s).srv = s.srv := by
    refine foldl_keeps State.srv (fun s p => ?_) _ _
    split
    · exact storeLine_srv ..
    · rfl
  unfold State.carry
  dsimp only
  split
  · rfl
  · split <;> exact hlines

theorem produce_srv (s : State) (f r : Nat) (c : Completion) : (s.produce f r c).srv = s.srv := by
  unfold State.produce
  split <;> rfl

theorem release_srv (s : State) (tag f r : Nat) (c : Option Completion) (ws : List Planned) (mirrored : Bool) :
    (s.release tag f r c ws mirrored).srv = s.srv := by
  have hcarried : (s.carryAll f (some tag) ws).srv = s.srv := foldl_keeps State.srv (fun s w => carry_srv s ..) _ _
  unfold State.release
  split
  · rfl
  · split
    · rfl
    · dsimp only
      split
      · exact (produce_srv ..).trans hcarried
      · exact hcarried

theorem finishWith_seqs (s : State) (f r : Nat) (q : BitVec 16) (st : Nat) (res : Bytes) (ws : List Planned) (mirrored : Bool) :
    (s.finishWith f r q st res ws mirrored).srv.seqs = s.srv.seqs := by
  unfold State.finishWith
  dsimp only
  split
  · rfl
  · rw [release_srv]
    rfl

theorem endCmd_seqs (s : State) (c : Recv) (st : Nat) (res : Bytes) : (s.endCmd c st res).2.srv.seqs = s.srv.seqs := by
  unfold State.endCmd State.finishMirrored
  dsimp only
  split
  · rfl
  · split
    · rw [finishWith_seqs, journal_srv]
    · exact finishWith_seqs ..

/-! ### A slot of the table (R247, R250) -/

theorem seq_congr {s t : State} (h : t.srv.seqs = s.srv.seqs) (slot : Nat) : t.seq slot = s.seq slot :=
  congrArg (mapFind · slot) h

theorem putSeq_seq (s : State) (slot j : Nat) (x : Sequence) : (s.putSeq slot x).seq j = if j = slot then some x else s.seq j :=
  mapFind_mapPut ..

theorem putSeq_seq_self (s : State) (slot : Nat) (x : Sequence) : (s.putSeq slot x).seq slot = some x := by
  rw [putSeq_seq, if_pos rfl]

/-- A handle names the sequence that its slot holds. -/
theorem seq_of_seqOf {s : State} {tag h slot : Nat} {x : Sequence} (hx : s.seqOf tag h = some (slot, x)) : s.seq slot = some x := by
  unfold State.seqOf at hx
  split at hx
  next y hy =>
    split at hx
    · cases hx
      exact hy
    · cases hx
  next => cases hx

theorem mem_of_mapFind {α : Type} {m : List (Nat × α)} {k : Nat} {v : α} (h : mapFind m k = some v) : (k, v) ∈ m := by
  induction m with
  | nil => cases h
  | cons p m ih =>
    rw [mapFind] at h
    split at h
    next hk =>
      cases h
      exact hk ▸ List.mem_cons_self
    next => exact List.mem_cons_of_mem _ (ih h)

/-! ### Places given back, and a slot that becomes FREE (R250, R258) -/

theorem freePages_seq (s : State) (slot j : Nat) : (s.freePages slot).seq j =
    if j = slot then (s.seq slot).map (fun x => (x.setKv false KvPlaces.none).setKv true KvPlaces.none) else s.seq j := by
  unfold State.freePages
  split
  next hx =>
    split
    next hj => rw [hj, hx]; rfl
    next => rfl
  next x hx =>
    have hpool : (((x.kv false).all ++ (x.kv true).all).foldl Srv.freePage s.srv).seqs = s.srv.seqs :=
      foldl_keeps Srv.seqs (fun v a => show (v.freePage a).seqs = v.seqs from rfl) _ _
    rw [putSeq_seq, hx]
    exact if_congr Iff.rfl rfl (congrArg (mapFind · j) hpool)

theorem freeSeq_seq (s : State) (slot j : Nat) : (s.freeSeq slot).seq j = if j = slot then none else s.seq j := by
  unfold State.freeSeq
  split
  next hx =>
    split
    next hj => rw [hj, hx]
    next => rfl
  next x hx =>
    dsimp only
    rw [State.seq, ltr_srv, journal_srv, mapFind_mapDel]
    split
    next => rfl
    next hj => exact (freePages_seq s slot j).trans (if_neg hj)

theorem freeSeqs_seq (l : List (Nat × Sequence)) (s : State) (j : Nat) :
    (l.foldl (fun s x => s.freeSeq x.1) s).seq j = if j ∈ l.map (·.1) then none else s.seq j := by
  induction l generalizing s with
  | nil => rfl
  | cons x l ih =>
    rw [List.foldl_cons, ih, freeSeq_seq, List.map_cons]
    simp only [List.mem_cons]
    split_ifs <;> tauto

/-- A slot in CLOSING is FREE once the slots in CLOSING have become FREE (log entry 114). -/
theorem freeClosed_seq_of_closing {s : State} {slot : Nat} {x : Sequence} (hx : s.seq slot = some x) (hst : x.st = .closing) :
    s.freeClosed.seq slot = none := by
  have hmem : (slot, x) ∈ s.srv.seqs.filter (fun x => decide (x.2.st = .closing)) :=
    List.mem_filter.mpr ⟨mem_of_mapFind hx, decide_eq_true hst⟩
  exact (freeSeqs_seq ..).trans (if_pos (List.mem_map_of_mem hmem))

/-! ### The places of a fork (R260, R262) -/

theorem takePlace_seqs {s s1 : State} {tag home len a : Nat} {avail l : List Nat} (h : s.takePlace tag home avail len = some (a, l, s1)) :
    s1.srv.seqs = s.srv.seqs := by
  unfold State.takePlace at h
  dsimp only at h
  split at h
  · cases h
  · obtain ⟨b, -, hb⟩ := Option.map_eq_some_iff.mp h
    cases hb
    rfl

/-- One place of a parent's KV copied for its child, as forkKv does it for the tables, the partly filled page set and the rings. -/
def forkCopy (x : Sequence) (i : Image) (kind : PlaceKind) (src : Option Nat) (a : KvPlaces × List Nat × State) :
    Option (KvPlaces × List Nat × State) :=
  match src with
  | none => some a
  | some p => (a.2.2.takePlace x.ctx x.home a.2.1 (i.placeBytes kind)).map (fun t =>
      (a.1.add t.1 kind, t.2.1, if kind = .tables then t.2.2.wipe t.1 i.tableBytes else t.2.2.copyBytes p t.1 (i.placeBytes kind)))

/-- The page set that a fork copies: the one that its parent has partly filled. -/
def partSet (x : Sequence) (draft : Bool) : Option Nat := if x.stored % 256 = 0 then none else (x.kv draft).pages[x.stored / 256]?

theorem forkKv_of_image {s : State} {draft : Bool} {i : Image} (hi : s.kvImage draft = some i) (x : Sequence) (avail : List Nat) :
    s.forkKv x draft avail =
      ((forkCopy x i .tables (x.kv draft).tables ({ KvPlaces.none with pages := (x.kv draft).pages.take (x.stored / 256) }, avail,
        { s with srv := ((x.kv draft).pages.take (x.stored / 256)).foldl Srv.sharePage s.srv })).bind
          (forkCopy x i .set (partSet x draft))).bind (forkCopy x i .ring (x.kv draft).ring) := by
  simp only [State.forkKv, hi]
  rfl

section
variable {x : Sequence} {i : Image} {kind : PlaceKind} {src : Option Nat} {a b : KvPlaces × List Nat × State}
  (h : forkCopy x i kind src a = some b)
include h

theorem forkCopy_seqs : b.2.2.srv.seqs = a.2.2.srv.seqs := by
  unfold forkCopy at h
  split at h
  · cases h
    rfl
  · obtain ⟨t, ht, hb⟩ := Option.map_eq_some_iff.mp h
    cases hb
    refine Eq.trans ?_ (takePlace_seqs ht)
    dsimp only
    split
    · rfl
    · exact foldl_keeps (fun s : State => s.srv.seqs) (fun s l => congrArg Srv.seqs (storeLine_srv s ..)) _ _

theorem forkCopy_pages : b.1.pages = a.1.pages ∨ (src.isSome ∧ kind = .set ∧ ∃ n, b.1.pages = a.1.pages ++ [n]) := by
  unfold forkCopy at h
  split at h
  · cases h
    exact .inl rfl
  · obtain ⟨t, -, hb⟩ := Option.map_eq_some_iff.mp h
    cases hb
    cases kind with
    | set => exact .inr ⟨rfl, rfl, t.1, rfl⟩
    | tables => exact .inl rfl
    | ring => exact .inl rfl

end

section
variable {s u : State} {x : Sequence} {draft : Bool} {avail l : List Nat} {k : KvPlaces}
  (himage : (s.kvImage draft).isSome = true) (h : s.forkKv x draft avail = some (k, l, u))
include himage h

/-- The three copies of a fork, one after another. -/
theorem forkKv_copies : ∃ i a b, ∃ u0 : State, u0.srv.seqs = s.srv.seqs ∧
    forkCopy x i .tables (x.kv draft).tables ({ KvPlaces.none with pages := (x.kv draft).pages.take (x.stored / 256) }, avail, u0) = some a ∧
    forkCopy x i .set (partSet x draft) a = some b ∧ forkCopy x i .ring (x.kv draft).ring b = some (k, l, u) := by
  obtain ⟨i, hi⟩ := Option.isSome_iff_exists.mp himage
  rw [forkKv_of_image hi] at h
  obtain ⟨b, hb, hring⟩ := Option.bind_eq_some_iff.mp h
  obtain ⟨a, htables, hset⟩ := Option.bind_eq_some_iff.mp hb
  exact ⟨i, a, b, _, foldl_keeps Srv.seqs (fun v p => show (v.sharePage p).seqs = v.seqs from rfl) _ _, htables, hset, hring⟩

theorem forkKv_seqs : u.srv.seqs = s.srv.seqs := by
  obtain ⟨i, a, b, u0, hshared, htables, hset, hring⟩ := forkKv_copies himage h
  exact (forkCopy_seqs hring).trans ((forkCopy_seqs hset).trans ((forkCopy_seqs htables).trans hshared))

/-- A child's page sets are its parent's whole ones, shared, and behind them a copy of the one that is partly filled. -/
theorem forkKv_pages : k.pages = (x.kv draft).pages.take (x.stored / 256) ∨
    ((partSet x draft).isSome = true ∧ ∃ n, k.pages = (x.kv draft).pages.take (x.stored / 256) ++ [n]) := by
  obtain ⟨i, a, b, u0, -, htables, hset, hring⟩ := forkKv_copies himage h
  have ha : a.1.pages = (x.kv draft).pages.take (x.stored / 256) := (forkCopy_pages htables).resolve_right (by simp)
  have hk : k.pages = b.1.pages := (forkCopy_pages hring).resolve_right (by simp)
  rw [hk, ← ha]
  exact (forkCopy_pages hset).imp_right (fun ⟨hpart, _, hcopy⟩ => ⟨hpart, hcopy⟩)

theorem forkKv_take_pages : k.pages.take (x.stored / 256) = (x.kv draft).pages.take (x.stored / 256) := by
  obtain hk | ⟨hpart, n, hk⟩ := forkKv_pages himage h
  · rw [hk, List.take_take, Nat.min_self]
  · have hlen : x.stored / 256 < (x.kv draft).pages.length := by
      unfold partSet at hpart
      split at hpart
      · cases hpart
      · simpa using hpart
    rw [hk, List.take_append_of_le_length (by rw [List.length_take]; omega), List.take_take, Nat.min_self]

theorem forkKv_pages_of_whole (hwhole : x.stored % 256 = 0) : k.pages = (x.kv draft).pages.take (x.stored / 256) :=
  (forkKv_pages himage h).resolve_right (by simp [partSet, hwhole])

end

end Sys2Proof.Proofs
end

section
/-! PROOFS. What the sequence commands leave in the table when they are applied (R251, R258, R262, R301 to R306). -/

namespace Sys2Proof.Proofs

open Sys2Proof Sys2Proof.Machine

/-- A command has ended or goes on without waiting, and the slot then holds a sequence of which P holds. -/
def Leaves (a : Applied) (slot : Nat) (P : Sequence → Prop) : Prop := a.1 = false ∧ ∃ y, a.2.seq slot = some y ∧ P y

/-- A command that ends leaves in a slot what was put there. -/
theorem leaves_endCmd {t u : State} {slot : Nat} {y : Sequence} {P : Sequence → Prop} (ht : t.srv = (u.putSeq slot y).srv) (hy : P y)
    (c : Recv) (st : Nat) (res : Bytes) : Leaves (t.endCmd c st res) slot P :=
  ⟨rfl, y, (seq_congr ((endCmd_seqs ..).trans (congrArg Srv.seqs ht)) slot).trans (putSeq_seq_self ..), hy⟩

/-! ### OPEN_SEQUENCE (R301) -/

section
variable {s s1 : State} {c : Recv} {p : Pkt} {i : Image} {slot : Nat}

theorem applyOpen_of_lists {mask : Bytes} {bias : List (Nat × BitVec 32)} {k : Option SessionKey} (hmain : s.srv.main = some i)
    (hload : s.srv.loading = none) (hfree : s.freeSlot c.slot = some slot)
    (hpar : paramsOk (sliceBytes p.bytes 64 128) i.vocab s.srv.draft.isSome = true) (hplain : bit (p.byte 25) 0 = false)
    (hlists : s.readLists (pktW c.f c.r c.q) p.ctx (sliceBytes p.bytes 64 128) none (BitVec.ofNat 64 (p.field 16 8)) i.vocab =
      (.ok mask bias k, s1)) :
    Leaves (s.applyOpen c p) slot (fun y => y.st = .idle ∧ y.history = [] ∧ y.stored = 0 ∧ y.ctx = p.ctx ∧
      y.params = sliceBytes p.bytes 64 128 ∧ y.mask = mask ∧ y.bias = bias ∧ y.generate = none ∧ y.pages = [] ∧ y.ring = none ∧
      y.tables = none ∧ y.draftKv = KvPlaces.none) := by
  simp only [State.applyOpen, hmain, hload, hfree, hpar, hplain, hlists, Option.bind_none, Option.isSome_none, Bool.not_true,
    Bool.false_and, Bool.false_eq_true, if_false]
  exact leaves_endCmd (journalSeq_srv ..) ⟨rfl, rfl, rfl, rfl, rfl, rfl, rfl, rfl, rfl, rfl, rfl, rfl⟩ ..

/-! ### APPEND_TOKENS (R302) -/

variable {x : Sequence}

theorem applyAppend_of_data {bs : Bytes} {k : Option SessionKey} (hmain : s.srv.main = some i)
    (hseq : s.seqOf p.ctx (p.field 16 4) = some (slot, x)) (hclosing : x.st ≠ .closing) (hdecode : x.st ≠ .decode)
    (hfailed : x.st ≠ .failed)
    (hlist : s.readList (pktW c.f c.r c.q) p.ctx (p.field 24 8) (4 * p.field 20 4) (x.session.bind s.session) 1
      (natLe x.seqId.toNat 8) x.history.length = (.data bs k, s1))
    (htoks : ∀ t ∈ (List.range (p.field 20 4)).map (fun j => fieldLe bs (4 * j) 4), t < i.vocab)
    (hroom : x.history.length + p.field 20 4 ≤ i.maxContext) :
    Leaves (s.applyAppend c p) slot (fun y =>
      y.history = x.history ++ (List.range (p.field 20 4)).map (fun j => fieldLe bs (4 * j) 4) ∧ y.stored = x.stored ∧
      y.pages = x.pages ∧ y.st = if x.st = .idle then .prefill else x.st) := by
  have hall : ((List.range (p.field 20 4)).map (fun j => fieldLe bs (4 * j) 4)).all (fun t => decide (t < i.vocab)) = true :=
    List.all_eq_true.mpr (fun t ht => decide_eq_true (htoks t ht))
  simp only [State.applyAppend, hmain, hseq, hclosing, hdecode, hfailed, hlist, hall, Nat.not_lt.mpr hroom, or_false, Bool.not_true,
    Bool.false_eq_true, if_false]
  exact leaves_endCmd ((ltr_srv _).trans (journalSeq_srv ..)) ⟨rfl, rfl, rfl, rfl⟩ ..

/-! ### GENERATE (R303) -/

/-- The sequence decodes where its prompt is stored. That an IDLE one whose prompt is not stored enters PREFILL is log entry 54. -/
theorem applyGenerate_of_idle (hmain : s.srv.main = some i) (hseq : s.seqOf p.ctx (p.field 16 4) = some (slot, x))
    (hidle : x.st = .idle) (hgen : x.generate = none) (hprompt : x.history ≠ []) (hown : bit (p.byte 20) 0 = false)
    (hpar : paramsOk x.params i.vocab s.srv.draft.isSome = true)
    (hslots : (if x.session.isSome then 9 else 1) * pMaxNew x.params ≤ p.field 32 4) (hroom : x.history.length ≠ i.maxContext) :
    Leaves (s.applyGenerate c p) slot (fun y => ∃ g, y.generate = some g ∧ g.f = c.f ∧ g.r = c.r ∧ g.q = c.q ∧ g.out = p.field 24 8 ∧
      g.emitted = 0 ∧ y.history = x.history ∧ y.st = if x.history.length ≤ x.stored + 1 then .decode else .prefill) := by
  have hlen : x.history.length ≠ 0 := fun h => hprompt (List.eq_nil_of_length_eq_zero h)
  simp only [State.applyGenerate, hmain, hseq, hidle, hgen, hlen, hown, hpar, Nat.not_lt.mpr hslots, hroom, reduceCtorEq, or_false,
    Option.isSome_none, Bool.not_true, Bool.false_and, Bool.false_eq_true, if_false, if_true, decide_eq_true_eq]
  refine ⟨rfl, _, (seq_congr (congrArg Srv.seqs ((ltr_srv _).trans ((journal_srv ..).trans (journalSeq_srv ..)))) slot).trans
    (putSeq_seq_self ..), _, rfl, rfl, rfl, rfl, rfl, rfl, rfl, rfl⟩

end

/-! ### CANCEL and CLOSE_SEQUENCE (R258, R304, R305) -/

/-- A sequence as CANCEL leaves it, but for its GENERATE. -/
def cancelled (x : Sequence) : Sequence :=
  match x.st with
  | .prefill => { x with history := x.history.take x.stored, st := .idle }
  | .decode => { x with st := .idle }
  | .evicted => { x with back := if x.back = .decode then .idle else x.back }
  | _ => x

theorem cancelled_spec (x : Sequence) :
    (cancelled x).st = (if x.st = .prefill ∨ x.st = .decode then .idle else x.st) ∧ (cancelled x).stored = x.stored ∧
      (cancelled x).pages = x.pages ∧ (cancelled x).history = if x.st = .prefill then x.history.take x.stored else x.history := by
  cases hst : x.st <;> simp [cancelled, hst]

theorem endGen_seq_self {s : State} {slot : Nat} {x : Sequence} (hx : s.seq slot = some x) (reason : Nat) :
    (s.endGen slot reason).seq slot = some { x with generate := none } := by
  unfold State.endGen
  rw [hx]
  dsimp only
  split
  next hgen => rw [hx, ← hgen]
  next g hgen => exact (seq_congr (finishWith_seqs ..) slot).trans (putSeq_seq_self ..)

theorem cancelSeq_seq_self {s : State} {slot : Nat} {x : Sequence} (hx : s.seq slot = some x) :
    (s.cancelSeq slot).seq slot = some { cancelled x with generate := none } := by
  unfold State.cancelSeq
  rw [hx]
  exact (seq_congr (congrArg Srv.seqs ((ltr_srv _).trans (journalSeq_srv ..))) slot).trans (endGen_seq_self (putSeq_seq_self ..) 6)

/-- A sequence that is closed holds no place and no GENERATE. -/
theorem closeSeq_seq_self {s : State} {slot : Nat} {x : Sequence} (hx : s.seq slot = some x) :
    ∃ y, (s.closeSeq slot).seq slot = some y ∧ y.st = .closing ∧ y.generate = none ∧ y.pages = [] ∧ y.ring = none ∧ y.tables = none ∧
      y.draftKv = KvPlaces.none ∧ y.late = none := by
  have hfreed := freePages_seq (s.cancelSeq slot) slot slot
  rw [if_pos rfl, cancelSeq_seq_self hx, Option.map_some] at hfreed
  unfold State.closeSeq
  dsimp only
  rw [hfreed]
  exact ⟨_, putSeq_seq_self .., rfl, rfl, rfl, rfl, rfl, rfl, rfl⟩

section
variable {s : State} {p : Pkt} {slot : Nat} {x : Sequence} (c : Recv)

theorem applyCancel_of_open (hseq : s.seqOf p.ctx (p.field 20 4) = some (slot, x)) (hopen : x.st ≠ .closing) :
    Leaves (s.applyCancel c p) slot (fun y => y.generate = none ∧ y.st = (if x.st = .prefill ∨ x.st = .decode then .idle else x.st) ∧
      y.stored = x.stored ∧ y.pages = x.pages ∧ y.history = if x.st = .prefill then x.history.take x.stored else x.history) := by
  simp only [State.applyCancel, hseq, hopen, if_false]
  exact ⟨rfl, _, (seq_congr (endCmd_seqs ..) slot).trans (cancelSeq_seq_self (seq_of_seqOf hseq)), rfl, cancelled_spec x⟩

theorem applyClose_of_open (hseq : s.seqOf p.ctx (p.field 16 4) = some (slot, x)) (hopen : x.st ≠ .closing) :
    Leaves (s.applyClose c p) slot (fun y => y.st = .closing ∧ y.generate = none ∧ y.pages = [] ∧ y.ring = none ∧ y.tables = none ∧
      y.draftKv = KvPlaces.none ∧ y.late = none) := by
  obtain ⟨y, hy, hclosed⟩ := closeSeq_seq_self (seq_of_seqOf hseq)
  simp only [State.applyClose, hseq, hopen, if_false]
  exact ⟨rfl, y, (seq_congr (endCmd_seqs ..) slot).trans hy, hclosed⟩

end

/-! ### FORK_SEQUENCE (R262, R306) -/

theorem applyFork_of_places {s u v : State} {c : Recv} {p : Pkt} {i : Image} {slot child : Nat} {x : Sequence} {k kd : KvPlaces}
    {l m : List Nat} (hmain : s.srv.main = some i) (hseq : s.seqOf p.ctx (p.field 16 4) = some (slot, x)) (hidle : x.st = .idle)
    (hfree : s.freeSlot c.slot = some child) (hkv : s.forkKv x false c.pages = some (k, l, u))
    (hdraft : u.forkKv x true l = some (kd, m, v)) :
    Leaves (s.applyFork c p) child (fun y => y.st = .idle ∧ y.history = x.history ∧ y.stored = x.stored ∧ y.kv false = k ∧
      y.kv true = kd ∧ y.seqId = BitVec.ofNat 64 (p.field 24 8) ∧ y.prio = bits (p.byte 32) 1 0 ∧ y.generate = none ∧
      y.params = x.params ∧ y.home = x.home) := by
  simp only [State.applyFork, hmain, hseq, hidle, hfree, hkv, hdraft, Option.bind_some, Option.map_some, ne_eq, not_true,
    reduceCtorEq, if_false]
  exact leaves_endCmd ((journalPages_srv ..).trans ((journalSeq_srv ..).trans (putTables_srv ..)))
    ⟨rfl, rfl, rfl, rfl, rfl, rfl, rfl, rfl, rfl, rfl⟩ ..

/-- Settles O42: each command by its rule above; that a closed slot is FREE with the boundary is log entry 114, and that an
IDLE sequence whose prompt is not stored enters PREFILL at a GENERATE is log entry 54. -/
theorem sequenceEffects : Obligations.SequenceEffects := by
  intro s s1 c p i slot x hmain
  refine ⟨?opened, ?appended, ?generates, fun hseq hopen => applyCancel_of_open c hseq hopen, ?closed, ?forked, ?places⟩
  case opened => exact fun mask bias k hload hfree hpar hplain hlists => applyOpen_of_lists hmain hload hfree hpar hplain hlists
  case appended =>
    exact fun bs k hseq hclosing hdecode hfailed hlist htoks hroom =>
      applyAppend_of_data hmain hseq hclosing hdecode hfailed hlist htoks hroom
  case generates =>
    intro hseq hidle hgen hprompt hown hpar hslots hroom
    obtain ⟨hends, y, hy, g, hg⟩ := applyGenerate_of_idle (c := c) hmain hseq hidle hgen hprompt hown hpar hslots hroom
    exact ⟨hends, y, g, hy, hg⟩
  case closed =>
    intro hseq hopen
    obtain ⟨hends, y, hy, hclosed⟩ := applyClose_of_open c hseq hopen
    exact ⟨hends, ⟨y, hy, hclosed⟩, freeClosed_seq_of_closing hy hclosed.1⟩
  case forked =>
    exact fun child k kd l m u v hseq hidle hfree hkv hdraft => applyFork_of_places hmain hseq hidle hfree hkv hdraft
  case places =>
    exact fun draft avail k l u himage hkv =>
      ⟨forkKv_take_pages himage hkv, forkKv_seqs himage hkv, forkKv_pages_of_whole himage hkv⟩

end Sys2Proof.Proofs
end

section
/-! PROOFS. Sequence packets (R250, R251, R255, R463): with no step in flight a received command is applied at once, by a boundary that
has nothing else to do. -/

namespace Sys2Proof.Proofs

open Sys2Proof Sys2Proof.Machine

/-! ### A boundary that only applies commands (R255) -/

/-- No step is in flight, no output waits for its buffer, and nothing is to leave: received commands are all that a boundary has. -/
structure Settled (s : State) : Prop where
  noStep : s.srv.step = none
  noLate : ∀ x ∈ s.srv.seqs, x.2.late = none
  seqsStay : ∀ x ∈ s.srv.seqs, (s.ctx x.2.ctx).draining = false ∧ (s.fn (s.ctx x.2.ctx).func).quiescing = false ∧
    (x.2.generate.map (·.cancel)).getD false = false
  programsStay : ∀ p ∈ s.srv.programs, (s.fn p.f).quiescing = false ∧ (s.fn p.f).barred = false

/-- An unhurried scheduler is settled, and no command waits for a boundary. -/
theorem settled_of_unhurried {s : State} (h : s.unhurried = true) : Settled s ∧ s.srv.received = [] := by
  simp only [State.unhurried, Bool.and_eq_true, List.all_eq_true, Bool.not_eq_true', Bool.or_eq_false_iff, Option.isNone_iff_eq_none,
    List.isEmpty_iff] at h
  obtain ⟨⟨⟨hstep, hreceived⟩, hseqs⟩, hprograms⟩ := h
  refine ⟨⟨hstep, fun x hx => ?_, fun x hx => ?_, hprograms⟩, hreceived⟩
  · obtain ⟨⟨⟨hlate, -⟩, -⟩, -⟩ := hseqs x hx
    exact hlate
  · obtain ⟨⟨⟨-, hdraining⟩, hquiescing⟩, hcancel⟩ := hseqs x hx
    exact ⟨hdraining, hquiescing, hcancel⟩

/-- A fold each of whose steps leaves what it starts from leaves it. -/
theorem foldl_eq_self {α β : Type} {f : α → β → α} {a : α} {l : List β} (h : ∀ b ∈ l, f a b = a) : l.foldl f a = a :=
  List.foldlRecOn (motive := (· = a)) l f rfl (fun _ ha b hb => ha ▸ h b hb)

section
variable {s : State} (h : Settled s)
include h

theorem late_of_settled {slot : Nat} {x : Sequence} (hx : s.seq slot = some x) : x.late = none := h.noLate _ (mem_of_mapFind hx)

theorem retryLate_of_settled : s.retryLate = s := by
  refine foldl_eq_self (fun e _ => ?_)
  have hnone : (s.seq e.1).bind (·.late) = none := Option.bind_eq_none_iff.mpr (fun x hx => late_of_settled h hx)
  rw [hnone]

theorem leaveAll_of_settled : s.leaveAll = s := by
  have hprograms : s.srv.programs.filter (fun p => !p.silent && ((s.fn p.f).quiescing || (s.fn p.f).barred)) = [] := by
    refine List.filter_eq_nil_iff.mpr (fun p hp => ?_)
    obtain ⟨hquiescing, hbarred⟩ := h.programsStay p hp
    simp [hquiescing, hbarred]
  unfold State.leaveAll
  rw [hprograms, List.foldl_nil]
  dsimp only
  refine (congrArg (fun t : State => t.srv.seqs.foldl _ t) (foldl_eq_self fun e he => ?closes)).trans
    (foldl_eq_self fun e he => ?cancels)
  case closes =>
    obtain ⟨hdraining, hquiescing, -⟩ := h.seqsStay e he
    rw [hdraining, hquiescing]
    rfl
  case cancels =>
    obtain ⟨-, -, hcancel⟩ := h.seqsStay e he
    rw [hcancel]
    rfl

theorem lateFor_of_settled (p : Pkt) : s.lateFor p = false := by
  have hseq (tag hdl : Nat) : ((s.seqOf tag hdl).map (fun x => x.2.late.isSome)).getD false = false := by
    cases hx : s.seqOf tag hdl with
    | none => rfl
    | some x => exact congrArg Option.isSome (late_of_settled h (seq_of_seqOf hx))
  rw [State.lateFor, hseq, Bool.and_false]

theorem commandLate_of_settled (c : Recv) : (s.recvPkt c).any (fun p => s.lateFor p) = false := by
  simp [lateFor_of_settled h]

/-- A command that waits stays received. -/
theorem applyAll_of_waits {c : Recv} (hwaits : (s.applyCmd c).1 = true) : s.applyAll [c] = (s.applyCmd c).2 := by
  simp only [State.applyAll, List.foldl_cons, List.foldl_nil, List.contains_nil, commandLate_of_settled h, hwaits,
    Bool.false_eq_true, if_false, if_true]

theorem applyAll_of_ends {c : Recv} (hends : (s.applyCmd c).1 = false) : s.applyAll [c] =
    { (s.applyCmd c).2 with srv := { (s.applyCmd c).2.srv with received := (s.applyCmd c).2.srv.received.filter (· ≠ c) } } := by
  simp only [State.applyAll, List.foldl_cons, List.foldl_nil, List.contains_nil, commandLate_of_settled h, hends,
    Bool.false_eq_true, if_false]

theorem boundary_of_settled : s.boundary = (s.applyAll s.srv.received).freeClosed := by
  simp only [State.boundary, h.noStep, retryLate_of_settled h, leaveAll_of_settled h, Option.isSome_none, Bool.false_eq_true, if_false]

end

/-! ### A command is received (R251, R463) -/

/-- The state in which a command has been received, its packet with it. -/
def withReceived (s : State) (c : Recv) : State :=
  let u := s.setRing c.f c.r ((s.ring c.f c.r).setPhase c.q .received)
  { u with srv := { u.srv with received := [c] } }

theorem receive_of_standby {s : State} (h : s.standbyHolds = true) (c : Recv) : s.receive c = s.finish c.f c.r c.q stDenied [] := by
  rw [State.receive, if_pos h]

theorem receive_of_unhurried {s : State} (hstandby : s.standbyHolds = false) (h : s.unhurried = true) (c : Recv) :
    s.receive c = ((withReceived s c).applyAll [c]).freeClosed ∧ Settled (withReceived s c) := by
  obtain ⟨hsettled, hreceived⟩ := settled_of_unhurried h
  have hwith : Settled (withReceived s c) := ⟨hsettled.noStep, hsettled.noLate, hsettled.seqsStay, hsettled.programsStay⟩
  refine ⟨Eq.trans ?_ (boundary_of_settled hwith), hwith⟩
  simp only [State.receive, hstandby, State.setRing_srv, hreceived, List.any_nil, List.nil_append, Bool.false_eq_true, if_false, withReceived]

/-! ### The sequence rows (R251) -/

section
variable {s : State} {f : FnId} {r : RingId} {q : PktSeq} {op n : Nat} {l : List Nat} {p : Pkt}

theorem seqPacket_of_ready {sel : Pkt → Bool} (hready : s.ready f r q op sel p = true) (hgen : (s.begun f r q p).genOf f r q = none) :
    s.seqPacket f r q op n l sel = .next ((s.begun f r q p).receive { f := f, r := r, q := q, slot := n, pages := l }) := by
  rw [State.seqPacket, State.packet_ready _ hready, hgen]
  rfl

/-- Each sequence row receives its command; CANCEL is of KIND 0. -/
theorem exec_sequenceRow_of_ready {slot : BitVec 15} {pages : List Nat} {i : Instr}
    (hrow : (i, op, n, l) ∈ [(Instr.openSequence f r q slot, 0x20, slot.toNat, []), (.appendTokens f r q, 0x21, 0, []),
      (.generate f r q, 0x22, 0, []), (.cancelSequence f r q, 0x23, 0, []), (.closeSequence f r q, 0x24, 0, []),
      (.forkSequence f r q slot pages, 0x25, slot.toNat, pages), (.snapshotSequence f r q, 0x26, 0, []),
      (.restoreSequence f r q slot pages, 0x27, slot.toNat, pages)])
    (hready : s.ready f r q op (fun p => decide (op ≠ 0x23) || decide (p.byte 16 = 0)) p = true)
    (hgen : (s.begun f r q p).genOf f r q = none) :
    exec i s = .next ((s.begun f r q p).receive { f := f, r := r, q := q, slot := n, pages := l }) := by
  simp only [List.mem_cons, Prod.mk.injEq, List.not_mem_nil, or_false] at hrow
  rcases hrow with ⟨rfl, rfl, rfl, rfl⟩ | ⟨rfl, rfl, rfl, rfl⟩ | ⟨rfl, rfl, rfl, rfl⟩ | ⟨rfl, rfl, rfl, rfl⟩ | ⟨rfl, rfl, rfl, rfl⟩ |
    ⟨rfl, rfl, rfl, rfl⟩ | ⟨rfl, rfl, rfl, rfl⟩ | ⟨rfl, rfl, rfl, rfl⟩ <;> exact seqPacket_of_ready hready hgen

end

/-- Settles O41: each row receives its command, and an unhurried boundary has that command alone to apply. That it is applied at once is
log entry 41, and that what is then CLOSING is FREE is log entry 114. -/
theorem sequenceCommands : Obligations.SequenceCommands := by
  intro f r q slot pages s p i op n l hrow hready t hgen hunhurried
  have hexec := exec_sequenceRow_of_ready hrow hready hgen
  refine ⟨fun hstandby => ?refused, fun hstandby => ?applied⟩
  case refused => rw [hexec, receive_of_standby hstandby, stDenied]
  case applied =>
    intro c u a
    obtain ⟨hreceive, hsettled⟩ := receive_of_unhurried hstandby hunhurried c
    refine ⟨fun hwaits => ?_, fun hends => ?_⟩
    · rw [hexec, hreceive, applyAll_of_waits hsettled hwaits]
      rfl
    · rw [hexec, hreceive, applyAll_of_ends hsettled hends]
      rfl

end Sys2Proof.Proofs
end

section
/-! PROOFS. Snapshots (R307): the bytes of a snapshot are a run of fields, each read back at the sum of the lengths before it. -/

namespace Sys2Proof.Proofs

open Sys2Proof Sys2Proof.Machine

/-! ### Fields in a run of bytes (R11) -/

theorem leNat_natLe (n k : Nat) : leNat (natLe n k) = n % 256 ^ k := by
  induction k generalizing n with
  | zero => simp [natLe, leNat, Nat.mod_one]
  | succ k ih =>
    have hmod : n % 256 ^ (k + 1) = n % 256 + 256 * (n / 256 % 256 ^ k) := by rw [Nat.pow_succ', Nat.mod_mul]
    rw [natLe, leNat, ih, BitVec.toNat_ofNat, hmod]

theorem sliceBytes_length (bs : Bytes) (off len : Nat) : (sliceBytes bs off len).length = len := by
  simp only [sliceBytes, List.length_append, List.length_replicate, List.length_take]
  omega

theorem sliceBytes_of_take {bs f : Bytes} {off : Nat} (h : (bs.drop off).take f.length = f) : sliceBytes bs off f.length = f := by
  simp [sliceBytes, h]

/-- A run that is shorter than the field is given zeros behind it. -/
theorem sliceBytes_zero_of_le {bs : Bytes} {len : Nat} (h : bs.length ≤ len) :
    sliceBytes bs 0 len = bs ++ List.replicate (len - bs.length) 0 := by
  simp [sliceBytes, List.take_of_length_le h]

/-- The j-th of joined pieces stands where the pieces before it end. -/
theorem take_drop_flatten {l : List Bytes} {j off : Nat} {f : Bytes} (hj : l[j]? = some f) (hoff : (l.take j).flatten.length = off) :
    (l.flatten.drop off).take f.length = f := by
  obtain ⟨hlt, hget⟩ := List.getElem?_eq_some_iff.mp hj
  have hsplit : l.flatten = (l.take j).flatten ++ (f ++ (l.drop (j + 1)).flatten) := by
    rw [← hget, ← List.flatten_cons, List.getElem_cons_drop, ← List.flatten_append, List.take_append_drop]
  rw [hsplit, ← hoff, List.drop_left, List.take_left]

theorem sliceBytes_flatten {l : List Bytes} {j off len : Nat} {f : Bytes} (hj : l[j]? = some f)
    (hoff : (l.take j).flatten.length = off) (hlen : f.length = len) : sliceBytes l.flatten off len = f :=
  hlen ▸ sliceBytes_of_take (take_drop_flatten hj hoff)

theorem fieldLe_flatten {l : List Bytes} {j off n k : Nat} (hj : l[j]? = some (natLe n k))
    (hoff : (l.take j).flatten.length = off) (hn : n < 256 ^ k) : fieldLe l.flatten off k = n := by
  have hfield := take_drop_flatten hj hoff
  rw [natLe_length] at hfield
  rw [Machine.fieldLe, hfield, leNat_natLe, Nat.mod_eq_of_lt hn]

theorem pad64_length_mod (bs : Bytes) : (pad64 bs).length % 64 = 0 := by
  simp only [pad64, padTo, List.length_append, List.length_replicate]
  omega

/-! ### The pieces of a snapshot without KV (R307) -/

def snapFlags (x : Sequence) : Nat := x.prio + 4 * b2n false + 8 * b2n (!x.keyRng) + 16 * b2n x.session.isSome

def snapKey (x : Sequence) : Bytes := if x.keyRng then List.replicate 16 0 else sliceBytes x.key 0 16

/-- The fields of the header. -/
def snapHead (i : Image) (x : Sequence) : List Bytes :=
  [natLe 0x534E_5A41 4, sliceBytes i.digest 0 48, natLe x.seqId.toNat 8, natLe x.history.length 4, natLe x.stored 4,
    natLe (snapFlags x) 1, [0, 0, 0], sliceBytes x.params 0 128, snapKey x, natLe ((x.generate.map (·.emitted)).getD 0) 8]

def snapLengths : List Nat := [4, 48, 8, 4, 4, 1, 3, 128, 16, 8]

/-- The header, zeros to 512 bytes, the tokens, and what follows them. -/
def snapPieces (i : Image) (x : Sequence) (rest : Bytes) : List Bytes :=
  (snapHead i x ++ [List.replicate 288 0]) ++ (x.history.map (natLe · 4) ++ [rest])

theorem snapKey_length (x : Sequence) : (snapKey x).length = 16 := by
  unfold snapKey
  split
  · rfl
  · exact sliceBytes_length ..

theorem snapHead_lengths (i : Image) (x : Sequence) : (snapHead i x).map List.length = snapLengths := by
  simp only [snapHead, List.map_cons, natLe_length, sliceBytes_length, snapKey_length]
  rfl

theorem snapHead_offset (i : Image) (x : Sequence) (j : Nat) : ((snapHead i x).take j).flatten.length = (snapLengths.take j).sum := by
  rw [List.length_flatten, List.map_take, snapHead_lengths]

theorem snapHead_length (i : Image) (x : Sequence) : (snapHead i x).flatten.length = 224 := by
  rw [List.length_flatten, snapHead_lengths]
  rfl

theorem snapshot_eq (s : State) (i : Image) (x : Sequence) : s.snapshot i x false = ((snapHead i x).flatten ++ List.replicate 288 0) ++
    (pad64 (x.history.flatMap (fun t => natLe t 4)) ++ (pad64 x.mask ++ pad64 (biasBytes x.bias))) := by
  have hkey : (if (!x.keyRng) = true then sliceBytes x.key 0 16 else List.replicate 16 0) = snapKey x := by
    unfold snapKey
    cases x.keyRng <;> rfl
  have hhead : natLe 0x534E_5A41 4 ++ sliceBytes i.digest 0 48 ++ natLe x.seqId.toNat 8 ++ natLe x.history.length 4 ++
      natLe x.stored 4 ++ natLe (snapFlags x) 1 ++ [0, 0, 0] ++ sliceBytes x.params 0 128 ++ snapKey x ++
      natLe ((x.generate.map (·.emitted)).getD 0) 8 = (snapHead i x).flatten := by
    simp only [snapHead, List.flatten_cons, List.flatten_nil, List.append_assoc, List.append_nil]
  unfold State.snapshot
  dsimp only
  rw [hkey, ← snapFlags, hhead, sliceBytes_zero_of_le (by rw [snapHead_length]; decide), snapHead_length, if_neg Bool.false_ne_true,
    List.append_nil, List.append_assoc, List.append_assoc]

theorem snapshot_pieces (s : State) (i : Image) (x : Sequence) : ∃ rest, s.snapshot i x false = (snapPieces i x rest).flatten := by
  refine ⟨List.replicate ((64 - (x.history.flatMap (fun t => natLe t 4)).length % 64) % 64) 0 ++ (pad64 x.mask ++ pad64 (biasBytes x.bias)),
    (snapshot_eq s i x).trans ?_⟩
  rw [snapPieces, pad64, padTo, List.flatten_append, List.flatten_append, List.flatten_append, List.flatten_singleton,
    List.flatten_singleton, ← List.flatMap_def, List.append_assoc (x.history.flatMap _)]

theorem snapshot_length (s : State) (i : Image) (x : Sequence) :
    (s.snapshot i x false).length % 64 = 0 ∧ 512 ≤ (s.snapshot i x false).length := by
  have htokens := pad64_length_mod (x.history.flatMap (fun t => natLe t 4))
  have hmask := pad64_length_mod x.mask
  have hbias := pad64_length_mod (biasBytes x.bias)
  simp only [snapshot_eq, List.length_append, snapHead_length, List.length_replicate]
  omega

theorem snapFlags_bits {x : Sequence} (h : x.prio < 4) : snapFlags x < 256 ∧ bits (snapFlags x) 1 0 = x.prio ∧
    bit (snapFlags x) 2 = false ∧ bit (snapFlags x) 3 = !x.keyRng ∧ bit (snapFlags x) 4 = x.session.isSome := by
  unfold snapFlags
  generalize x.prio = n at h
  cases x.keyRng <;> cases x.session.isSome <;> interval_cases n <;> decide

section

variable {i : Image} {x : Sequence} {rest : Bytes}

theorem snapPieces_getElem {j : Nat} {f : Bytes} (hj : (snapHead i x)[j]? = some f) : (snapPieces i x rest)[j]? = some f ∧
    ((snapPieces i x rest).take j).flatten.length = (snapLengths.take j).sum := by
  obtain ⟨hlt, -⟩ := List.getElem?_eq_some_iff.mp hj
  have hhead : snapPieces i x rest = snapHead i x ++ ([List.replicate 288 0] ++ (x.history.map (natLe · 4) ++ [rest])) :=
    List.append_assoc ..
  rw [hhead, List.getElem?_append_left hlt, List.take_append_of_le_length hlt.le]
  exact ⟨hj, snapHead_offset i x j⟩

/-- Field j of the header is read back. -/
theorem snapPieces_slice (j : Nat) {off len : Nat} {f : Bytes} (hj : (snapHead i x)[j]? = some f)
    (hoff : (snapLengths.take j).sum = off) (hlen : f.length = len) : sliceBytes (snapPieces i x rest).flatten off len = f :=
  have ⟨hpiece, hbefore⟩ := snapPieces_getElem hj
  sliceBytes_flatten hpiece (hbefore.trans hoff) hlen

theorem snapPieces_field (j : Nat) {off n k : Nat} (hj : (snapHead i x)[j]? = some (natLe n k))
    (hoff : (snapLengths.take j).sum = off) (hn : n < 256 ^ k) : fieldLe (snapPieces i x rest).flatten off k = n :=
  have ⟨hpiece, hbefore⟩ := snapPieces_getElem hj
  fieldLe_flatten hpiece (hbefore.trans hoff) hn

theorem snapPieces_token {j t : Nat} (hj : x.history[j]? = some t) (ht : t < 2 ^ 32) :
    fieldLe (snapPieces i x rest).flatten (512 + 4 * j) 4 = t := by
  obtain ⟨hlt, -⟩ := List.getElem?_eq_some_iff.mp hj
  have hlt' : j < (x.history.map (natLe · 4)).length := by simpa using hlt
  have hbefore : ((x.history.map (natLe · 4)).take j).flatten.length = 4 * j := by
    have hwidth : (x.history.map (natLe · 4)).map List.length = List.replicate x.history.length 4 := by simp [Function.comp_def]
    rw [List.length_flatten, List.map_take, hwidth, List.take_replicate, List.sum_replicate, Nat.min_eq_left hlt.le, smul_eq_mul,
      Nat.mul_comm]
  refine fieldLe_flatten (j := (snapHead i x ++ [List.replicate 288 0]).length + j) ?_ ?_ ht
  · rw [snapPieces, List.getElem?_append_right (Nat.le_add_right ..), Nat.add_sub_cancel_left, List.getElem?_append_left hlt',
      List.getElem?_map, hj]
    rfl
  · rw [snapPieces, List.take_length_add_append, List.take_append_of_le_length hlt'.le, List.flatten_append, List.flatten_append,
      List.length_append, List.length_append, snapHead_length, hbefore, List.flatten_singleton, List.length_replicate]

end

/-- Settles O43: the pieces of the snapshot are read back one by one. -/
theorem snapshotLayout : Obligations.SnapshotLayout := by
  intro s i x hhistory hstored hprio hparams hkey htokens b
  obtain ⟨hflags, hprio', hkv, hkeyIn, hsession⟩ := snapFlags_bits hprio
  obtain ⟨rest, hb⟩ : ∃ rest, b = (snapPieces i x rest).flatten := snapshot_pieces s i x
  have hflagByte : fieldLe b 68 1 = snapFlags x := hb ▸ snapPieces_field 5 rfl rfl hflags
  have whole {bs : Bytes} {n : Nat} (h : bs.length = n) : sliceBytes bs 0 n = bs := by simp [sliceBytes_zero_of_le h.le, h]
  rw [hflagByte]
  refine ⟨?magic, ?digest, ?seqId, ?length, ?stored, hprio', hkv, hkeyIn, hsession, ?params, fun hin => ?key, fun j t hj => ?token,
    snapshot_length s i x⟩
  all_goals rw [hb]
  case magic => exact snapPieces_field 0 rfl rfl (by decide)
  case digest => exact snapPieces_slice 1 rfl rfl (sliceBytes_length ..)
  case seqId => exact snapPieces_field 2 rfl rfl x.seqId.isLt
  case length => exact snapPieces_field 3 rfl rfl hhistory
  case stored => exact snapPieces_field 4 rfl rfl hstored
  case params => exact (snapPieces_slice 7 rfl rfl (sliceBytes_length ..)).trans (whole hparams)
  case key => exact (snapPieces_slice 8 rfl rfl (snapKey_length x)).trans (by simp [snapKey, hin, whole hkey])
  case token => exact snapPieces_token hj (htokens t (List.mem_of_getElem? hj))

end Sys2Proof.Proofs
end

section
/-! PROOFS. The end of a packet (R290): its one final completion, and the packet is no longer one of its ring. -/

namespace Sys2Proof.Proofs

open Sys2Proof Sys2Proof.Machine

theorem produce_of_serving {s : State} {f : Nat} (h : (s.fn f).quiescing = false) (r : Nat) (c : Completion) :
    s.produce f r c = s.setRing f r { s.ring f r with held := (s.ring f r).held ++ [c] } :=
  if_neg (by simp [h])

/-- A completion without output writes and without a mirrored effect is produced at once, if its function is not quiescing. -/
theorem release_completion (s : State) (tag f r : Nat) (c : Completion) : s.release tag f r (some c) [] false = s.produce f r c := by
  unfold State.release
  split
  next h => rw [State.produce, if_pos h]
  next => rfl

/-- The state in which packet q is done and nothing is awaited for it. -/
def packetDone (s : State) (f r : Nat) (q : BitVec 16) : State :=
  let t := (s.dropWaits (pktW f r q)).setRing f r ((s.ring f r).setPhase q .done)
  { t with srv := { t.srv with received := t.srv.received.filter (fun y => !(y.f = f && y.r = r && y.q = q)) } }

theorem finishWith_of_pkt {s : State} {f r : Nat} {q : BitVec 16} {p : Pkt} (hp : (s.ring f r).pkt q = some p) (st : Nat) (res : Bytes)
    (ws : List Planned) (mirrored : Bool) : s.finishWith f r q st res ws mirrored =
      (packetDone s f r q).release p.ctx f r (some (p.completion st true res)) ws mirrored := by
  unfold State.finishWith
  dsimp only
  rw [hp]
  rfl

theorem finish_of_pkt {s : State} {f r : Nat} {q : BitVec 16} {p : Pkt} (hp : (s.ring f r).pkt q = some p) (st : Nat) (res : Bytes) :
    s.finish f r q st res = (packetDone s f r q).produce f r (p.completion st true res) := by
  rw [State.finish, finishWith_of_pkt hp, release_completion]

theorem produce_changes (s : State) (f r : Nat) (c : Completion) : ∃ g, s.produce f r c = { s with rings := g } := by
  unfold State.produce
  split
  · exact ⟨s.rings, rfl⟩
  · exact ⟨_, rfl⟩

/-- A completion without output writes is discarded, held for the mirror or produced. -/
theorem release_changes (s : State) (tag f r : Nat) (c : Completion) (mirrored : Bool) : ∃ g h,
    s.release tag f r (some c) [] mirrored = { s with rings := g, mir := { s.mir with holds := h } } := by
  unfold State.release
  split
  · exact ⟨s.rings, s.mir.holds, rfl⟩
  · split
    · exact ⟨s.rings, _, rfl⟩
    · obtain ⟨g, hg⟩ := produce_changes s f r c
      exact ⟨g, s.mir.holds, hg⟩

/-- All that a packet's end without output writes can change. -/
theorem finishWith_changes (s : State) (f r : Nat) (q : BitVec 16) (st : Nat) (res : Bytes) (mirrored : Bool) : ∃ x o g l h,
    s.finishWith f r q st res [] mirrored = { s with
      xlt := x, port := o, rings := g, srv := { s.srv with received := l }, mir := { s.mir with holds := h } } := by
  cases hp : (s.ring f r).pkt q with
  | none =>
    refine ⟨s.xlt, s.port, s.rings, s.srv.received, s.mir.holds, ?_⟩
    unfold State.finishWith
    dsimp only
    rw [hp]
  | some p =>
    obtain ⟨g, h, heq⟩ := release_changes (packetDone s f r q) p.ctx f r (p.completion st true res) mirrored
    rw [finishWith_of_pkt hp, heq]
    exact ⟨_, _, _, _, _, rfl⟩

section

variable {γ : Type} (view : State → γ)
  (h : ∀ (s : State) x o g l k, view { s with
    xlt := x, port := o, rings := g, srv := { s.srv with received := l }, mir := { s.mir with holds := k } } = view s)

include h

/-- What is no matter of translation, port, rings, received commands and held output is as it was. -/
theorem finishWith_keeps (s : State) (f r : Nat) (q : BitVec 16) (st : Nat) (res : Bytes) (mirrored : Bool) :
    view (s.finishWith f r q st res [] mirrored) = view s := by
  obtain ⟨x, o, g, l, k, heq⟩ := finishWith_changes s f r q st res mirrored
  rw [heq, h]

theorem finish_keeps (s : State) (f r : Nat) (q : BitVec 16) (st : Nat) (res : Bytes) : view (s.finish f r q st res) = view s :=
  finishWith_keeps view h s f r q st res false

end

/-- A packet that is done is found by its number no more. -/
theorem setPhase_done_pkt (x : Ring) (q : BitVec 16) : (x.setPhase q .done).pkt q = none := by
  refine List.find?_eq_none.mpr (fun y hy => ?_)
  obtain ⟨z, -, rfl⟩ := List.mem_map.mp hy
  by_cases hz : (z.seq = q && decide (z.phase ≠ .done)) = true
  · rw [if_pos hz]
    simp
  · rw [if_neg hz]
    exact hz

theorem startable_of_pkt_none {x : Ring} {q : BitVec 16} (h : x.pkt q = none) : x.startable q = none := by
  rw [Ring.startable, h]

/-- A packet that ends leaves its ring with one more completion held. -/
theorem finish_ring_self {f r : Nat} {q : BitVec 16} {s : State} {p : Pkt} (hp : (s.ring f r).pkt q = some p)
    (hserves : (s.fn f).quiescing = false) (st : Nat) (res : Bytes) : (s.finish f r q st res).ring f r =
      { (s.ring f r).setPhase q .done with held := (s.ring f r).held ++ [p.completion st true res] } := by
  have hserves' : ((packetDone s f r q).fn f).quiescing = false := hserves
  have hdone : (packetDone s f r q).ring f r = (s.ring f r).setPhase q .done := State.setRing_ring_self ..
  rw [finish_of_pkt hp, produce_of_serving hserves', State.setRing_ring_self, hdone]
  rfl

/-- Settles O40: the ring's list of held completions is one longer, and no packet of that number is left that is not done. -/
theorem oneFinalCompletion : Obligations.OneFinalCompletion := by
  intro f r q s p st res hp hserves hst t
  have hring := finish_ring_self hp hserves st res
  have hnone : (t.ring f r).pkt q = none := (congrArg (Ring.pkt · q) hring).trans (setPhase_done_pkt ..)
  refine ⟨⟨p.completion st true res, congrArg Ring.held hring, rfl, rfl, rfl, rfl, rfl⟩, hnone, startable_of_pkt_none hnone, ?_, ?_⟩
  · exact finish_keeps State.mem (fun _ _ _ _ _ _ => rfl) ..
  · exact finish_keeps State.cores (fun _ _ _ _ _ _ => rfl) ..

end Sys2Proof.Proofs
end

section
/-! PROOFS. DIAGNOSE (R318, R446): the echo, the Night Log, and the packet check for any other TEST. -/

namespace Sys2Proof.Proofs

open Sys2Proof Sys2Proof.Machine

/-- A packet of a known opcode and LENGTH version whose fields are out of range is a bad packet (R286). -/
theorem judge_of_badFields {s : State} {p : Pkt} {lens : List Nat} {need pf : Bool} (f : Nat)
    (hrow : opcodeRow p.opcode = some (lens, need, pf)) (hversion : p.byte 3 = 1) (hfields : s.fieldsOk p = false) :
    s.judge f p = some 3 := by
  unfold State.judge
  rw [hrow]
  simp [hversion, hfields, stBad]

theorem fieldsOk_of_unknownTest {p : Pkt} (hop : p.opcode = 0x7E) (htest : 2 ≤ p.byte 16) (s : State) : s.fieldsOk p = false := by
  have hrange : ¬ p.byte 16 ≤ 1 := by omega
  simp [State.fieldsOk, hop, hrange]

/-- Settles O39: both rows are the frame of a packet around what they do, and the range of TEST is one of the packet checks. -/
theorem diagnosePackets : Obligations.DiagnosePackets := by
  intro f r q s p t
  refine ⟨fun hready => ?echo, fun hready ws s1 hplan => ?nightLog, fun hop hversion htest => ?other⟩
  case echo => exact carried_of_ready (execDiagnoseEcho.eq_def f r q s) hready
  case nightLog =>
    exact (carried_of_ready (execDiagnoseNightLog.eq_def f r q s) hready).trans (congrArg _ (giveRecord_of_planned [] le_rfl hplan))
  case other => exact judge_of_badFields f (congrArg opcodeRow hop) hversion (fieldsOk_of_unknownTest hop htest s)

end Sys2Proof.Proofs
end

section
/-! PROOFS. Doorbells, RESUME, the enabling and the draining of a ring (R279 to R282, R286, R290, R291, R431). -/

namespace Sys2Proof.Proofs

open Sys2Proof Sys2Proof.Machine

/-! ### Interfaces that are not locked (R377) -/

theorem tdiRingWrite_of_unlocked {s : State} {f : Nat} (hlocked : (s.fn f).tdi ≠ .locked) (hrun : (s.fn f).tdi ≠ .run) (r : Nat) :
    s.tdiRingWrite f r = s := by
  unfold State.tdiRingWrite State.tdiError
  dsimp only
  rw [if_neg (not_or.mpr ⟨hlocked, hrun⟩), ite_self]

/-- What becomes of a ring whose pages are looked for as it is enabled. -/
def enabledBy (f r : Nat) (x : Ring) : Option Bool × State → State
  | (some false, s) => s.setRing f r { x with stopCause := 4, enable := false }
  | (some true, s) => s.setRing f r { x with
      st := .active, stopCause := 0, enable := true, sqHead := 0, nextSeq := 0, sqPhase := true, tail := 0, cqHead := 0, cqNext := 0,
      cqPhase := true, reread := .none, pkts := [], held := [], again := false }
  | (none, s) => s

section

variable {f : FnId} {r : RingId} {s : State} (hl : s.port.linkUp = true) (ho : s.barOpen f = true)

include hl ho

/-! ### Doorbells (R280, R290, R291) -/

theorem exec_sqDoorbell_of_reading (v : BitVec 64) (hdisabled : (s.ring f r).st ≠ .disabled) (hdraining : (s.ring f r).st ≠ .draining) :
    let x := s.ring f r
    exec (.sqDoorbell f r v) s = .next (s.setRing f r { x with
      tail := bits v.toNat 15 0 % x.sqSlots, st := if x.st = .doorbellAhead then .active else x.st,
      again := x.again || decide (x.st = .doorbellAhead) }) := by
  intro x
  change execSqDoorbell f r v s = _
  rw [execSqDoorbell, barAccess_of_open hl ho]
  exact congrArg _ (if_neg (not_or.mpr ⟨hdisabled, hdraining⟩))

theorem exec_sqDoorbell_of_deaf (v : BitVec 64) (h : (s.ring f r).st = .disabled ∨ (s.ring f r).st = .draining) :
    exec (.sqDoorbell f r v) s = .next s := by
  change execSqDoorbell f r v s = _
  rw [execSqDoorbell, barAccess_of_open hl ho]
  exact congrArg _ (if_pos h)

theorem exec_cqDoorbell (v : BitVec 64) :
    exec (.cqDoorbell f r v) s = .next (s.setRing f r { s.ring f r with cqHead := bits v.toNat 15 0 }) :=
  congrArg _ (barAccess_of_open hl ho _)

/-! ### RESUME (R280, R286) -/

theorem exec_resume_of_stopped (hlocked : (s.fn f).tdi ≠ .locked) (hrun : (s.fn f).tdi ≠ .run) (h : (s.ring f r).st = .stopped) :
    exec (.resume f r) s =
      .next (s.setRing f r { s.ring f r with st := .active, stopCause := 0, reread := .none, again := true }) := by
  change execResume f r s = _
  rw [execResume, barAccess_of_open hl ho]
  dsimp only
  rw [tdiRingWrite_of_unlocked hlocked hrun, if_pos h]

/-! ### Enabling a ring (R279, R281, R431) -/

section

variable (hdisabled : (s.ring f r).st = .disabled)

include hdisabled

theorem exec_ringEnable_of_refused (h : s.boot.state = 3 ∨ s.ringConfigOk f (s.ring f r) = false) :
    exec (.ringEnable f r) s = .next (s.setRing f r { s.ring f r with stopCause := 4, enable := false }) := by
  change execRingEnable f r s = _
  rw [execRingEnable, barAccess_of_open hl ho]
  dsimp only
  rw [if_neg (by simp [hdisabled]), if_pos (by simpa using h)]

/-- A ring whose configuration is in range is refused, waits or is ACTIVE, as its pages are found. -/
theorem exec_ringEnable_of_inRange (hboot : s.boot.state ≠ 3) (hok : s.ringConfigOk f (s.ring f r) = true) {pages : Option Bool × State}
    (hpages : (s.setRing f r { s.ring f r with enable := true }).pairPages f r = pages) :
    exec (.ringEnable f r) s = .next (enabledBy f r (s.ring f r) pages) := by
  change execRingEnable f r s = _
  rw [execRingEnable, barAccess_of_open hl ho, ← hpages]
  dsimp only
  rw [if_neg (by simp [hdisabled]), if_neg (by simpa [hok] using hboot)]
  rfl

end

/-! ### A ring whose ENABLE is cleared (R282) -/

section

variable (hlocked : (s.fn f).tdi ≠ .locked) (hrun : (s.fn f).tdi ≠ .run)

include hlocked hrun

theorem exec_ringDisable_of_unlocked : exec (.ringDisable f r) s = .next (s.drainRing f r) := by
  change execRingDisable f r s = _
  rw [execRingDisable, barAccess_of_open hl ho, tdiRingWrite_of_unlocked hlocked hrun]

theorem exec_ringDisable_of_disabled (h : (s.ring f r).st = .disabled) :
    exec (.ringDisable f r) s = .next (s.setRing f r { s.ring f r with enable := false }) := by
  rw [exec_ringDisable_of_unlocked hl ho hlocked hrun]
  exact congrArg _ (if_pos h)

theorem exec_ringDisable_of_serving (hdisabled : (s.ring f r).st ≠ .disabled) (hdraining : (s.ring f r).st ≠ .draining) :
    let x := s.ring f r
    exec (.ringDisable f r) s = .next ((x.pkts.filter (fun p => decide (p.phase ≠ .done))).foldl (fun t p => t.drainPkt f r p)
      (s.setRing f r { x with st := .draining, enable := false, reread := .none, again := false,
                              tail := if x.st = .active then x.tail else x.sqHead })) := by
  intro x
  rw [exec_ringDisable_of_unlocked hl ho hlocked hrun]
  exact congrArg _ ((if_neg hdisabled).trans (if_neg hdraining))

end

end

theorem exec_ringDrainDone_of_empty {f : FnId} {r : RingId} {s : State} (hst : (s.ring f r).st = .draining)
    (hread : (s.ring f r).sqHead = (s.ring f r).tail) (hpkts : (s.ring f r).pkts = []) (hheld : (s.ring f r).held = []) :
    exec (.ringDrainDone f r) s = .next (s.setRing f r { s.ring f r with st := .disabled }) :=
  if_pos ⟨hst, hread, hpkts, hheld⟩

/-! ### The packets of a draining ring (R282) -/

section

variable {f r : Nat} {s : State} {p : Pkt}

theorem drainPkt_of_runsOn (h : runsOn p.opcode = true) : s.drainPkt f r p = s := if_pos h

section

variable (hends : runsOn p.opcode = false)

include hends

theorem drainPkt_of_generate {slot : Nat} (h : s.genOf f r p.seq = some slot) : s.drainPkt f r p = s.markCancel slot := by
  rw [State.drainPkt, if_neg (by simp [hends]), h]

theorem drainPkt_of_program {g : Program} (hgen : s.genOf f r p.seq = none) (h : s.progOf f r p.seq = some g) :
    s.drainPkt f r p = s.cancelProg g := by
  rw [State.drainPkt, if_neg (by simp [hends]), hgen]
  dsimp only
  rw [h]

theorem drainPkt_of_waiting (hgen : s.genOf f r p.seq = none) (hprog : s.progOf f r p.seq = none)
    (h : p.phase ≠ .running ∨ p.opcode = 0x30) : s.drainPkt f r p = s.finish f r p.seq stAborted [] := by
  rw [State.drainPkt, if_neg (by simp [hends]), hgen]
  dsimp only
  rw [hprog]
  dsimp only
  rw [if_neg (by rcases h with h | h <;> simp [h])]

end

end

/-- Settles O31: each register write acts behind the gate of its BAR on the one ring that it names. That TAIL is 0 when a ring is enabled
is log entry 43, and which announced packets a draining ring still reads is log entry 49. -/
theorem ringRegisters : Obligations.RingRegisters := by
  refine ⟨?registers, ?enable, fun f r s => ⟨?disable, exec_ringDrainDone_of_empty, ?packets⟩⟩
  case registers =>
    exact fun f r v s hl ho => ⟨exec_sqDoorbell_of_reading hl ho v, exec_sqDoorbell_of_deaf hl ho v, exec_cqDoorbell hl ho v,
      exec_resume_of_stopped hl ho⟩
  case enable =>
    intro f r s s2 hl ho hdisabled x pages
    refine ⟨exec_ringEnable_of_refused hl ho hdisabled, fun hboot hok => ?_⟩
    have row {found : Option Bool × State} := exec_ringEnable_of_inRange (pages := found) hl ho hdisabled hboot hok
    exact ⟨row, row, row⟩
  case disable =>
    exact fun hl ho hlocked hrun => ⟨exec_ringDisable_of_disabled hl ho hlocked hrun, exec_ringDisable_of_serving hl ho hlocked hrun⟩
  case packets =>
    exact fun p => ⟨drainPkt_of_runsOn, fun hends => ⟨fun slot => drainPkt_of_generate hends, fun hgen =>
      ⟨fun g => drainPkt_of_program hends hgen, drainPkt_of_waiting hends hgen⟩⟩⟩

end Sys2Proof.Proofs
end

section
/-! PROOFS. Reading and judging packets (R286, R287, R291, R292): what a row does with what it finds at the head of its ring. -/

namespace Sys2Proof.Proofs

open Sys2Proof Sys2Proof.Machine

/-! ### The outcomes of a read (R286, R291, R292) -/

section

variable {f : FnId} {r : RingId} {s s1 : State}

/-- What PACKET_READ does with what it finds, in the state after the read. -/
def packetFound (f r : Nat) : HeadRead × State → State
  | (.wait, s) => s
  | (.failed, s) => s.stopRing f r 3
  | (.stale, s) => (s.reread f r).setRing f r { s.ring f r with reread := .phase 0 }
  | (.torn _, s) => (s.reread f r).setRing f r { s.ring f r with reread := .torn 0 }
  | (.sound bs, s) => s.accept f r bs

section

variable (hreads : s.ringReads f r = true) (hreread : (s.ring f r).reread = .none)

include hreads hreread

theorem exec_packetRead_of_turnHad (hwaits : (s.srv.turned.contains (64 * f.val + r.val) && s.turnDue (64 * f.val + r.val)) = true) :
    exec (.packetRead f r) s = .next s :=
  if_pos (by simp only [hreads, hreread, hwaits, Bool.or_true])

theorem exec_packetRead_of_turn (hwaits : (s.srv.turned.contains (64 * f.val + r.val) && s.turnDue (64 * f.val + r.val)) = false)
    {found : HeadRead × State} (hfound : (s.takeTurn (64 * f.val + r.val)).readHead f r true = found) :
    exec (.packetRead f r) s = .next (packetFound f r found) := by
  change execPacketRead f r s = _
  rw [execPacketRead, ← hfound]
  dsimp only
  rw [if_neg (by rw [hreads, hreread, hwaits]; decide)]
  generalize (s.takeTurn (64 * f.val + r.val)).readHead f r true = found
  obtain ⟨_ | _ | _ | _ | _, t⟩ := found <;> rfl

end

section

variable (hreads : s.ringReads f r = true) {n : Nat}

include hreads

theorem exec_phaseReread_of_stale (hreread : (s.ring f r).reread = .phase n) (hhead : s.readHead f r true = (.stale, s1)) :
    exec (.phaseReread f r) s = .next ((s1.reread f r).setRing f r
      (if 7 ≤ n then (s1.ring f r).countReread.park else { (s1.ring f r).countReread with reread := .phase (n + 1) })) := by
  change execPhaseReread f r s = _
  unfold execPhaseReread
  rw [hreread]
  dsimp only
  rw [if_neg (by simp [hreads]), hhead]
  dsimp only
  split <;> rfl

theorem exec_phaseReread_of_sound {bs : Bytes} (hreread : (s.ring f r).reread = .phase n) (hhead : s.readHead f r true = (.sound bs, s1)) :
    exec (.phaseReread f r) s = .next ((s1.setRing f r (s1.ring f r).countReread).accept f r bs) := by
  change execPhaseReread f r s = _
  unfold execPhaseReread
  rw [hreread]
  dsimp only
  rw [if_neg (by simp [hreads]), hhead]

theorem exec_tornReread_of_torn {b : Bytes} (hreread : (s.ring f r).reread = .torn n) (hhead : s.readHead f r false = (.torn b, s1)) :
    exec (.tornReread f r) s = .next (
      if 7 ≤ n then ((s1.reread f r).setRing f r ((s1.ring f r).countReread.stop 1)).produce f r (tornCompletion (s1.ring f r).countReread b)
      else (s1.reread f r).setRing f r { (s1.ring f r).countReread with reread := .torn (n + 1) }) := by
  change execTornReread f r s = _
  unfold execTornReread
  rw [hreread]
  dsimp only
  rw [if_neg (by simp [hreads]), hhead]
  dsimp only
  split <;> rfl

theorem exec_tornReread_of_sound {bs : Bytes} (hreread : (s.ring f r).reread = .torn n) (hhead : s.readHead f r false = (.sound bs, s1)) :
    exec (.tornReread f r) s = .next ((s1.setRing f r (s1.ring f r).countReread).accept f r bs) := by
  change execTornReread f r s = _
  unfold execTornReread
  rw [hreread]
  dsimp only
  rw [if_neg (by simp [hreads]), hhead]

end

end

/-! ### An active ring that stops or is parked (R286, R291) -/

theorem park_of_active {x : Ring} (h : x.st = .active) : x.park =
    { x with reread := .none, again := false, st := .doorbellAhead, dbAhead := BitVec.ofNat 32 (satAdd 0xFFFF_FFFF x.dbAhead.toNat 1) } :=
  if_neg (by simp [h])

theorem stop_of_active {x : Ring} (h : x.st = .active) (cause : BitVec 5) :
    x.stop cause = { x with reread := .none, again := false, st := .stopped, stopCause := cause } := by
  rw [Ring.stop, h]

/-! ### The judgement of a sound packet (R286) -/

/-- What no judgement of a packet on an active ring changes. -/
def JudgedFrame (s t : State) : Prop := t.mem = s.mem ∧ t.cores = s.cores ∧ t.own = s.own ∧ t.flt = s.flt

theorem produce_judged {s u : State} (h : JudgedFrame s u) (f r : Nat) (c : Completion) : JudgedFrame s (u.produce f r c) := by
  unfold State.produce
  split
  · exact h
  · exact h

theorem setCtx_judged {s u : State} (h : JudgedFrame s u) (tag : Nat) (c : Ctx) : JudgedFrame s (u.setCtx tag c) := by
  simpa [JudgedFrame] using h

theorem ring_congr {s t : State} (h : t.rings = s.rings) (f r : Nat) : t.ring f r = s.ring f r := by
  rw [State.ring, h, State.ring]

theorem quiescing_congr {s t : State} {f : Nat} (h : t.fns = s.fns) (hserves : (s.fn f).quiescing = false) :
    (t.fn f).quiescing = false := by
  rwa [State.fn, h]

theorem produce_ring_self {s : State} {f : Nat} (h : (s.fn f).quiescing = false) (r : Nat) (c : Completion) :
    (s.produce f r c).ring f r = { s.ring f r with held := (s.ring f r).held ++ [c] } := by
  rw [produce_of_serving h, State.setRing_ring_self]

/-- The packet that the bytes of its slots make, with the head past it. -/
def slotPkt (s : State) (f r : Nat) (bs : Bytes) (phase : PktPhase) : Pkt :=
  { seq := BitVec.ofNat 16 (fieldLe bs 4 4 / 2 ^ 16), bytes := bs, head := ((s.ring f r).advance (fieldLe bs 2 1)).sqHead, phase := phase,
    order := s.srv.pktOrder, progress := 0 }

/-- The state in which the packet at the head has its number among all packets and what was read for it is forgotten. -/
def slotPassed (s : State) (f r : Nat) (bs : Bytes) : State :=
  let t := s.passWaits f r (((s.ring f r).advance (fieldLe bs 2 1)).who f r)
  { t with srv := { t.srv with pktOrder := t.srv.pktOrder + 1 } }

/-- The state in which the head is past the packet, which is one of its ring's. -/
def slotTaken (s : State) (f r : Nat) (bs : Bytes) (phase : PktPhase) : State :=
  (slotPassed s f r bs).setRing f r
    { (s.ring f r).advance (fieldLe bs 2 1) with pkts := (s.ring f r).pkts ++ [slotPkt s f r bs phase] }

section

variable {f r : Nat} {s : State} {bs : Bytes}

theorem slotTaken_ring (phase : PktPhase) : (slotTaken s f r bs phase).ring f r =
    { (s.ring f r).advance (fieldLe bs 2 1) with pkts := (s.ring f r).pkts ++ [slotPkt s f r bs phase] } :=
  State.setRing_ring_self ..

theorem slotTaken_judged (phase : PktPhase) : JudgedFrame s (slotTaken s f r bs phase) := by
  simp [JudgedFrame, slotTaken, slotPassed, State.passWaits]

theorem slotTaken_fns (phase : PktPhase) : (slotTaken s f r bs phase).fns = s.fns := by
  simp [slotTaken, slotPassed, State.passWaits]

theorem accept_of_wrongSeq (hseq : BitVec.ofNat 16 (fieldLe bs 4 4 / 2 ^ 16) ≠ (s.ring f r).nextSeq) :
    s.accept f r bs = ((s.passWaits f r ((s.ring f r).who f r)).stopRing f r 2).produce f r
      { ({ slotPkt s f r bs .done with head := (s.ring f r).sqHead }).completion 3 true [] with owed := false } :=
  if_pos hseq

section

variable (hseq : BitVec.ofNat 16 (fieldLe bs 4 4 / 2 ^ 16) = (s.ring f r).nextSeq)

include hseq

/-- A packet that a check refuses ends at once; of a draining context it is counted. -/
theorem accept_of_refused {st : Nat} (hjudge : (slotPassed s f r bs).judge f (slotPkt s f r bs .done) = some st) :
    ∃ u, s.accept f r bs = State.produce u f r ((slotPkt s f r bs .done).completion st true []) ∧
      (u = slotTaken s f r bs .done ∨ ∃ tag c, u = (slotTaken s f r bs .done).setCtx tag c) := by
  unfold State.accept
  dsimp only
  rw [if_neg (not_not.mpr hseq)]
  split
  next st' hst' =>
    obtain rfl : st' = st := Option.some.inj (hst'.symm.trans hjudge)
    split
    · exact ⟨_, rfl, .inr ⟨_, _, rfl⟩⟩
    · exact ⟨_, rfl, .inl rfl⟩
  next hst' => cases hst'.symm.trans hjudge

theorem accept_of_taken (hactive : (s.ring f r).st = .active) (hjudge : (slotPassed s f r bs).judge f (slotPkt s f r bs .done) = none) :
    s.accept f r bs = slotTaken s f r bs .read := by
  unfold State.accept
  dsimp only
  rw [if_neg (not_not.mpr hseq)]
  split
  next st' hst' => cases hst'.symm.trans hjudge
  next hst' =>
    rw [if_neg (by simp [hactive])]
    rfl

/-- What a packet with the SEQ that is due leaves of an active ring: the head is past it, it is one of the ring's packets, and at most its
completion is held. -/
theorem accept_ring_of_nextSeq (hserves : (s.fn f).quiescing = false) (hactive : (s.ring f r).st = .active) :
    (∃ phase l, (s.accept f r bs).ring f r = { (s.ring f r).advance (fieldLe bs 2 1) with
        pkts := (s.ring f r).pkts ++ [slotPkt s f r bs phase], held := (s.ring f r).held ++ l } ∧
      (l = [] ∨ ∃ c, l = [c] ∧ c.final = true ∧ c.seq = BitVec.ofNat 16 (fieldLe bs 4 4 / 2 ^ 16))) ∧
    JudgedFrame s (s.accept f r bs) := by
  cases hjudge : (slotPassed s f r bs).judge f (slotPkt s f r bs .done) with
  | some st =>
    obtain ⟨u, haccept, hu⟩ := accept_of_refused hseq hjudge
    obtain ⟨hrings, hfns, hframe⟩ :
        u.rings = (slotTaken s f r bs .done).rings ∧ u.fns = s.fns ∧ JudgedFrame s u := by
      rcases hu with rfl | ⟨tag, c, rfl⟩
      · exact ⟨rfl, slotTaken_fns .done, slotTaken_judged .done⟩
      · exact ⟨State.setCtx_rings .., (State.setCtx_fns ..).trans (slotTaken_fns .done), setCtx_judged (slotTaken_judged .done) tag c⟩
    rw [haccept, produce_ring_self (quiescing_congr hfns hserves), ring_congr hrings, slotTaken_ring]
    exact ⟨⟨.done, [_], rfl, .inr ⟨_, rfl, rfl, rfl⟩⟩, produce_judged hframe ..⟩
  | none =>
    rw [accept_of_taken hseq hactive hjudge, slotTaken_ring]
    refine ⟨⟨.read, [], ?_, .inl rfl⟩, slotTaken_judged .read⟩
    rw [List.append_nil]
    rfl

end

theorem accept_ring_of_wrongSeq (hserves : (s.fn f).quiescing = false) (hactive : (s.ring f r).st = .active)
    (hseq : BitVec.ofNat 16 (fieldLe bs 4 4 / 2 ^ 16) ≠ (s.ring f r).nextSeq) :
    (∃ c, (s.accept f r bs).ring f r = { s.ring f r with
        reread := .none, again := false, st := .stopped, stopCause := 2, held := (s.ring f r).held ++ [c] } ∧
      c.status = 3 ∧ c.final = true ∧ c.seq = BitVec.ofNat 16 (fieldLe bs 4 4 / 2 ^ 16)) ∧ JudgedFrame s (s.accept f r bs) := by
  have hstopped (next : Waiter) : ((s.passWaits f r next).stopRing f r 2).ring f r =
      { s.ring f r with reread := .none, again := false, st := .stopped, stopCause := 2 } :=
    (State.setRing_ring_self ..).trans (stop_of_active hactive 2)
  have hfn (next : Waiter) : (((s.passWaits f r next).stopRing f r 2).fn f).quiescing = false :=
    quiescing_congr rfl hserves
  have hframe (next : Waiter) : JudgedFrame s ((s.passWaits f r next).stopRing f r 2) := by
    simp [JudgedFrame, State.stopRing, State.passWaits]
  rw [accept_of_wrongSeq hseq, produce_ring_self (hfn _), hstopped]
  exact ⟨⟨_, rfl, rfl, rfl, rfl⟩, produce_judged (hframe _) ..⟩

end

/-- Settles O32: each row is one case of what its read finds, and a sound packet is judged by its SEQ. That an attempt which must wait is
a turn is log entry 44. -/
theorem packetsReadAndJudged : Obligations.PacketsReadAndJudged := by
  refine ⟨?rows, ?judgement⟩
  case rows =>
    intro f r s s1 hreads x y i waits
    refine ⟨exec_packetRead_of_turnHad hreads, fun hreread hwaits => ?turn, ?phase, ?torn, ?sound⟩
    case turn =>
      have row {found : HeadRead × State} := exec_packetRead_of_turn (found := found) hreads hreread hwaits
      exact ⟨fun bs => row, row, fun b => row, row, row⟩
    case phase =>
      intro n hreread hhead
      have row := exec_phaseReread_of_stale hreads hreread hhead
      refine ⟨fun hn => ?_, fun hn hactive => ?_⟩
      · rw [row, if_neg (not_le.mpr hn)]
      · rw [row, if_pos hn, park_of_active (x := y.countReread) hactive]
    case torn =>
      intro n b hreread hhead
      have row := exec_tornReread_of_torn hreads hreread hhead
      refine ⟨fun hn => ?_, fun hn hactive => ?_⟩
      · rw [row, if_neg (not_le.mpr hn)]
      · rw [row, if_pos hn, stop_of_active (x := y.countReread) hactive]
    case sound => exact fun n bs => ⟨exec_tornReread_of_sound hreads, exec_phaseReread_of_sound hreads⟩
  case judgement =>
    intro f r s bs hserves hactive x t seq
    refine ⟨fun hseq => ?wrong, fun hseq => ?due, ?frame⟩
    case wrong =>
      obtain ⟨⟨c, hring, hstatus, hfinal, hc⟩, -⟩ := accept_ring_of_wrongSeq hserves hactive hseq
      rw [show t.ring f r = _ from hring]
      exact ⟨rfl, rfl, rfl, rfl, c, rfl, hstatus, hfinal, hc⟩
    case due =>
      obtain ⟨⟨phase, l, hring, hheld⟩, -⟩ := accept_ring_of_nextSeq hseq hserves hactive
      rw [show t.ring f r = _ from hring]
      refine ⟨rfl, rfl, rfl, List.length_append, hheld.imp ?_ ?_⟩
      · rintro rfl
        exact List.append_nil _
      · rintro ⟨c, rfl, hfinal, hc⟩
        exact ⟨c, rfl, hfinal, hc⟩
    case frame =>
      by_cases hseq : seq = x.nextSeq
      · exact (accept_ring_of_nextSeq hseq hserves hactive).2
      · exact (accept_ring_of_wrongSeq hserves hactive hseq).2

end Sys2Proof.Proofs
end

section
/-! PROOFS. Sealed keys (R315, R378 to R380, R390): what frames and mirrored ends leave, and what SEAL_SESSION installs and destroys. -/

namespace Sys2Proof.Proofs

open Sys2Proof Sys2Proof.Machine

/-! ### Frames of the journal (R459, R460) -/

section

variable {γ : Type} (view : State → γ)
  (hframes : ∀ (s : State) a u n c o, view { s with
    mir := { s.mir with queued := a, unacked := u, nextSend := n, sent := c }, out := o } = view s)

include hframes

theorem pushFrames_keeps (n : Nat) (s : State) : view (s.pushFrames n) = view s := by
  induction n generalizing s with
  | zero => rfl
  | succ n ih =>
    unfold State.pushFrames
    dsimp only
    split
    · rfl
    · split
      · rfl
      · exact (ih _).trans (hframes ..)

/-- A frame sent changes only what the journal queues, numbers and keeps, and what is sent. -/
theorem sendFrame_keeps (s : State) (typ : BitVec 8) (tag : Nat) (m : JPayload) : view (s.sendFrame typ tag m) = view s :=
  (pushFrames_keeps view hframes _ _).trans (hframes s _ s.mir.unacked s.mir.nextSend s.mir.sent s.out)

theorem journal_keeps (s : State) (tag : Nat) (typ : BitVec 8) (m : JPayload) : view (s.journal tag typ m) = view s := by
  unfold State.journal
  split
  · split
    · exact sendFrame_keeps view hframes ..
    · rfl
  · rfl

theorem finishMirrored_keeps
    (hend : ∀ (s : State) x o g l k, view { s with
      xlt := x, port := o, rings := g, srv := { s.srv with received := l }, mir := { s.mir with holds := k } } = view s)
    (s : State) (f r : Nat) (q : BitVec 16) (st : Nat) (res : Bytes) : view (s.finishMirrored f r q st res []) = view s := by
  unfold State.finishMirrored
  split
  · rfl
  · split
    · exact (finishWith_keeps view hend ..).trans (journal_keeps view hframes ..)
    · exact finishWith_keeps view hend ..

end

theorem journal_sec (s : State) (tag : Nat) (typ : BitVec 8) (m : JPayload) : (s.journal tag typ m).sec = s.sec :=
  journal_keeps State.sec (fun _ _ _ _ _ _ => rfl) ..

theorem journal_mem (s : State) (tag : Nat) (typ : BitVec 8) (m : JPayload) : (s.journal tag typ m).mem = s.mem :=
  journal_keeps State.mem (fun _ _ _ _ _ _ => rfl) ..

theorem finishMirrored_sec (s : State) (f r : Nat) (q : BitVec 16) (st : Nat) (res : Bytes) :
    (s.finishMirrored f r q st res []).sec = s.sec :=
  finishMirrored_keeps State.sec (fun _ _ _ _ _ _ => rfl) (fun _ _ _ _ _ _ => rfl) ..

theorem finishMirrored_mem (s : State) (f r : Nat) (q : BitVec 16) (st : Nat) (res : Bytes) :
    (s.finishMirrored f r q st res []).mem = s.mem :=
  finishMirrored_keeps State.mem (fun _ _ _ _ _ _ => rfl) (fun _ _ _ _ _ _ => rfl) ..

/-! ### SEAL_SESSION with OP 0 (R315, R378 to R380) -/

/-- The key of an image that an unwrapped message carries. -/
def imageKeyOf (tag : Nat) (pt : Bytes) : ImageKey :=
  { ctx := tag, key := sliceBytes pt 0 32, digest := sliceBytes pt 32 48, signer := sliceBytes pt 80 97 }

def imageKeyInstalled (f r : Nat) (q : BitVec 16) (tag : Nat) (pt : Bytes) (s : State) : State :=
  let k := imageKeyOf tag pt
  let u : State := { s with sec := { s.sec with
    nextHandle := s.sec.nextHandle + 1, imageKeys := mapPut s.sec.imageKeys s.sec.nextHandle k } }
  (u.journal tag 8 (.imageKey (BitVec.ofNat 32 s.sec.nextHandle) k.key k.digest k.signer)).finishMirrored f r q 0
    (res4 s.sec.nextHandle) []

def sessionInstalled (f r : Nat) (q : BitVec 16) (tag : Nat) (pt : Bytes) (s : State) : State :=
  let d := s.drawBytes 12
  let k : SessionKey := { ctx := tag, key := sliceBytes pt 0 32, inst := d.1, high := 0, seen := [], counter := 1, epoch := 0 }
  let u : State := { d.2 with sec := { d.2.sec with nextHandle := s.sec.nextHandle + 1 } }
  (u.useSession (some s.sec.nextHandle) (some k)).finishMirrored f r q 0 (res4 s.sec.nextHandle ++ d.1) []

/-- What becomes of a message that was read, by what unwrapping it gives. -/
def installed (f r : Nat) (q : BitVec 16) (tag : Nat) (s : State) : Option (Nat × Bytes) → State
  | none => s.finish f r q 6 []
  | some (purpose, pt) =>
    if purpose = 1 then imageKeyInstalled f r q tag pt s
    else if 65536 ≤ s.sec.sessions.length then s.finish f r q 5 []
    else sessionInstalled f r q tag pt s

section

variable {f : FnId} {r : RingId} {q : PktSeq} {s : State} {p : Pkt}

theorem exec_sealSessionInstall_of_eyepiece (hready : s.ready f r q 0x60 (fun p => decide (p.byte 16 = 0)) p = true)
    (h : (s.begun f r q p).sec.eyepiece = true) :
    exec (.sealSessionInstall f r q) s = .next ((s.begun f r q p).finish f r q 6 []) :=
  (carried_of_ready (execSealSessionInstall.eq_def f r q s) hready).trans (congrArg _ (if_pos h))

theorem exec_sealSessionInstall_of_read {s1 : State} {bs : Bytes} {m : Option (Nat × Bytes)}
    (hready : s.ready f r q 0x60 (fun p => decide (p.byte 16 = 0)) p = true) (hshut : (s.begun f r q p).sec.eyepiece = false)
    (hread : (s.begun f r q p).readBuf (pktW f r q) p.ctx (p.field 24 8) (p.field 32 2) = (.data bs, s1)) (hm : s1.unwrap bs = m) :
    exec (.sealSessionInstall f r q) s = .next (installed f r q p.ctx s1 m) := by
  refine (carried_of_ready (execSealSessionInstall.eq_def f r q s) hready).trans ?_
  dsimp only
  rw [if_neg (by simp [hshut]), hread]
  dsimp only
  rw [hm]
  cases m <;> rfl

/-! ### SEAL_SESSION with OP 1 (R315, R390) -/

theorem exec_sealSessionDestroy_of_unused (hready : s.ready f r q 0x60 (fun p => decide (p.byte 16 = 1)) p = true)
    (hown : ((s.begun f r q p).session (p.field 20 4)).any (fun k => decide (k.ctx = p.ctx)) = true)
    (hunused : ∀ x ∈ (s.begun f r q p).srv.seqs, x.2.session ≠ some (p.field 20 4)) :
    let t := s.begun f r q p
    exec (.sealSessionDestroy f r q) s =
      .next (({ t with sec := { t.sec with sessions := mapDel t.sec.sessions (p.field 20 4) } } : State).finishMirrored f r q 0 [] []) := by
  have hidle : (s.begun f r q p).srv.seqs.any (fun x => decide (x.2.session = some (p.field 20 4))) = false :=
    List.any_eq_false.mpr (fun x hx => by simpa using hunused x hx)
  refine (carried_of_ready (execSealSessionDestroy.eq_def f r q s) hready).trans ?_
  dsimp only
  rw [if_pos hown, hidle, if_neg Bool.false_ne_true]
  rfl

end

/-- Settles O37: unwrapping a message decides what is installed, and a session that nothing uses is destroyed. -/
theorem sealPackets : Obligations.SealPackets := by
  intro f r q s s1 p bs pt t
  refine ⟨fun hready => ⟨exec_sealSessionInstall_of_eyepiece hready, fun hshut hread => ?install⟩, exec_sealSessionDestroy_of_unused⟩
  case install =>
    have row {m : Option (Nat × Bytes)} := exec_sealSessionInstall_of_read (m := m) hready hshut hread
    refine ⟨row, fun hsession hroom => ?session, fun himage => ⟨_, row himage, ?imageKey⟩⟩
    case session => rw [row hsession, installed, if_neg (by decide), if_neg (not_le.mpr hroom), sessionInstalled]
    case imageKey =>
      rw [installed, if_pos rfl, imageKeyInstalled, finishMirrored_sec, finishMirrored_mem, journal_sec, journal_mem]
      exact ⟨(mapFind_mapPut ..).trans (if_pos rfl), rfl, rfl, rfl⟩

end Sys2Proof.Proofs
end

section
/-! PROOFS. Images and raw programs (R96, R299, R300, R304, R309): what the rows that load, unload, run, cancel and end them do. -/

namespace Sys2Proof.Proofs

open Sys2Proof Sys2Proof.Machine

section

variable {f : FnId} {r : RingId} {q : PktSeq} {s s1 : State} {p : Pkt}

/-! ### LOAD_MODEL (R299) -/

section

variable {h : Bytes} (im : ImageMeta) (granules : List Nat) (hready : s.ready f r q 0x10 (fun _ => true) p = true)
  (hstandby : (s.begun f r q p).standbyHolds = false) (hfree : (s.begun f r q p).srv.loading = none)
  (hread : (s.begun f r q p).readBuf (pktW f r q) p.ctx (p.field 16 8) 4096 = (.data h, s1))

include hready hstandby hfree hread

theorem exec_loadModel_of_refused {st : Nat}
    (hrefused : s1.loadRefused p h im (s1.takeGranules granules (imageGranules (fieldLe h 0x008 8))) = some st) :
    exec (.loadModel f r q im granules) s = .next (s1.finish f r q st []) := by
  refine (carried_of_ready (execLoadModel.eq_def f r q im granules s) hready).trans ?_
  dsimp only
  rw [if_neg (by simp [hstandby]), hfree, hread]
  dsimp only
  rw [hrefused]

/-- The load that LOAD_MODEL begins with the header h that it read. -/
def loadOf (f : FnId) (r : RingId) (q : PktSeq) (p : Pkt) (s1 : State) (h : Bytes) (im : ImageMeta) (granules : List Nat) : Load :=
  { f := f, r := r, q := q, draft := decide (fieldLe h 0x006 1 = 1), src := p.field 16 8, bytes := p.field 24 8, header := h,
    params := sliceBytes p.bytes 64 64, info := im,
    granules := (s1.takeGranules granules (imageGranules (fieldLe h 0x008 8))).getD []
    key := if bit (fieldLe h 0x007 1) 0 then (s1.imageKeyFor p.ctx h).map (·.1) else none }

theorem exec_loadModel_of_accepted
    (haccepted : s1.loadRefused p h im (s1.takeGranules granules (imageGranules (fieldLe h 0x008 8))) = none) :
    exec (.loadModel f r q im granules) s =
      .next { s1 with srv := { s1.srv with loading := some (loadOf f r q p s1 h im granules) } } := by
  refine (carried_of_ready (execLoadModel.eq_def f r q im granules s) hready).trans ?_
  dsimp only
  rw [if_neg (by simp [hstandby]), hfree, hread]
  dsimp only
  rw [haccepted]
  rfl

end

/-! ### LOAD_MODEL_COMPLETE (R299) -/

section

variable {l : Load} {ds : List Bytes} (hloading : s.srv.loading = some l) (hpkt : (s.ring l.f l.r).pkt l.q = some p)
  (hread : s.readSections l p.ctx = (.data ds, s1))

include hloading hpkt hread

/-- The load is over whatever its bytes are; whether they verify and their stacks answer decides its end. -/
theorem exec_loadModelComplete_of_read :
    let u : State := { s1 with srv := { s1.srv with loading := none } }
    exec .loadModelComplete s = .next (State.boundaryPrograms (
      if sha384 ds.flatten ≠ sliceBytes l.header 0x080 48 then u.finish l.f l.r l.q 6 []
      else if !l.granules.all s1.answers then u.finish l.f l.r l.q 9 []
      else (u.install l ds).finish l.f l.r l.q 0
        (natLe (l.granules.length * granuleBytes + (if l.draft then 0 else fieldLe l.params 16 8)) 8))) := by
  change execLoadModelComplete s = _
  unfold execLoadModelComplete
  rw [hloading]
  dsimp only
  rw [hpkt]
  dsimp only
  rw [hread]
  dsimp only
  by_cases hdigest : sha384 ds.flatten ≠ sliceBytes l.header 0x080 48
  · rw [if_pos hdigest, if_pos hdigest]
    rfl
  · rw [if_neg hdigest, if_neg hdigest]
    by_cases halive : (!l.granules.all s1.answers) = true
    · rw [if_pos halive, if_pos halive]
      rfl
    · rw [if_neg halive, if_neg halive]
      rfl

end

/-! ### UNLOAD_MODEL (R300) -/

section

variable (hready : s.ready f r q 0x11 (fun _ => true) p = true) (hstandby : (s.begun f r q p).standbyHolds = false)

include hready hstandby

theorem exec_unloadModel_of_none
    (hnone : (if decide (p.byte 16 = 1) then (s.begun f r q p).srv.draft else (s.begun f r q p).srv.main).isNone = true) :
    exec (.unloadModel f r q) s = .next ((s.begun f r q p).finish f r q 0 [0]) := by
  refine (carried_of_ready (execUnloadModel.eq_def f r q s) hready).trans ?_
  dsimp only
  rw [if_neg (by simp [hstandby]), if_pos hnone]
  rfl

theorem exec_unloadModel_of_quiet
    (hsome : (if decide (p.byte 16 = 1) then (s.begun f r q p).srv.draft else (s.begun f r q p).srv.main).isNone = false)
    (hfree : (s.begun f r q p).srv.loading = none) (hstep : (s.begun f r q p).srv.step = none)
    (hlate : ∀ x ∈ (s.begun f r q p).srv.seqs, x.2.late = none) :
    let t := s.begun f r q p
    let u := (t.srv.seqs.foldl (fun s x => s.closeSeq x.1) t).freeClosed
    (∀ x ∈ u.srv.programs, x.started = false) →
      exec (.unloadModel f r q) s = .next ((u.dropImage (decide (p.byte 16 = 1))).finish f r q 0 [1]) := by
  intro t u hprograms
  have hlate' : t.srv.seqs.any (fun x => x.2.late.isSome) = false := List.any_eq_false.mpr (fun x hx => by simp [hlate x hx])
  have hprograms' : u.srv.programs.any (·.started) = false := List.any_eq_false.mpr (fun x hx => by simp [hprograms x hx])
  refine (carried_of_ready (execUnloadModel.eq_def f r q s) hready).trans ?_
  dsimp only
  rw [if_neg (by simp [hstandby]), if_neg (by rw [hsome]; exact Bool.false_ne_true), if_neg (by simp [hfree]),
    if_neg (by rw [hstep, hlate']; exact Bool.false_ne_true), if_neg (by rw [hprograms']; exact Bool.false_ne_true)]
  rfl

end

/-! ### RUN_PROGRAM and CANCEL (R96, R304, R309) -/

/-- The program that RUN_PROGRAM makes wait for the boundary, on the cores that its bitmap names. -/
def programOf (f : FnId) (r : RingId) (q : PktSeq) (p : Pkt) (bm : Bytes) : Program :=
  { f := f, r := r, q := q, ctx := p.ctx, entry := BitVec.ofNat 64 (p.field 16 8), arg := BitVec.ofNat 64 (p.field 24 8),
    limit := p.field 40 8, buf := p.field 48 8, started := false,
    cores := (coresOf bm).map (fun g => { g := g, exited := false, code := 0, result := 0, calls := 0 }),
    ending := .running, fault := none, dies := [], silent := false }

theorem exec_runProgram_of_allowed {bm : Bytes} (hready : s.ready f r q 0x30 (fun _ => true) p = true)
    (hnew : ((s.begun f r q p).progOf f r q).isSome = false) (hstandby : (s.begun f r q p).standbyHolds = false) (hset : p.field 32 8 ≠ 0)
    (hread : (s.begun f r q p).readBuf (pktW f r q) p.ctx (p.field 32 8) 64 = (.data bm, s1)) (hcores : coresOf bm ≠ [])
    (hup : (coresOf bm).all s1.coreUp = true) (hallowed : s1.coreSetRefused (coresOf bm) = false) :
    exec (.runProgram f r q) s =
      .next (State.boundaryPrograms { s1 with srv := { s1.srv with programs := s1.srv.programs ++ [programOf f r q p bm] } }) := by
  refine (carried_of_ready (execRunProgram.eq_def f r q s) hready).trans ?_
  dsimp only
  rw [if_neg (by simp [hnew]), if_neg (by simp [hstandby]), if_neg hset, hread]
  dsimp only
  rw [if_neg (by simp [hcores]), if_neg (by simp [hup, hallowed])]
  rfl

section

variable (hready : s.ready f r q 0x23 (fun p => decide (p.byte 16 = 1)) p = true) (hstandby : (s.begun f r q p).standbyHolds = false)

include hready hstandby

theorem exec_cancelProgram_of_program {g : Program}
    (hprog : (s.begun f r q p).progOf f r (BitVec.ofNat 16 (p.field 24 2)) = some g) :
    exec (.cancelProgram f r q) s = .next (((s.begun f r q p).cancelProg g).finish f r q 0 []) := by
  refine (carried_of_ready (execCancelProgram.eq_def f r q s) hready).trans ?_
  dsimp only
  rw [if_neg (by simp [hstandby]), hprog]
  rfl

theorem exec_cancelProgram_of_packet (hprog : (s.begun f r q p).progOf f r (BitVec.ofNat 16 (p.field 24 2)) = none) :
    let t := s.begun f r q p
    let n := BitVec.ofNat 16 (p.field 24 2)
    exec (.cancelProgram f r q) s =
      .next ((if ((t.ring f r).pkt n).any (fun y => decide (y.opcode = 0x30)) then t.finish f r n stAborted [] else t).finish f r q 0 []) := by
  refine (carried_of_ready (execCancelProgram.eq_def f r q s) hready).trans ?_
  dsimp only
  rw [if_neg (by simp [hstandby]), hprog]
  rfl

end

/-! ### PROGRAM_END (R96, R309) -/

theorem exec_programEnd_of_quiet {g : Program} (hprog : s.progOf f r q = some g) (hended : g.ending ≠ .running) (hloud : g.silent = false)
    (hbuf : g.buf = 0) (hquiet : ∀ c ∈ g.cores, ∀ i, i < 4 → (s.core c.g).queueQuiet i (decide (g.ending = .done)) = true)
    (hstores : ∀ c ∈ g.cores, (s.core c.g).sb = []) :
    exec (.programEnd f r q) s = .next ((s.releaseCores g).boundaryPrograms.ltr.finishWith f r q g.status g.result [] false) := by
  have hqueues : g.cores.all (fun c => (List.range 4).all (fun i => (s.core c.g).queueQuiet i (decide (g.ending = .done)))) = true :=
    List.all_eq_true.mpr (fun c hc => List.all_eq_true.mpr (fun i hi => hquiet c hc i (List.mem_range.mp hi)))
  have hflushed (dc hdm : Bool) : g.cores.all (fun c => (s.core c.g).sb.all (fun e => !declared dc hdm e.ptr.toNat)) = true :=
    List.all_eq_true.mpr (fun c hc => by rw [hstores c hc]; rfl)
  change execProgramEnd f r q s = _
  unfold execProgramEnd
  rw [hprog]
  dsimp only
  rw [if_neg (by simp [hended, hqueues, hflushed]), if_pos (by simp [hbuf]), if_neg (by simp [hloud])]

end

/-- Settles O35: each row, its refusals excluded, does the one thing that is left. DEVICE_ERROR for a load whose stack has failed is log
entry 118, and that a draft's unload closes the sequences too is log entry 65. -/
theorem modelAndProgramPackets : Obligations.ModelAndProgramPackets := by
  refine ⟨?images, ?programs⟩
  case images =>
    intro f r q s s1 p h t
    refine ⟨?load, ?complete, ?unload⟩
    case load =>
      intro im granules hready hstandby hfree hread gs
      refine ⟨fun st => exec_loadModel_of_refused im granules hready hstandby hfree hread, fun haccepted => ?_⟩
      exact ⟨_, exec_loadModel_of_accepted im granules hready hstandby hfree hread haccepted, rfl, rfl, rfl, rfl, rfl, rfl, rfl, rfl, rfl⟩
    case complete =>
      intro l ds s2 hloading hpkt hread u
      have hends := exec_loadModelComplete_of_read hloading hpkt hread
      refine ⟨fun hdigest => ?_, fun hdigest hdead => ?_, fun hdigest halive => ?_⟩
      · rw [hends, if_pos hdigest]
      · rw [hends, if_neg (not_not.mpr hdigest), if_pos (by simp [hdead])]
      · rw [hends, if_neg (not_not.mpr hdigest), if_neg (by simp [halive])]
    case unload =>
      intro hready hstandby draft
      exact ⟨exec_unloadModel_of_none hready hstandby, exec_unloadModel_of_quiet hready hstandby⟩
  case programs =>
    intro f r q s s1 p t
    refine ⟨?run, ?cancel, ?ends⟩
    case run =>
      exact fun bm hready hnew hstandby hset hread hcores hup hallowed =>
        exec_runProgram_of_allowed hready hnew hstandby hset hread hcores hup hallowed
    case cancel =>
      exact fun hready hstandby => ⟨fun g => exec_cancelProgram_of_program hready hstandby, exec_cancelProgram_of_packet hready hstandby⟩
    case ends =>
      exact fun g hprog _ hended hloud hbuf hquiet hstores => exec_programEnd_of_quiet hprog hended hloud hbuf hquiet hstores

end Sys2Proof.Proofs
end

section
/-! PROOFS. MIRROR_CONTROL (R296, R316, R457): a PAIR that comes while a pairing goes on ends BUSY_RETRY, whose code is 2. -/

namespace Sys2Proof.Proofs

open Sys2Proof Sys2Proof.Machine

theorem exec_pair_of_pairing {f : FnId} {r : RingId} {q : PktSeq} {s : State} {p : Pkt}
    (hready : s.ready f r q 0x70 (fun p => decide (p.byte 16 = 1)) p = true)
    (hnew : (s.begun f r q p).mir.pairPkt ≠ some (f.val, r.val, q)) (hst : (s.begun f r q p).mir.st = .pairing) :
    exec (.pair f r q) s = .next ((s.begun f r q p).finish f r q 2 []) := by
  refine (carried_of_ready (execPair.eq_def f r q s) hready).trans ?_
  dsimp only
  rw [if_neg hnew, if_pos hst]
  rfl

/-- The status of a packet that ends stands in its completion, so ends with different codes are different. -/
theorem status_of_finish_eq {f r : Nat} {q : BitVec 16} {s : State} {p : Pkt} (hp : (s.ring f r).pkt q = some p)
    (hserves : (s.fn f).quiescing = false) {st st' : Nat} {res res' : Bytes} (h : s.finish f r q st res = s.finish f r q st' res') :
    BitVec.ofNat 8 st = BitVec.ofNat 8 st' := by
  have hheld := congrArg (fun t => (t.ring f r).held) h
  simp only [finish_ring_self hp hserves, List.append_cancel_left_eq, List.cons.injEq, and_true] at hheld
  exact congrArg Completion.status hheld

/-! ### A second PAIR during a pairing -/

/-- PAIR of context 0, carried out now. -/
def secondPair : Pkt :=
  { seq := 0, bytes := [0x70, 0, 1, 1] ++ List.replicate 12 0 ++ [1] ++ List.replicate 47 0, head := 1, phase := .running, order := 1,
    progress := 0 }

/-- A part whose pairing the packet with SEQ 0 of ring 1 has begun, with another PAIR on ring 0. -/
def pairingGoesOn : State :=
  { State.reset with
    ctxs := [(0, { Ctx.none with valid := true })]
    rings := [(0, { Ring.reset with st := .active, pkts := [secondPair] })]
    mir := { Mir.reset with st := .pairing, pairPkt := some (0, 1, 0) } }

theorem secondPair_ready : pairingGoesOn.ready 0 0 0 0x70 (fun p => decide (p.byte 16 = 1)) secondPair = true := by decide

/-- Refutes O49: the statement gives a PAIR that comes while a pairing goes on status 1, which is PARTIAL (R296). The model ends it
BUSY_RETRY, status 2 (log entry 91), as it does with the second PAIR here. -/
theorem not_mirrorCommands : ¬ Obligations.MirrorCommands := by
  intro h
  obtain ⟨-, hpair, -⟩ := h 0 0 0 pairingGoesOn secondPair
  have hstated := (hpair secondPair_ready (by decide)).1 rfl
  have hmodel := exec_pair_of_pairing secondPair_ready (by decide) rfl
  have hsame := Host.Outcome.next.inj (hstated.symm.trans hmodel)
  exact absurd (status_of_finish_eq (p := secondPair) (by decide) (by decide) hsame) (by decide)

end Sys2Proof.Proofs
end

section
/-! PROOFS. What the host endpoint's commands share: a configuration request that is answered (R332, R334, R500), interfaces that move to
ERROR (R377), readiness messages (R344), and held interrupts that go out (R336, R337). -/

namespace Sys2Proof.Proofs

open Sys2Proof Sys2Proof.Machine

/-! ### A configuration request that is answered (R332, R334, R500) -/

theorem cfgAccess_of_answered {s : State} {f : Nat} (hl : s.port.linkUp = true) (hport : s.port.ready = true ∨ s.port.frozen = true)
    (hserves : (s.fn f).quiescing = false) (hstays : s.removing = false) (hthere : (s.fn f).enabled = true) (k : State → State) :
    s.cfgAccess f k = k s := by
  have hanswers : (!s.port.ready && !s.port.frozen) = false := by rcases hport with h | h <;> simp [h]
  simp [State.cfgAccess, hl, hanswers, hserves, hstays, hthere]

theorem next_cfgAccess_of_answered {s : State} {f : Nat} (hl : s.port.linkUp = true)
    (hport : s.port.ready = true ∨ s.port.frozen = true) (hserves : (s.fn f).quiescing = false) (hstays : s.removing = false)
    (hthere : (s.fn f).enabled = true) (k : State → State) : (.next (s.cfgAccess f k) : Res) = .next (k s) :=
  congrArg Host.Outcome.next (cfgAccess_of_answered hl hport hserves hstays hthere k)

/-! ### A status bit that is set -/

theorem bit_one_shift {w i : Nat} (hi : i < w) : bit ((1 <<< i : Nat) : BitVec w).toNat i = true := by
  simp [bit_eq_testBit, hi, Nat.testBit_shiftLeft]

theorem bit_or_one_shift {w i : Nat} (x : BitVec w) (hi : i < w) : bit (x ||| ((1 <<< i : Nat) : BitVec w)).toNat i = true := by
  have hone := bit_one_shift hi
  rw [bit_eq_testBit] at hone ⊢
  rw [BitVec.toNat_or, Nat.testBit_or, hone, Bool.or_true]

theorem bit_aerUncor (s : State) (f : Nat) {i : Nat} (hi : i < 32) : bit ((s.aerUncor f i).fn f).aerUncor.toNat i = true := by
  rw [State.aerUncor, State.setFn_fn, if_pos rfl]
  exact bit_or_one_shift _ hi

/-! ### Interfaces that move to ERROR (R377) -/

theorem tdiError_fn (s : State) (f g : Nat) : (s.tdiError f).fn g =
    if g = f ∧ ((s.fn f).tdi = .locked ∨ (s.fn f).tdi = .run) then { s.fn f with tdi := .error, barred := true } else s.fn g := by
  unfold State.tdiError
  dsimp only
  split
  · next hlocked =>
    change (s.setFn f _).fn g = _
    rw [State.setFn_fn]
    simp only [hlocked, and_true]
  · next hfree => rw [if_neg (fun h => hfree h.2)]

/-- What neither a function's record nor the end of its contexts changes is as it was before its interface moved to ERROR. -/
theorem tdiError_keeps {γ : Type} (view : State → γ) (hfn : ∀ s f x, view (State.setFn s f x) = view s)
    (hend : ∀ s f, view (State.endFn s f) = view s) (s : State) (f : Nat) : view (s.tdiError f) = view s := by
  unfold State.tdiError
  dsimp only
  split
  · exact (hend ..).trans (hfn ..)
  · rfl

theorem tdiError_mem (s : State) (f : Nat) : (s.tdiError f).mem = s.mem :=
  tdiError_keeps State.mem (fun _ _ _ => rfl) (fun _ _ => rfl) s f

/-- Only an interface that is not unlocked is in ERROR after others have moved there. -/
theorem tdiError_tdi (s : State) (f g : Nat) :
    ((s.tdiError f).fn g).tdi = if g = f ∧ (s.fn g).tdi ≠ .unlocked then .error else (s.fn g).tdi := by
  rw [tdiError_fn]
  by_cases hg : g = f
  · subst hg
    cases htdi : (s.fn g).tdi <;> simp [htdi]
  · simp [hg]

theorem foldl_tdiError_tdi_of_error {s : State} {f : Nat} (h : (s.fn f).tdi = .error) (l : List (Nat × Fn)) :
    ((l.foldl (fun s x => s.tdiError x.1) s).fn f).tdi = .error :=
  List.foldlRecOn (motive := fun t : State => (t.fn f).tdi = .error) l _ h (fun t ht x _ => by
    rw [tdiError_tdi, ht, ite_self])

theorem foldl_tdiError_tdi_of_mem {f : Nat} {l : List (Nat × Fn)} (hf : ∃ x, (f, x) ∈ l) {s : State} (h : (s.fn f).tdi ≠ .unlocked) :
    ((l.foldl (fun s x => s.tdiError x.1) s).fn f).tdi = .error := by
  induction l generalizing s with
  | nil => simp at hf
  | cons y l ih =>
    rw [List.foldl_cons]
    by_cases hy : f = y.1
    · exact foldl_tdiError_tdi_of_error (by rw [tdiError_tdi, if_pos ⟨hy, h⟩]) l
    · obtain ⟨x, hx⟩ := hf
      have hx' : (f, x) ∈ l := (List.mem_cons.mp hx).resolve_left (fun e => hy (congrArg Prod.fst e))
      refine ih ⟨x, hx'⟩ ?_
      rwa [tdiError_tdi, if_neg (fun e => hy e.1)]

/-- A function that differs from one at reset is listed. -/
theorem mem_fns_of_tdi {s : State} {f : Nat} (h : (s.fn f).tdi ≠ .unlocked) : ∃ x, (f, x) ∈ s.fns := by
  cases hx : mapFind s.fns f with
  | none => exact absurd (by rw [State.fn, mapGet, hx]; rfl) h
  | some x => exact ⟨x, mem_of_mapFind hx⟩

/-! ### Readiness messages (R344) and latency tolerance (R340) -/

section

variable {γ : Type} (view : State → γ)
  (hport : ∀ (s : State) (p : Port) (o : List OutMsg), view { s with port := p, out := o } = view s)

include hport

theorem sendReady_keeps (s : State) (f : Option Nat) : view (s.sendReady f) = view s := by
  unfold State.sendReady
  split
  · exact hport s _ s.out
  · split
    · rfl
    · exact hport s s.port _

theorem sendLtr_keeps (s : State) : view s.sendLtr = view s := by
  unfold State.sendLtr
  dsimp only
  split
  · exact hport s s.port _
  · rfl

end

theorem sendReady_fn (s : State) (f : Option Nat) (g : Nat) : (s.sendReady f).fn g = s.fn g :=
  sendReady_keeps (fun s => s.fn g) (fun _ _ _ => rfl) s f

/-- The message that reports a function, or for none the device, ready. -/
def readyMsg : Option Nat → OutMsg
  | some f => .functionReady f
  | none => .deviceReady

theorem sendReady_of_open {s : State} (hopen : s.port.frozen = false) (hl : s.port.linkUp = true) (f : Option Nat) :
    s.sendReady f = s.send (readyMsg f) := by
  cases f <;> simp [State.sendReady, hopen, hl, readyMsg]

theorem foldl_sendReady_of_open (l : List (Option Nat)) {s : State} (hopen : s.port.frozen = false) (hl : s.port.linkUp = true) :
    l.foldl (fun s m => s.sendReady m) s = { s with out := s.out ++ l.map readyMsg } := by
  induction l generalizing s with
  | nil => simp
  | cons m l ih =>
    rw [List.foldl_cons, sendReady_of_open hopen hl, ih (s := s.send (readyMsg m)) hopen hl]
    simp [State.send]

/-! ### Held interrupts that go out (R336, R337) -/

/-- The state t is s but for INTx, for vectors that are pending, and for what is sent behind what s has sent. -/
structure Flushed (s t : State) : Prop where
  port : ∃ b, t.port = { s.port with intxOn := b }
  fns : ∀ f, ∃ p, t.fn f = { s.fn f with pba := p }
  out : s.out <+: t.out
  mem : t.mem = s.mem
  cores : t.cores = s.cores

theorem Flushed.refl (s : State) : Flushed s s := ⟨⟨_, rfl⟩, fun _ => ⟨_, rfl⟩, List.prefix_refl _, rfl, rfl⟩

theorem Flushed.trans {s t u : State} (h : Flushed s t) (h' : Flushed t u) : Flushed s u where
  port := by
    obtain ⟨b, hb⟩ := h.port
    obtain ⟨c, hc⟩ := h'.port
    exact ⟨c, by rw [hc, hb]⟩
  fns f := by
    obtain ⟨p, hp⟩ := h.fns f
    obtain ⟨q, hq⟩ := h'.fns f
    exact ⟨q, by rw [hq, hp]⟩
  out := h.out.trans h'.out
  mem := h'.mem.trans h.mem
  cores := h'.cores.trans h.cores

theorem foldl_flushed {β : Type} {step : State → β → State} (h : ∀ s b, Flushed s (step s b)) (l : List β) (s : State) :
    Flushed s (l.foldl step s) :=
  List.foldlRecOn (motive := Flushed s) l step (.refl s) (fun t ht b _ => ht.trans (h t b))

theorem send_flushed (s : State) (m : OutMsg) : Flushed s (s.send m) :=
  ⟨⟨_, rfl⟩, fun _ => ⟨_, rfl⟩, List.prefix_append .., rfl, rfl⟩

theorem setPba_flushed (s : State) (f : Nat) (p : List Nat) : Flushed s (s.setFn f { s.fn f with pba := p }) where
  port := ⟨_, rfl⟩
  fns g := by
    rw [State.setFn_fn]
    split
    · next hg => exact ⟨p, by rw [hg]⟩
    · exact ⟨_, rfl⟩
  out := List.prefix_refl _
  mem := rfl
  cores := rfl

theorem msix_flushed (s : State) (f vec : Nat) : Flushed s (s.msix f vec) := by
  unfold State.msix
  split
  · exact send_flushed ..
  · exact setPba_flushed ..

theorem driveIntx_flushed (s : State) : Flushed s s.driveIntx := by
  unfold State.driveIntx
  dsimp only
  split
  · exact .refl s
  · exact ⟨⟨_, rfl⟩, fun _ => ⟨_, rfl⟩, List.prefix_append .., rfl, rfl⟩

theorem flushFn_flushed (s : State) (f : Nat) : Flushed s (s.flushFn f) := by
  have hmsix : Flushed s (s.flushMsix f) := by
    refine foldl_flushed (fun s v => ?_) _ s
    split
    · exact (setPba_flushed ..).trans (msix_flushed ..)
    · exact .refl s
  unfold State.flushFn
  dsimp only
  split
  · exact hmsix.trans (driveIntx_flushed _)
  · exact hmsix

theorem flushAll_flushed (s : State) : Flushed s s.flushAll := foldl_flushed flushFn_flushed _ s

end Sys2Proof.Proofs
end

section
/-! PROOFS. The Portcullis (R330, R343 to R345, R377): what an entry leaves, and when it lifts. -/

namespace Sys2Proof.Proofs

open Sys2Proof Sys2Proof.Machine

/-! ### An entry (R343, R377) -/

/-- The state that a first cause leaves before locked interfaces move to ERROR. -/
def shut (s : State) (cause : Nat) : State :=
  State.aerUncor { s with port := { s.port with
    frozen := true, cause := BitVec.ofNat 3 cause, causeSeen := (1 <<< (cause - 1) : Nat),
    entries := BitVec.ofNat 16 (satAdd 0xFFFF s.port.entries.toNat 1) } } 0 aerInternal

theorem shut_tdi (s : State) (cause f : Nat) : ((shut s cause).fn f).tdi = (s.fn f).tdi := by
  unfold shut State.aerUncor
  rw [State.setFn_fn]
  split
  · next hf => rw [hf]; rfl
  · rfl

theorem enterPc_of_frozen {s : State} (h : s.port.frozen = true) (cause : Nat) : s.enterPc cause =
    { s with port := { s.port with causeSeen := s.port.causeSeen ||| ((1 <<< (cause - 1) : Nat) : BitVec 5) } } := by
  unfold State.enterPc
  exact if_pos h

theorem enterPc_of_open {s : State} (h : s.port.frozen = false) (cause : Nat) :
    s.enterPc cause = (shut s cause).fns.foldl (fun s x => s.tdiError x.1) (shut s cause) := by
  unfold State.enterPc
  exact if_neg (by simp [h])

/-- What an interface that moves to ERROR does not change is after an entry as the first cause leaves it. -/
theorem enterPc_keeps {γ : Type} (view : State → γ) (hfn : ∀ s f x, view (State.setFn s f x) = view s)
    (hend : ∀ s f, view (State.endFn s f) = view s) {s : State} (h : s.port.frozen = false) (cause : Nat) :
    view (s.enterPc cause) = view (shut s cause) := by
  rw [enterPc_of_open h]
  exact foldl_keeps view (fun s (x : Nat × Fn) => tdiError_keeps view hfn hend s x.1) _ _

/-- The registers of the Portcullis. -/
def pcRegs (s : State) : Bool × BitVec 3 × BitVec 5 × BitVec 16 := (s.port.frozen, s.port.cause, s.port.causeSeen, s.port.entries)

theorem pcRegs_enterPc_of_open {s : State} (h : s.port.frozen = false) (cause : Nat) : pcRegs (s.enterPc cause) =
    (true, BitVec.ofNat 3 cause, ((1 <<< (cause - 1) : Nat) : BitVec 5), BitVec.ofNat 16 (satAdd 0xFFFF s.port.entries.toNat 1)) :=
  enterPc_keeps pcRegs (fun _ _ _ => rfl) (fun _ _ => rfl) h cause

theorem enterPc_frozen (s : State) (cause : Nat) : (s.enterPc cause).port.frozen = true := by
  cases h : s.port.frozen with
  | true => rw [enterPc_of_frozen h]; exact h
  | false => exact congrArg Prod.fst (pcRegs_enterPc_of_open h cause)

theorem bit_causeSeen_enterPc (s : State) {cause : Nat} (hlo : 1 ≤ cause) (hhi : cause ≤ 5) :
    bit (s.enterPc cause).port.causeSeen.toNat (cause - 1) = true := by
  have hbit : cause - 1 < 5 := by omega
  cases h : s.port.frozen with
  | true => rw [enterPc_of_frozen h]; exact bit_or_one_shift _ hbit
  | false =>
    have hseen : (s.enterPc cause).port.causeSeen = _ := congrArg (·.2.2.1) (pcRegs_enterPc_of_open h cause)
    rw [hseen]
    exact bit_one_shift hbit

theorem cause_enterPc_of_open {s : State} (h : s.port.frozen = false) {cause : Nat} (hhi : cause ≤ 5) :
    (s.enterPc cause).port.cause.toNat = cause := by
  have hcause : (s.enterPc cause).port.cause = _ := congrArg (·.2.1) (pcRegs_enterPc_of_open h cause)
  rw [hcause, BitVec.toNat_ofNat]
  omega

theorem entries_enterPc_of_open {s : State} (h : s.port.frozen = false) (cause : Nat) :
    (s.enterPc cause).port.entries.toNat = min 0xFFFF (s.port.entries.toNat + 1) := by
  have hentries : (s.enterPc cause).port.entries = _ := congrArg (·.2.2.2) (pcRegs_enterPc_of_open h cause)
  rw [hentries, BitVec.toNat_ofNat, satAdd]
  omega

theorem tdi_enterPc_of_locked {s : State} (h : s.port.frozen = false) (cause : Nat) {f : Nat} (hlocked : (s.fn f).tdi ≠ .unlocked) :
    ((s.enterPc cause).fn f).tdi = .error := by
  have hshut : ((shut s cause).fn f).tdi ≠ .unlocked := by rwa [shut_tdi]
  rw [enterPc_of_open h]
  exact foldl_tdiError_tdi_of_mem (mem_fns_of_tdi hshut) hshut

theorem enterPc_mem (s : State) (cause : Nat) : (s.enterPc cause).mem = s.mem := by
  cases h : s.port.frozen with
  | true => rw [enterPc_of_frozen h]
  | false => exact enterPc_keeps State.mem (fun _ _ _ => rfl) (fun _ _ => rfl) h cause

theorem enterPc_cores (s : State) (cause : Nat) : (s.enterPc cause).cores = s.cores := by
  cases h : s.port.frozen with
  | true => rw [enterPc_of_frozen h]
  | false => exact enterPc_keeps State.cores (fun _ _ _ => rfl) (fun _ _ => rfl) h cause

theorem linkFault_port (s : State) (cause : Nat) : (s.linkFault cause).port = (s.enterPc cause).port := by
  unfold State.linkFault
  dsimp only
  split <;> rfl

/-! ### The rows (R343 to R345) -/

theorem exec_hostLinkError {s : State} (hl : s.port.linkUp = true) (cleared : Bool) : exec (.hostLinkError cleared) s =
    .next { s.linkFault 1 with port := { (s.linkFault 1).port with linkBad := !cleared } } :=
  if_neg (by simp [hl])

theorem exec_poisonedRequest {s : State} (hl : s.port.linkUp = true) (f : FnId) :
    exec (.poisonedRequest f) s = .next ((s.linkFault 2).aerUncor f aerPoisoned) :=
  if_neg (by simp [hl])

section

variable {s : State} (hl : s.port.linkUp = true) (hport : s.port.ready = true ∨ s.port.frozen = true)
  (hserves : (s.fn 0).quiescing = false) (hstays : s.removing = false) (hthere : (s.fn 0).enabled = true)

include hl hport hserves hstays hthere

theorem exec_pcForce : exec .pcForce s = .next (s.enterPc 5) :=
  next_cfgAccess_of_answered (f := 0) hl hport hserves hstays hthere _

/-- A clear lifts the Portcullis only while nothing forbids it, and is otherwise refused (R345). -/
theorem exec_pcClear : exec .pcClear s = .next (
    if !s.port.frozen then s
    else if s.port.linkUp && !s.port.linkBad && !bit s.port.causeSeen.toNat 2 && !bit s.port.causeSeen.toNat 3 then s.liftPc
    else { s with port := { s.port with clearRefused := true } }) :=
  next_cfgAccess_of_answered (f := 0) hl hport hserves hstays hthere _

end

/-! ### The Portcullis lifts (R344, R345) -/

/-- The state in which the Portcullis is up and the held readiness messages are out. -/
def lifted (s : State) : State :=
  { s with port := { s.port with frozen := false, heldMsgs := [] }, out := s.out ++ s.port.heldMsgs.map readyMsg }

theorem liftPc_flushed {s : State} (hl : s.port.linkUp = true) : Flushed (lifted s) s.liftPc := by
  have hheld := foldl_sendReady_of_open s.port.heldMsgs (s := { s with port := { s.port with frozen := false, heldMsgs := [] } }) rfl hl
  have hlift : s.liftPc = (lifted s).flushAll := congrArg State.flushAll hheld
  rw [hlift]
  exact flushAll_flushed _

/-- Settles O52: an entry is followed through its two cases, and a lift sends only what was held. That a poisoned request sets AER bit 12
follows the standard's layout (log entry 7). -/
theorem portcullisRules : Obligations.PortcullisRules := by
  intro s
  refine ⟨fun cause hlo hhi => ?entry, fun hl => ⟨fun cleared => ?linkError, fun f => ?poisoned⟩,
    fun hl hport hserves hstays hthere => ?commands⟩
  case entry =>
    refine ⟨enterPc_frozen s cause, bit_causeSeen_enterPc s hlo hhi, fun h => ?_, fun h => ⟨cause_enterPc_of_open h hhi,
      entries_enterPc_of_open h cause, fun f hlocked => tdi_enterPc_of_locked h cause ?_⟩, enterPc_mem s cause, enterPc_cores s cause⟩
    · rw [enterPc_of_frozen h]
      exact ⟨rfl, rfl⟩
    · rcases hlocked with h | h <;> simp [h]
  case linkError =>
    refine ⟨_, exec_hostLinkError hl cleared, ?_, rfl, ?_⟩
    · exact (congrArg Port.frozen (linkFault_port s 1)).trans (enterPc_frozen s 1)
    · change bit (s.linkFault 1).port.causeSeen.toNat 0 = true
      rw [linkFault_port]
      exact bit_causeSeen_enterPc s (cause := 1) (by decide) (by decide)
  case poisoned =>
    refine ⟨_, exec_poisonedRequest hl f, ?_, ?_, bit_aerUncor _ _ (by decide)⟩
    · exact (congrArg Port.frozen (linkFault_port s 2)).trans (enterPc_frozen s 2)
    · change bit (s.linkFault 2).port.causeSeen.toNat 1 = true
      rw [linkFault_port]
      exact bit_causeSeen_enterPc s (cause := 2) (by decide) (by decide)
  case commands =>
    have hclear := exec_pcClear hl hport hserves hstays hthere
    refine ⟨exec_pcForce hl hport hserves hstays hthere, fun hopen => ?opened, fun hfrozen hgood h3 h4 => ?lift,
      fun hfrozen hbad => ?refused⟩
    case opened => rw [hclear, hopen]; rfl
    case lift =>
      obtain ⟨⟨b, hb⟩, -, ⟨l, hout⟩, -, -⟩ := liftPc_flushed hl
      have hlifts : exec .pcClear s = .next s.liftPc := by
        rw [hclear]
        simp [hfrozen, hl, hgood, h3, h4]
      refine ⟨_, hlifts, by rw [hb]; rfl, by rw [hb]; rfl, l, hout.symm.trans ?_⟩
      refine congrArg (s.out ++ · ++ l) (List.map_congr_left (f := readyMsg) (fun m _ => ?_))
      cases m <;> rfl
    case refused =>
      rw [hclear]
      rcases hbad with h | h | h <;> simp [hfrozen, h]

end Sys2Proof.Proofs
end

section
/-! PROOFS. Functions (R324, R332, R334, R338, R339, R341, R342, R377, R500): resets, VFs, the enables of a function, and the
completions of the device's own reads. -/

namespace Sys2Proof.Proofs

open Sys2Proof Sys2Proof.Machine

/-! ### Function-level reset (R334, R335, R377, R500) -/

/-- A function begins to quiesce (R334), and an interface that is locked moves to ERROR (R377). -/
theorem quiesce_fn_self (s : State) (f : Nat) : (s.quiesce f).fn f = { s.fn f with
    quiescing := true, tdi := if (s.fn f).tdi = .locked ∨ (s.fn f).tdi = .run then .error else (s.fn f).tdi,
    barred := (s.fn f).barred || decide ((s.fn f).tdi = .locked ∨ (s.fn f).tdi = .run) } := by
  unfold State.quiesce
  rw [State.setFn_fn, if_pos rfl]
  simp only [Bool.decide_or, Bool.or_eq_true, decide_eq_true_eq]

theorem resetFn_fn_self (s : State) (f : Nat) (there : Bool) : (s.resetFn f there).fn f = { Fn.reset with
    enabled := there, tdi := if (s.fn f).tdi = .error then .error else .unlocked, barred := (s.fn f).barred } := by
  unfold State.resetFn
  rw [State.setFn_fn, if_pos rfl]

section

variable {f : FnId} {s : State} (hquiesces : (s.fn f).quiescing = true) (hhot : s.port.hotResetPending = false) (hvf : f.val ≠ 0)
  (hpf : (s.fn 0).quiescing = false) (hquiet : s.quiet f = true)

include hquiesces hhot hvf hpf hquiet

/-- A VF that is quiet is torn down and at reset; what it says of itself depends on whether it is being removed. -/
theorem exec_flrQuiesceDone_of_vf : exec (.flrQuiesceDone f) s =
    let u := (s.tearFn f).resetFn f (!(s.fn f).removing)
    if !(s.fn f).removing then .next (u.sendReady (some f.val)) else if u.removing then .next u else .next (u.sendReady (some 0)) := by
  change execFlrQuiesceDone f s = _
  unfold execFlrQuiesceDone
  rw [if_neg (by simp [hquiesces, hhot, hpf]), if_neg hvf, if_neg (by simp [hquiet])]

theorem exec_flrQuiesceDone_of_staying (hstays : (s.fn f).removing = false) : exec (.flrQuiesceDone f) s =
    .next (((s.tearFn f).resetFn f (!(s.fn f).removing)).sendReady (some f.val)) :=
  (exec_flrQuiesceDone_of_vf hquiesces hhot hvf hpf hquiet).trans (if_pos (by simp [hstays]))

theorem exec_flrQuiesceDone_of_leaving (hleaves : (s.fn f).removing = true)
    (hothers : ((s.tearFn f).resetFn f (!(s.fn f).removing)).removing = true) :
    exec (.flrQuiesceDone f) s = .next ((s.tearFn f).resetFn f (!(s.fn f).removing)) :=
  (exec_flrQuiesceDone_of_vf hquiesces hhot hvf hpf hquiet).trans ((if_neg (by simp [hleaves])).trans (if_pos hothers))

end

/-! ### Configuration requests (R332, R334, R335, R338, R339, R342) -/

section

variable {f : FnId} {s : State} (hl : s.port.linkUp = true) (hready : s.port.ready = true) (hstays : s.removing = false)

include hl hready hstays

section

variable (hserves : (s.fn f).quiescing = false) (hthere : (s.fn f).enabled = true)

include hserves hthere

theorem exec_initiateFlr : exec (.initiateFlr f) s =
    .next (((if f.val = 0 then s.fnsUp else [f.val]).foldl (fun s f => s.quiesce f) s).boundary) :=
  next_cfgAccess_of_answered hl (.inl hready) hserves hstays hthere _

theorem exec_busMasterDisable (hbme : (s.fn f).bme = true) :
    exec (.busMasterDisable f) s = .next ((s.setFn f { s.fn f with bme := false }).tdiError f) :=
  (next_cfgAccess_of_answered hl (.inl hready) hserves hstays hthere _).trans (congrArg Host.Outcome.next (if_neg (by simp [hbme])))

theorem exec_busMasterEnable (hbme : (s.fn f).bme = false) :
    exec (.busMasterEnable f) s = .next ((s.setFn f { s.fn f with bme := true }).flushFn f) :=
  (next_cfgAccess_of_answered hl (.inl hready) hserves hstays hthere _).trans (congrArg Host.Outcome.next (if_neg (by simp [hbme])))

theorem exec_memorySpaceEnableClear_of_pf (hpf : f.val = 0) (hmse : (s.fn 0).mse = true) :
    exec (.memorySpaceEnableClear f) s = .next ((s.setFn 0 { s.fn 0 with mse := false }).tdiError 0) := by
  refine (next_cfgAccess_of_answered hl (.inl hready) hserves hstays hthere _).trans (congrArg Host.Outcome.next ?_)
  simp [hpf, State.setMse, hmse]

theorem exec_atsClear : exec (.atsPriEnableClear f .atsClear) s =
    .next ((s.setFn f { s.fn f with atsEnable := false }).dropPri f) :=
  next_cfgAccess_of_answered hl (.inl hready) hserves hstays hthere _

end

section

variable (hserves : (s.fn 0).quiescing = false) (hthere : (s.fn 0).enabled = true)

include hserves hthere

theorem exec_d3hotEntry : exec .d3hotEntry s = .next (s.setFn 0 { s.fn 0 with d3hot := true }) :=
  next_cfgAccess_of_answered (f := 0) hl (.inl hready) hserves hstays hthere _

theorem exec_d0Entry (hd3 : (s.fn 0).d3hot = true) : exec .d0Entry s =
    .next (((s.setFn 0 { s.fn 0 with d3hot := false }).sendReady (some 0)).sendLtr.flushAll) :=
  (next_cfgAccess_of_answered (f := 0) hl (.inl hready) hserves hstays hthere _).trans (congrArg Host.Outcome.next (if_neg (by simp [hd3])))

end

end

/-- Bus mastering or memory space off also moves a locked interface to ERROR; the function's record is otherwise as it was. -/
theorem tdiError_setFn_fn_self (s : State) (f : Nat) (x : Fn) : ((s.setFn f x).tdiError f).fn f =
    if x.tdi = .locked ∨ x.tdi = .run then { x with tdi := .error, barred := true } else x := by
  rw [tdiError_fn, State.setFn_fn, if_pos rfl]
  simp only [true_and]

/-! ### VFs come and go (R329, R332, R335, R500) -/

theorem setCfg_cfgWord (s : State) (f off off' v : Nat) :
    (s.setCfg f off v).cfgWord f off' = if off' = off then v % 2 ^ 32 else s.cfgWord f off' := by
  unfold State.setCfg State.cfgWord
  rw [State.setFn_fn, if_pos rfl]
  dsimp only
  rw [mapGet_mapSet]
  split
  · exact BitVec.toNat_ofNat ..
  · rfl

/-- VF i + 1 comes to be, fresh but for the state of its interface, and reports readiness. -/
def raiseVf (mse : Bool) (s : State) (i : Nat) : State :=
  (s.setFn (i + 1) { Fn.reset with enabled := true, mse := mse, tdi := (s.fn (i + 1)).tdi, barred := (s.fn (i + 1)).barred }).sendReady
    (some (i + 1))

theorem raiseVf_fn (mse : Bool) (s : State) (i g : Nat) : (raiseVf mse s i).fn g =
    if g = i + 1 then
      { Fn.reset with enabled := true, mse := mse, tdi := (s.fn (i + 1)).tdi, barred := (s.fn (i + 1)).barred }
    else s.fn g := by
  unfold raiseVf
  rw [sendReady_fn, State.setFn_fn]

theorem foldl_raiseVf_fn_zero (mse : Bool) (l : List Nat) (s : State) : (l.foldl (raiseVf mse) s).fn 0 = s.fn 0 :=
  foldl_keeps (fun s => s.fn 0) (fun s i => by rw [raiseVf_fn, if_neg (Nat.succ_ne_zero i).symm]) l s

theorem foldl_raiseVf_fresh (mse : Bool) (n : Nat) (s : State) {g : Nat} (hlo : 1 ≤ g) (hhi : g ≤ n) :
    (((List.range n).foldl (raiseVf mse) s).fn g).enabled = true ∧ (((List.range n).foldl (raiseVf mse) s).fn g).quiescing = false := by
  induction n with
  | zero => omega
  | succ n ih =>
    rw [List.range_succ, List.foldl_concat, raiseVf_fn]
    split
    · exact ⟨rfl, rfl⟩
    · exact ih (by omega)

section

variable {s : State} (hl : s.port.linkUp = true) (hready : s.port.ready = true) (hstays : s.removing = false)
  (hserves : (s.fn 0).quiescing = false) (hthere : (s.fn 0).enabled = true)

include hl hready hstays hserves

theorem exec_vfDisable (hon : bit (s.cfgWord 0 sriovControl) vfEnableBit = true) : exec .vfDisable s =
    let t := s.setCfg 0 sriovControl (putBits (s.cfgWord 0 sriovControl) vfEnableBit vfEnableBit 0)
    .next ((t.vfsUp.foldl (fun s f => (s.quiesce f).setFn f { (s.quiesce f).fn f with removing := true }) t).boundary) := by
  change execVfDisable s = _
  unfold execVfDisable
  dsimp only
  rw [if_neg (by simp [hl, hready, hserves, hstays]), if_neg (by simp [hon])]

include hthere

theorem exec_vfEnable (hoff : bit (s.cfgWord 0 sriovControl) vfEnableBit = false) : exec .vfEnable s =
    let c := s.cfgWord 0 sriovControl
    let t := s.setCfg 0 sriovControl (putBits c vfEnableBit vfEnableBit 1)
    .next ((List.range (min 63 (t.cfgWord 0 sriovNumVfs % 2 ^ 16))).foldl (raiseVf (bit c vfMseBit)) t) :=
  (next_cfgAccess_of_answered (f := 0) hl (.inl hready) hserves hstays hthere _).trans (congrArg Host.Outcome.next (if_neg (by simp [hoff])))

end

/-- With VF Enable set the bit stays set, and each VF that NumVFs counts is there and serves. -/
theorem vfs_raised (mse : Bool) (s : State) :
    let t := s.setCfg 0 sriovControl (putBits (s.cfgWord 0 sriovControl) vfEnableBit vfEnableBit 1)
    let u := (List.range (min 63 (t.cfgWord 0 sriovNumVfs % 2 ^ 16))).foldl (raiseVf mse) t
    bit (u.cfgWord 0 sriovControl) vfEnableBit = true ∧
      ∀ g, 1 ≤ g → g ≤ min 63 (s.cfgWord 0 sriovNumVfs % 2 ^ 16) → (u.fn g).enabled = true ∧ (u.fn g).quiescing = false := by
  intro t u
  have hcontrol : u.cfgWord 0 sriovControl = t.cfgWord 0 sriovControl :=
    congrArg (fun x : Fn => (mapGet 0 x.cfg sriovControl).toNat) (foldl_raiseVf_fn_zero mse _ t)
  have hcount : t.cfgWord 0 sriovNumVfs = s.cfgWord 0 sriovNumVfs := (setCfg_cfgWord ..).trans (if_neg (by decide))
  refine ⟨?_, fun g hlo hhi => foldl_raiseVf_fresh mse _ t hlo (by rwa [hcount])⟩
  rw [hcontrol, setCfg_cfgWord, if_pos rfl, bit_eq_testBit, Nat.testBit_mod_two_pow, testBit_putBits _ _ _ le_rfl]
  simp [vfEnableBit]

/-! ### The device's own reads (R341) -/

section

variable {s : State} {tag : BitVec 10} {rd : IoRead} (hread : s.openRead tag = some rd)

include hread

theorem exec_completionTimeout : exec (.completionTimeout tag) s =
    if (s.fn rd.fn).noTimeout then .next s else .next ((s.setRead rd { rd with ended := some .abort }).aerUncor rd.fn aerTimeout) := by
  change execCompletionTimeout tag s = _
  unfold execCompletionTimeout
  rw [hread]

variable (hl : s.port.linkUp = true)

include hl

theorem exec_cxlioCompletion_poisoned (data : Bytes) : exec (.cxlioCompletion tag .poisoned data) s =
    .next ((s.setRead rd { rd with ended := some .poisoned }).aerUncor rd.fn aerPoisoned) := by
  change execCxlioCompletion tag .poisoned data s = _
  unfold execCxlioCompletion
  rw [if_neg (by simp [hl]), hread]

theorem exec_cxlioCompletion_of_last {data : Bytes} (hlast : (rd.got ++ data).length = rd.len) : exec (.cxlioCompletion tag .ok data) s =
    .next (s.setRead rd { rd with got := rd.got ++ data, ended := some .ok }) := by
  change execCxlioCompletion tag .ok data s = _
  unfold execCxlioCompletion
  rw [if_neg (by simp [hl]), hread]
  dsimp only
  rw [List.take_of_length_le hlast.le, if_pos hlast]

end

/-- Settles O53: each row is carried out once its function answers, and what it leaves follows from the rules of one function's record.
AER bits 12 and 14 and the places of SR-IOV Control and NumVFs follow the standard's layout (log entry 7). -/
theorem functionControls : Obligations.FunctionControls := by
  intro f s hl
  refine ⟨fun hready hstays hserves hthere hserves0 hthere0 => ?requests, fun hquiesces hhot hvf hpf hquiet => ?quiesceDone,
    fun tag rd hread => ?reads⟩
  case requests =>
    refine ⟨exec_initiateFlr hl hready hstays hserves hthere, quiesce_fn_self s f, exec_d3hotEntry hl hready hstays hserves0 hthere0,
      fun hd3 => ?d0, fun hbme => ?masterOff, fun hbme => ?masterOn, fun hpf hmse => ?memoryOff, ?ats, fun hoff => ?vfsCome,
      exec_vfDisable hl hready hstays hserves0⟩
    case d0 =>
      have hflush := flushAll_flushed (((s.setFn 0 { s.fn 0 with d3hot := false }).sendReady (some 0)).sendLtr)
      have kept {γ : Type} (view : State → γ) (hport : ∀ (s : State) (p : Port) (o : List OutMsg),
          view { s with port := p, out := o } = view s) := (sendLtr_keeps view hport _).trans
        (sendReady_keeps view hport (s.setFn 0 { s.fn 0 with d3hot := false }) (some 0))
      refine ⟨_, exec_d0Entry hl hready hstays hserves0 hthere0 hd3, ?_, hflush.mem.trans (kept State.mem (fun _ _ _ => rfl)),
        hflush.cores.trans (kept State.cores (fun _ _ _ => rfl))⟩
      obtain ⟨p, hp⟩ := hflush.fns 0
      rw [hp, kept (fun s => s.fn 0) (fun _ _ _ => rfl), State.setFn_fn, if_pos rfl]
    case masterOff =>
      have hfn := tdiError_setFn_fn_self s f { s.fn f with bme := false }
      refine ⟨_, exec_busMasterDisable hl hready hstays hserves hthere hbme, ?_, fun hlocked => ?_, tdiError_mem ..⟩
      · rw [hfn]
        split <;> rfl
      · rw [hfn, if_pos hlocked]
    case masterOn =>
      have hflush := flushFn_flushed (s.setFn f { s.fn f with bme := true }) f
      refine ⟨_, exec_busMasterEnable hl hready hstays hserves hthere hbme, ?_, hflush.mem⟩
      obtain ⟨p, hp⟩ := hflush.fns f
      rw [hp, State.setFn_fn, if_pos rfl]
    case memoryOff =>
      refine ⟨_, exec_memorySpaceEnableClear_of_pf hl hready hstays hserves hthere hpf hmse, ?_, tdiError_mem ..⟩
      rw [tdiError_setFn_fn_self]
      split <;> rfl
    case ats =>
      refine ⟨_, exec_atsClear hl hready hstays hserves hthere, ?_, fun r hr => ?_, rfl⟩
      · change ((s.setFn f _).fn f).atsEnable = false
        rw [State.setFn_fn, if_pos rfl]
      · simpa using (List.mem_filter.mp hr).2
    case vfsCome => exact ⟨_, exec_vfEnable hl hready hstays hserves0 hthere0 hoff, vfs_raised _ s⟩
  case quiesceDone =>
    intro u
    have hfn := resetFn_fn_self (s.tearFn f) f (!(s.fn f).removing)
    refine ⟨fun hstays => ⟨exec_flrQuiesceDone_of_staying hquiesces hhot hvf hpf hquiet hstays, ?_, ?_, ?_⟩,
      fun hleaves hothers => ⟨exec_flrQuiesceDone_of_leaving hquiesces hhot hvf hpf hquiet hleaves hothers, ?_⟩⟩
    · rw [hfn]; rfl
    · rw [hfn]; rfl
    · rw [hfn, hstays]; rfl
    · rw [hfn, hleaves]; rfl
  case reads =>
    refine ⟨fun data => exec_cxlioCompletion_of_last hread hl, exec_cxlioCompletion_poisoned hread hl,
      fun hnever => ?_, fun htimed => ?_⟩
    · rw [exec_completionTimeout hread, if_pos hnever]
    · rw [exec_completionTimeout hread, if_neg (by simp [htimed])]
      rfl

end Sys2Proof.Proofs
end

section
/-! PROOFS. Mailbox messages (R331, R374 to R377) and debug tokens (R393, R394): what each message changes and answers, and the course
of a REQUEST from its nonce to the open Eyepiece. -/

namespace Sys2Proof.Proofs

open Sys2Proof Sys2Proof.Machine

/-! ### The mailbox (R331, R375 to R377) -/

section

variable {s : State} (hl : s.port.linkUp = true) (hport : s.port.ready = true ∨ s.port.frozen = true)
  (hserves : (s.fn 0).quiescing = false) (hstays : s.removing = false) (hthere : (s.fn 0).enabled = true)

include hl hport hserves hstays hthere

theorem exec_doeRequest (vendor : BitVec 16) (typ : BitVec 8) (len : Nat) : exec (.doeRequest vendor typ len) s = .next (s.send
    (.doe (doeTypes.contains (vendor.toNat, typ.toNat) && decide (len ≤ 2 ^ 20)) vendor typ)) :=
  next_cfgAccess_of_answered (f := 0) hl hport hserves hstays hthere _

theorem exec_spdmRequest (m : SpdmMsg) : exec (.spdmRequest m) s =
    .next ((s.spdmAnswer m).2.send (.spdm (s.spdmAnswer m).1.isSome m.code ((s.spdmAnswer m).1.getD []))) :=
  next_cfgAccess_of_answered (f := 0) hl hport hserves hstays hthere _

theorem exec_ideKmRequest_of_clear {n : Option Nat} (hclear : s.secured n = false) (op : IdeOp) :
    exec (.ideKmRequest { session := n, op := op }) s = .next (s.send (.ide false)) :=
  (next_cfgAccess_of_answered (f := 0) hl hport hserves hstays hthere _).trans
    (congrArg Host.Outcome.next (if_pos (by simp [hclear])))

theorem exec_lockInterfaceRequest_of_refused {n : Option Nat} {f : FnId} (hrefused : s.sec.ideGo = none ∨ (s.fn f).tdi ≠ .unlocked) :
    exec (.lockInterfaceRequest f n) s = .next (s.send (.tdisp false f (s.fn f).tdi 0)) := by
  refine (next_cfgAccess_of_answered (f := 0) hl hport hserves hstays hthere _).trans (congrArg Host.Outcome.next (if_pos ?_))
  rcases hrefused with h | h <;> simp [Sec.ideActive, h]

section

variable {n : Option Nat} (hsecured : s.secured n = true)

include hsecured

theorem exec_ideKmRequest_keyProg (set : Bool) (key : Bytes) :
    exec (.ideKmRequest { session := n, op := .keyProg set key }) s = .next (({ s with sec := { s.sec with
      ideKeys := s.sec.ideKeys.filter (fun k => k.1 ≠ set) ++ [(set, key)] } } : State).send (.ide true)) :=
  (next_cfgAccess_of_answered (f := 0) hl hport hserves hstays hthere _).trans
    (congrArg Host.Outcome.next (if_neg (by simp [hsecured])))

theorem exec_ideKmRequest_keySetGo {set : Bool} (hkey : s.sec.ideKeys.any (fun k => k.1 = set) = true) :
    exec (.ideKmRequest { session := n, op := .keySetGo set }) s =
      .next (({ s with sec := { s.sec with ideGo := some set } } : State).send (.ide true)) :=
  (next_cfgAccess_of_answered (f := 0) hl hport hserves hstays hthere _).trans
    (congrArg Host.Outcome.next ((if_neg (by simp [hsecured])).trans (if_pos hkey)))

theorem exec_ideKmRequest_keySetStop : exec (.ideKmRequest { session := n, op := .keySetStop }) s =
    .next (({ s with sec := { s.sec with ideGo := none } } : State).send (.ide true)) :=
  (next_cfgAccess_of_answered (f := 0) hl hport hserves hstays hthere _).trans
    (congrArg Host.Outcome.next (if_neg (by simp [hsecured])))

variable {f : FnId} (hup : (s.fn f).enabled = true)

include hup

/-- The nonce of an interface that is locked is 256 bits drawn afresh (R377). -/
theorem exec_lockInterfaceRequest_of_unlocked (hide : s.sec.ideGo ≠ none) (hunlocked : (s.fn f).tdi = .unlocked) :
    exec (.lockInterfaceRequest f n) s =
      .next ((s.draw.2.setFn f { s.fn f with tdi := .locked, barred := false, tdiNonce := s.draw.1 % 2 ^ 256 }).send
        (.tdisp true f .locked (s.draw.1 % 2 ^ 256))) := by
  refine (next_cfgAccess_of_answered (f := 0) hl hport hserves hstays hthere _).trans (congrArg Host.Outcome.next (if_neg ?_))
  simp [hsecured, Sec.ideActive, Option.isSome_iff_ne_none.mpr hide, hup, hunlocked]

theorem exec_tdispRequest_startInterface (hlocked : (s.fn f).tdi = .locked) :
    exec (.tdispRequest f { session := n, op := .startInterface (s.fn f).tdiNonce }) s =
      .next ((s.setFn f { s.fn f with tdi := .run }).send (.tdisp true f .run 0)) :=
  (next_cfgAccess_of_answered (f := 0) hl hport hserves hstays hthere _).trans
    (congrArg Host.Outcome.next ((if_neg (by simp [hsecured, hup])).trans (if_pos ⟨hlocked, rfl⟩)))

theorem exec_tdispRequest_stopInterface : exec (.tdispRequest f { session := n, op := .stopInterface }) s =
    .next ((s.setFn f { s.fn f with tdi := .unlocked }).send (.tdisp true f .unlocked 0)) :=
  (next_cfgAccess_of_answered (f := 0) hl hport hserves hstays hthere _).trans
    (congrArg Host.Outcome.next (if_neg (by simp [hsecured, hup])))

theorem exec_tdispRequest_getReport : exec (.tdispRequest f { session := n, op := .getReport }) s =
    .next (s.send (.tdisp (decide ((s.fn f).tdi = .locked) || decide ((s.fn f).tdi = .run)) f (s.fn f).tdi 0)) :=
  (next_cfgAccess_of_answered (f := 0) hl hport hserves hstays hthere _).trans
    (congrArg Host.Outcome.next (if_neg (by simp [hsecured, hup])))

end

end

/-! ### SPDM answers (R374, R375) -/

theorem spdmAnswer_getMeasurements (s : State) {i : Nat} (hlo : 1 ≤ i) (hhi : i ≤ 7) :
    s.spdmAnswer { session := none, code := .getMeasurements i } = (some (s.measurement i), s) := by
  have hne : i ≠ 0 := by omega
  simp [State.spdmAnswer, State.measured, hne, hhi]

theorem spdmAnswer_keyExchange {s : State} (hroom : s.sec.spdm.length < 4) :
    s.spdmAnswer { session := none, code := .keyExchange } = (some [], { s with sec := { s.sec with
      spdm := mapPut s.sec.spdm s.sec.spdmNext false, spdmNext := s.sec.spdmNext + 1 } }) := by
  simp [State.spdmAnswer, hroom]

/-! ### A REQUEST (R394 T0 to T2) -/

section

variable {s : State} (hl : s.port.linkUp = true) (ho : s.barOpen 0 = true) (hboot : s.boot.state ≠ 3)

include hl ho hboot

theorem bar0Write_of_open (k : State → State) : s.bar0Write false k = k s := by
  rw [State.bar0Write, barAccess_of_open hl ho, decide_eq_false hboot]
  rfl

theorem exec_newNonce : exec .newNonce s =
    .next { s with fresh := s.fresh + 1, sec := { s.sec with nonce := some (natLe (Config.free s.fresh) 32) } } :=
  congrArg Host.Outcome.next (bar0Write_of_open hl ho hboot _)

theorem exec_debugTokenRequest : exec .debugTokenRequest s = .next s.requestToken :=
  congrArg Host.Outcome.next (bar0Write_of_open hl ho hboot _)

end

/-- The state with one REQUEST more, whose outcome is still open. -/
def attempted (s : State) : State :=
  { s with sec := { s.sec with
    attempts := BitVec.ofNat 16 (satAdd 0xFFFF s.sec.attempts.toNat 1), refused := false, reason := 0 } }

theorem attempted_attempts (s : State) : (attempted s).sec.attempts.toNat = min 0xFFFF (s.sec.attempts.toNat + 1) := by
  change (BitVec.ofNat 16 (satAdd 0xFFFF s.sec.attempts.toNat 1)).toNat = _
  rw [BitVec.toNat_ofNat, satAdd]
  omega

theorem requestToken_of_busy {s : State} (h : s.sec.busy = true) : s.requestToken = s := if_pos h

theorem requestToken_of_noNonce {s : State} (h : s.sec.busy = false) (hnonce : s.sec.nonce = none) :
    s.requestToken = (attempted s).refuseToken 1 := by
  simp [State.requestToken, attempted, h, hnonce]

/-- The token is read under tag 0x3FF (log entry 78). -/
theorem requestToken_of_nonce {s : State} (h : s.sec.busy = false) (hnonce : s.sec.nonce ≠ none) (hsends : s.sends 0 = true) :
    s.requestToken = ({ attempted s with sec := { (attempted s).sec with busy := true } } : State).send
      (.ioRead 0 none 0x3FF s.sec.tokenAddr.toNat 192) := by
  have hgiven : (attempted s).sec.nonce.isNone = false := Option.isNone_eq_false_iff.mpr (Option.isSome_iff_ne_none.mpr hnonce)
  unfold State.requestToken
  rw [if_neg (by simp [h])]
  exact (if_neg (ne_true_of_eq_false hgiven)).trans (if_neg (ne_true_of_eq_false (congrArg (! ·) hsends)))

/-! ### The token that was read (R394 T2 to T5) -/

theorem exec_debugTokenRead_of_idle {s : State} (h : s.sec.busy = false) (token : Option Bytes) (sigOk : Bool) :
    exec (.debugTokenRead token sigOk) s = .next s :=
  if_pos (by simp [h])

section

variable {s : State} {token : Option Bytes} {sigOk : Bool} (hbusy : s.sec.busy = true) (hfirst : s.sec.opening = none)

include hbusy hfirst

theorem exec_debugTokenRead_of_refused (hwhy : s.tokenReason token sigOk ≠ 0) :
    exec (.debugTokenRead token sigOk) s = .next (s.refuseToken (s.tokenReason token sigOk)) := by
  change execDebugTokenRead token sigOk s = _
  unfold execDebugTokenRead
  rw [if_neg (by simp [hbusy]), hfirst]
  exact if_pos hwhy

/-- Contexts end before the Eyepiece opens; where every one has ended, no step is in flight, and no program or load is left, it opens at
once. -/
theorem exec_debugTokenRead_of_quiet (hok : s.tokenReason token sigOk = 0) (hctxs : ∀ c ∈ s.ctxs, c.2.valid = false)
    (hstep : s.srv.step = none) (hprograms : s.srv.programs = []) (hloading : s.srv.loading = none) :
    let scope := BitVec.ofNat 8 (fieldLe (token.getD []) 5 1)
    exec (.debugTokenRead token sigOk) s =
      .next (({ s with sec := { s.sec with nonce := none, opening := some scope } } : State).openEyepiece scope) := by
  have hnone : s.ctxs.filter (fun c => c.2.valid) = [] := List.filter_eq_nil_iff.mpr (fun c hc => by simp [hctxs c hc])
  change execDebugTokenRead token sigOk s = _
  unfold execDebugTokenRead
  rw [if_neg (by simp [hbusy]), hfirst]
  simp [hok, State.endAll, hnone, hstep, hprograms, hloading]

end

/-! ### The end of the pairing keeps the scheduler (R457, R461) -/

theorem freeHolds_srv (s : State) : s.freeHolds.srv = s.srv := by
  refine (foldl_keeps State.srv (fun s h => ?_) _ _).trans rfl
  have hcarried : (s.carryAll h.f (some h.tag) h.writes).srv = s.srv := foldl_keeps State.srv (fun s w => carry_srv s ..) _ _
  dsimp only
  split
  · rfl
  · split
    · exact (produce_srv ..).trans hcarried
    · exact hcarried

theorem setMirSt_srv (s : State) (st : MirSt) : (s.setMirSt st).srv = s.srv := by
  unfold State.setMirSt
  split
  · rfl
  · exact (hostInt_keeps State.srv (fun _ _ _ => rfl) (fun _ _ _ => rfl) _ 3).trans rfl

theorem unpair_srv (s : State) : s.unpair.srv = s.srv := (setMirSt_srv ..).trans (freeHolds_srv s)

theorem loseCarve_srv (s : State) : s.loseCarve.srv = s.srv := by
  unfold State.loseCarve
  dsimp only
  exact State.draw_srv s

theorem dropImage_main (s : State) : (s.dropImage false).srv.main = none := rfl

/-- No image is left once the Eyepiece is open. -/
theorem openEyepiece_main (s : State) (scope : BitVec 8) : (s.openEyepiece scope).srv.main = none := by
  unfold State.openEyepiece
  dsimp only
  rw [loseCarve_srv, unpair_srv, dropImage_main]

/-- Settles O55: each message goes through the frame of a configuration request, each REQUEST through that of BAR0, and a token that
passes is followed through T3 to T5. Which IDE_KM and TDISP messages are accepted is log entry 76; the tag 0x3FF, the count of attempts
and REFUSED cleared by a new request are log entry 78. -/
theorem securityMessagesAndTokens : Obligations.SecurityMessagesAndTokens := by
  refine ⟨fun s hl hport hserves hstays hthere vendor typ len =>
      ⟨?doe, fun m => ?spdm, fun n => ⟨fun hclear => ?clear, fun hsecured => ?secured⟩⟩,
    fun s token sigOk => ⟨fun hl ho hboot => ?request, ?idle, ?refused, ?opened⟩⟩
  case doe =>
    rw [exec_doeRequest hl hport hserves hstays hthere, doeTypes, List.contains_eq_mem, Bool.decide_and]
  case spdm =>
    refine ⟨exec_spdmRequest hl hport hserves hstays hthere m, fun i hm hlo hhi => ?_, fun hm hroom => ?_⟩
    · rw [hm, spdmAnswer_getMeasurements s hlo hhi]
    · rw [hm, spdmAnswer_keyExchange hroom]
      exact (mapFind_mapPut ..).trans (if_pos rfl)
  case clear => exact exec_ideKmRequest_of_clear hl hport hserves hstays hthere hclear
  case secured =>
    refine ⟨exec_ideKmRequest_keyProg hl hport hserves hstays hthere hsecured,
      fun set => exec_ideKmRequest_keySetGo hl hport hserves hstays hthere hsecured,
      exec_ideKmRequest_keySetStop hl hport hserves hstays hthere hsecured, fun f hide hup hunlocked => ?lock,
      fun f => exec_lockInterfaceRequest_of_refused hl hport hserves hstays hthere,
      fun f hup => ⟨exec_tdispRequest_startInterface hl hport hserves hstays hthere hsecured hup,
        exec_tdispRequest_stopInterface hl hport hserves hstays hthere hsecured hup, ?report⟩⟩
    case lock =>
      exact ⟨_, _, exec_lockInterfaceRequest_of_unlocked hl hport hserves hstays hthere hsecured hup hide hunlocked,
        (State.setFn_fn ..).trans (if_pos rfl), rfl, rfl⟩
    case report => rw [exec_tdispRequest_getReport hl hport hserves hstays hthere hsecured hup, Bool.decide_or]
  case request =>
    have hexec := exec_debugTokenRequest hl ho hboot
    refine ⟨exec_newNonce hl ho hboot, fun hbusy => ?_, fun hfree hnonce => ?_, fun hfree hnonce hsends => ?_⟩
    · rw [hexec, requestToken_of_busy hbusy]
    · exact ⟨_, hexec.trans (congrArg _ (requestToken_of_noNonce hfree hnonce)), rfl, rfl, rfl, rfl, rfl⟩
    · exact ⟨_, hexec.trans (congrArg _ (requestToken_of_nonce hfree hnonce hsends)), rfl, rfl, rfl, attempted_attempts s⟩
  case idle => exact fun hfree => exec_debugTokenRead_of_idle hfree token sigOk
  case refused =>
    exact fun hbusy hfirst hwhy => ⟨_, exec_debugTokenRead_of_refused hbusy hfirst hwhy, rfl, rfl, rfl, rfl, rfl⟩
  case opened =>
    intro hbusy hfirst hok hctxs hstep hprograms hloading
    exact ⟨_, exec_debugTokenRead_of_quiet hbusy hfirst hok hctxs hstep hprograms hloading, rfl, rfl, rfl, rfl, rfl,
      openEyepiece_main _ _, rfl, rfl⟩

end Sys2Proof.Proofs
end

section
/-! PROOFS. What no command gives up (log entry 6, R373): the canonical form of memory, and the anti-rollback counter from falling. Each
function of the model keeps both where its argument has them; here are the ways in which they are kept. -/

namespace Sys2Proof.Proofs

open Sys2Proof Sys2Proof.Machine

/-- What is watched along a run: whether memory had its form, the least that the anti-rollback counter may be, and, where it is some,
what the counts of the fault sources must stay. -/
structure Watch where
  form : Prop
  counter : Nat
  sources : Option (List FltSource)

/-- What is watched holds of a memory, a counter and the counts of the fault sources: memory has the canonical form (log entry 6), and the
counter is no lower than before (R373). -/
structure KeptOf (κ : Watch) (m : Memory) (c : BitVec 32) (f : List FltSource) : Prop where
  form : κ.form → m.wf = true
  counter : κ.counter ≤ c.toNat
  sources : ∀ l ∈ κ.sources, f = l

/-- What is watched holds of s. -/
abbrev Kept (κ : Watch) (s : State) : Prop := KeptOf κ s.mem s.sec.antiRollback s.flt.sources

/-- The next state, where the outcome is one, keeps what is watched. -/
def KeptNext (κ : Watch) : Res → Prop
  | .next t => Kept κ t
  | _ => True

section
variable {κ : Watch} {s t : State} {m n : Memory} {c : BitVec 32} {src src' : List FltSource}

/-- A step from s is watched for the form of memory and for the counter. -/
def Watch.step (s : State) : Watch := ⟨s.mem.wf = true, s.sec.antiRollback.toNat, none⟩

theorem Kept.step (s : State) : Kept (Watch.step s) s := ⟨id, Nat.le_refl _, fun _ h => nomatch h⟩

/-- A part of a step from s is watched for the counts of the fault sources. -/
def Watch.sourcesOf (s : State) : Watch := ⟨False, 0, some s.flt.sources⟩

theorem Kept.sourcesOf (s : State) : Kept (Watch.sourcesOf s) s :=
  ⟨False.elim, Nat.zero_le _, fun _ h => Option.some.inj h⟩

theorem KeptOf.unwatched (h : KeptOf κ m c src) (hκ : κ.sources = none) : KeptOf κ m c src' :=
  ⟨h.form, h.counter, fun _ hl => nomatch hκ ▸ hl⟩

theorem KeptOf.ite {p : Prop} [Decidable p] (hm : KeptOf κ m c src) (hn : KeptOf κ n c src) :
    KeptOf κ (if p then m else n) c src := by
  split
  · exact hm
  · exact hn

theorem Kept.ite {p : Prop} [Decidable p] (hs : Kept κ s) (ht : Kept κ t) : Kept κ (if p then s else t) := by
  split
  · exact hs
  · exact ht

theorem Kept.ite_snd {α : Type} {p : Prop} [Decidable p] {a b : α × State} (ha : Kept κ a.2) (hb : Kept κ b.2) :
    Kept κ (if p then a else b).2 := by
  split
  · exact ha
  · exact hb

theorem Kept.ite_snd_snd {α β : Type} {p : Prop} [Decidable p] {a b : α × β × State} (ha : Kept κ a.2.2) (hb : Kept κ b.2.2) :
    Kept κ (if p then a else b).2.2 := by
  split
  · exact ha
  · exact hb

/-- A fold whose steps keep it keeps it, where g says which part of the folded value is the state. -/
theorem Kept.foldl_of {α β : Type} (g : α → State) {f : α → β → α} {l : List β} {a : α} (h : Kept κ (g a))
    (hf : ∀ a b, Kept κ (g a) → Kept κ (g (f a b))) : Kept κ (g (l.foldl f a)) :=
  List.foldlRecOn (motive := fun a => Kept κ (g a)) l f h (fun a ha b _ => hf a b ha)

theorem Kept.foldl {β : Type} {f : State → β → State} {l : List β} (h : Kept κ s) (hf : ∀ s b, Kept κ s → Kept κ (f s b)) :
    Kept κ (l.foldl f s) :=
  Kept.foldl_of id h hf

theorem Kept.foldl_snd {α β : Type} {f : α × State → β → α × State} {l : List β} {a : α × State} (h : Kept κ a.2)
    (hf : ∀ a b, Kept κ a.2 → Kept κ (f a b).2) : Kept κ (l.foldl f a).2 :=
  Kept.foldl_of Prod.snd h hf

theorem Kept.foldl_snd_snd {α α' β : Type} {f : α × α' × State → β → α × α' × State} {l : List β} {a : α × α' × State}
    (h : Kept κ a.2.2) (hf : ∀ a b, Kept κ a.2.2 → Kept κ (f a b).2.2) : Kept κ (l.foldl f a).2.2 :=
  Kept.foldl_of (fun a : α × α' × State => a.2.2) h hf

/-- The scheduler is no part of it. -/
theorem Kept.with_srv {v : Srv} (h : Kept κ s) : Kept κ { s with srv := v } := h

/-- A state found beside a result. -/
theorem Kept.of_eq {α : Type} {p : α × State} {x : α} (e : p = (x, t)) (h : Kept κ p.2) : Kept κ t := by
  subst e
  exact h

theorem Kept.of_eq_snd {α β : Type} {p : α × β × State} {x : α} {y : β} (e : p = (x, y, t)) (h : Kept κ p.2.2) : Kept κ t := by
  subst e
  exact h

/-- A fold over memory. -/
theorem KeptOf.foldl {β : Type} {f : Memory → β → Memory} {l : List β} (h : KeptOf κ m c src)
    (hf : ∀ m b, KeptOf κ m c src → KeptOf κ (f m b) c src) : KeptOf κ (l.foldl f m) c src :=
  List.foldlRecOn (motive := fun m => KeptOf κ m c src) l f h (fun m hm b _ => hf m b hm)

/-- An operation on memory that keeps its form. -/
theorem KeptOf.mem (h : KeptOf κ m c src) (hf : m.wf = true → n.wf = true) : KeptOf κ n c src :=
  ⟨fun h₀ => hf (h.form h₀), h.counter, h.sources⟩

theorem KeptOf.write {k : Nat} {bs : Bytes} (h : KeptOf κ m c src) : KeptOf κ (m.write k bs) c src := h.mem (Memory.write_wf k bs)
theorem KeptOf.put {k : Nat} {v : Byte} (h : KeptOf κ m c src) : KeptOf κ (m.put k v) c src := h.mem (Memory.put_wf k v)
theorem KeptOf.store {k : Nat} {bs : Bytes} (h : KeptOf κ m c src) : KeptOf κ (m.store k bs) c src := h.mem (Memory.store_wf k bs)
theorem KeptOf.poisonLine {k : Nat} (h : KeptOf κ m c src) : KeptOf κ (m.poisonLine k) c src := h.mem (Memory.poisonLine_wf k)
theorem KeptOf.poison {p : List Nat} (h : KeptOf κ m c src) : KeptOf κ { m with poison := p } c src := h.mem (Memory.poison_wf p)
theorem KeptOf.zero {k n : Nat} (h : KeptOf κ m c src) : KeptOf κ (m.zero k n) c src := h.mem (Memory.zero_wf k n)
theorem KeptOf.zeroCarve {d : Coh} (h : KeptOf κ m c src) : KeptOf κ (m.zeroCarve d) c src := h.mem (Memory.zeroCarve_wf d)
theorem KeptOf.loseDirty {dc : List (Nat × DcSt)} (h : KeptOf κ m c src) : KeptOf κ (m.loseDirty dc) c src :=
  h.mem (Memory.loseDirty_wf dc)
theorem KeptOf.loseCore {g : Nat} (h : KeptOf κ m c src) : KeptOf κ (m.loseCore g) c src := h.mem (Memory.loseCore_wf g)
theorem KeptOf.renameCores {k : Nat} {old new : List Nat} (h : KeptOf κ m c src) : KeptOf κ (m.renameCores k old new) c src :=
  h.mem (Memory.renameCores_wf k old new)

/-- A fold that may fail. -/
theorem Kept.foldl_option {α α' β : Type} {f : Option (α × α' × State) → β → Option (α × α' × State)} {l : List β}
    {o : Option (α × α' × State)} (ho : ∀ {t}, o = some t → Kept κ t.2.2)
    (hf : ∀ {o : Option (α × α' × State)} {b}, (∀ {t}, o = some t → Kept κ t.2.2) → ∀ {t}, f o b = some t → Kept κ t.2.2) :
    ∀ {t}, l.foldl f o = some t → Kept κ t.2.2 :=
  List.foldlRecOn (motive := fun o => ∀ {t}, o = some t → Kept κ t.2.2) l f ho (fun _ ho _ _ => hf ho)

theorem with_mem_kept {m : Memory} (h : KeptOf κ m s.sec.antiRollback s.flt.sources) : Kept κ { s with mem := m } := h

theorem with_pwr_kept {p : Pwr} (h : Kept κ s) : Kept κ { s with pwr := p } := h

theorem with_wkt_kept {w : Wkt} (h : Kept κ s) : Kept κ { s with wkt := w } := h

theorem with_coh_kept {c : Coh} (h : Kept κ s) : Kept κ { s with coh := c } := h

theorem with_mir_kept {m : Mir} (h : Kept κ s) : Kept κ { s with mir := m } := h

theorem with_fns_port_kept {fns : List (Nat × Fn)} {p : Port} (h : Kept κ s) : Kept κ { s with fns := fns, port := p } := h

end

end Sys2Proof.Proofs
end

section
/-! PROOFS. What no command gives up, function by function: the sequencer, loads and stores, CSRs and program frames (03, 04, 06). -/

namespace Sys2Proof.Proofs

open Sys2Proof Sys2Proof.Machine

section
variable {κ : Watch} {s : State}

/-! ### Memory operations -/

theorem setCtx_kept {tag : Nat} {c : Ctx} (h : Kept κ s) : Kept κ (s.setCtx tag c) := h

theorem setFn_kept {f : Nat} {x : Fn} (h : Kept κ s) : Kept κ (s.setFn f x) := h

theorem setRing_kept {f r : Nat} {x : Ring} (h : Kept κ s) : Kept κ (s.setRing f r x) := h

theorem endProgram_kept {p : Program} {e : ProgEnd} {fault : Option (Nat × Nat × Nat × Word × Word)} (h : Kept κ s) :
    Kept κ (s.endProgram p e fault) := by
  fun_cases State.endProgram
  · exact Kept.foldl h (fun _ _ h => Kept.foldl h (fun _ _ h => Kept.ite h h))
  · exact h

theorem programFault_kept {g queue code : Nat} {cause tval : Word} (h : Kept κ s) :
    Kept κ (s.programFault g queue code cause tval) := by
  fun_cases State.programFault
  · exact endProgram_kept h
  · exact h

theorem exceptAt_kept {g cause : Nat} {epc tval : Word} (h : Kept κ s) : Kept κ (s.exceptAt g cause epc tval) := by
  fun_cases State.exceptAt
  · exact h
  · exact h
  · exact programFault_kept h

theorem except_kept {g cause : Nat} {tval : Word} (h : Kept κ s) : Kept κ (s.except g cause tval) := exceptAt_kept h

theorem signal_kept {g n k : Nat} (h : Kept κ s) : Kept κ (s.signal g n k) := by
  fun_cases State.signal
  · exact h
  · exact programFault_kept h

theorem halt_kept {g q code : Nat} {ticket : BitVec 32} (h : Kept κ s) : Kept κ (s.halt g q code ticket) :=
  programFault_kept h

/-! ### Accesses to memory -/

theorem askAts_kept {hub fn pasid va : Nat} {noWrite : Bool} (h : Kept κ s) : Kept κ (s.askAts hub fn pasid va noWrite) := by
  fun_cases State.askAts <;> exact h

theorem countFault_kept {w : Waiter} (h : Kept κ s) : Kept κ (s.countFault w) := by
  fun_cases State.countFault <;> exact h

theorem needPage_kept {who : Waiter} {hub fn pasid va : Nat} {rd wr hasEntry : Bool} (h : Kept κ s) :
    Kept κ (s.needPage who hub fn pasid va rd wr hasEntry).2 := by
  fun_cases State.needPage
  · exact h
  · exact askAts_kept h
  · exact h
  · exact countFault_kept h
  · exact Kept.ite (countFault_kept h) (askAts_kept h)

theorem resolve_kept {who : Waiter} {unit : Option Nat} {hub fn pasid va : Nat} {rd wr : Bool} (h : Kept κ s) :
    Kept κ (s.resolve who unit hub fn pasid va rd wr).2 := by
  fun_cases State.resolve
  · exact h
  · exact needPage_kept h
  · exact needPage_kept h

theorem refuseReq_kept {stream line : Nat} (h : Kept κ s) : Kept κ (s.refuseReq stream line) := by
  fun_cases State.refuseReq <;> exact h

theorem homeReady_kept {stream line : Nat} {write : Bool} (h : Kept κ s) : Kept κ (s.homeReady stream line write).2 := by
  fun_cases State.homeReady
  · exact h
  · exact refuseReq_kept h
  · exact refuseReq_kept h
  · exact h
  · exact h
  · exact h

theorem dcReady_kept {line : Nat} {excl whole : Bool} (h : Kept κ s) : Kept κ (s.dcReady line excl whole).2 := by
  fun_cases State.dcReady <;> exact h

theorem touchL1_kept {q : Requester} {ptr : Nat} (h : Kept κ s) : Kept κ (s.touchL1 q ptr) := by
  fun_cases State.touchL1 <;> exact h

theorem askIo_kept {who : Waiter} {fn : Nat} {pasid : Option Nat} {addr len : Nat} (h : Kept κ s) :
    Kept κ (s.askIo who fn pasid addr len).2 := by
  fun_cases State.askIo <;> exact h

theorem regulated_kept {fw : Bool} {k : Nat} (h : Kept κ s) : Kept κ (s.regulated fw k).2 := by
  fun_cases State.regulated <;> exact h

theorem meter_kept {fw : Bool} {k : Nat} (h : Kept κ s) : Kept κ (s.meter fw k) := by
  fun_cases State.meter <;> exact h

theorem prepLine_kept {q : Requester} {ptr len : Nat} {k : Kind} (h : Kept κ s) : Kept κ (s.prepLine q ptr len k).2 := by
  unfold State.prepLine
  extract_lets line
  have hline {s : State} {t : Tgt} (h : Kept κ s) : Kept κ (line s t).2 := by
    dsimp only [line]
    split
    · split
      · split
        next e => exact Kept.of_eq e (askIo_kept h)
        next e => exact Kept.of_eq e (askIo_kept h)
      · exact h
    · split
      · exact h
      · split
        · exact dcReady_kept h
        · split
          · split
            next e => exact Kept.of_eq e (regulated_kept h)
            next e =>
              have h1 := Kept.of_eq e (regulated_kept h)
              exact homeReady_kept h1
          · exact h
  split
  · split
    next e => exact Kept.of_eq e (resolve_kept h)
    next e => exact Kept.of_eq e (resolve_kept h)
    next e => exact hline (Kept.of_eq e (resolve_kept h))
    next e =>
      have h1 := Kept.of_eq e (resolve_kept h)
      exact hline h1
  · exact hline (touchL1_kept h)

theorem prep_kept {q : Requester} {ptr len : Nat} {k : Kind} (h : Kept κ s) : Kept κ (s.prep q ptr len k).2 :=
  Kept.foldl_snd h (fun _ _ h => prepLine_kept h)

theorem readLine_kept {q : Requester} {unit : BitVec 16} {ptr len : Nat} (h : Kept κ s) : Kept κ (s.readLine q unit ptr len).2 := by
  fun_cases State.readLine
  next e => exact Kept.of_eq e (askIo_kept h)
  next e => exact Kept.of_eq e (askIo_kept h)
  · exact h
  · exact h
  · exact meter_kept h
  · exact meter_kept h

theorem readRange_kept {q : Requester} {unit : BitVec 16} {ptr len : Nat} (h : Kept κ s) : Kept κ (s.readRange q unit ptr len).2 := by
  unfold State.readRange
  refine Kept.foldl_snd h (fun _ _ h => ?_)
  split
  · exact h
  · split
    next e => exact Kept.of_eq e (readLine_kept h)
    next e => exact Kept.of_eq e (readLine_kept h)

theorem storeLine_kept {k : Nat} {bs : Bytes} {tag : Option Nat} (h : Kept κ s) : Kept κ (s.storeLine k bs tag) := by
  fun_cases State.storeLine
  · exact Kept.ite (KeptOf.store h) (Kept.ite (KeptOf.store h) (KeptOf.store h))
  · exact Kept.ite (KeptOf.store h) (Kept.ite (KeptOf.store h) (KeptOf.store h))

theorem fwWrite_kept {key : Nat} {bs : Bytes} (h : Kept κ s) : Kept κ (s.fwWrite key bs) :=
  Kept.foldl h (fun _ _ h => storeLine_kept h)

theorem writeLine_kept {q : Requester} {unit : BitVec 16} {ptr : Nat} {bs : Bytes} (h : Kept κ s) :
    Kept κ (s.writeLine q unit ptr bs) := by
  fun_cases State.writeLine
  · exact h
  · exact h
  · exact h
  · exact h
  · exact storeLine_kept (meter_kept h)

theorem writeRange_kept {q : Requester} {unit : BitVec 16} {ptr : Nat} {bs : Bytes} (h : Kept κ s) :
    Kept κ (s.writeRange q unit ptr bs) :=
  Kept.foldl h (fun _ _ h => writeLine_kept h)

/-! ### Flags and waits -/

theorem msix_kept {f vec : Nat} (h : Kept κ s) : Kept κ (s.msix f vec) := by
  fun_cases State.msix <;> exact h

theorem flushMsix_kept {f : Nat} (h : Kept κ s) : Kept κ (s.flushMsix f) :=
  Kept.foldl h (fun _ _ h => Kept.ite (msix_kept h) h)

theorem driveIntx_kept (h : Kept κ s) : Kept κ (s.driveIntx) := by
  fun_cases State.driveIntx <;> exact h

theorem hostInt_kept {i : Nat} (h : Kept κ s) : Kept κ (s.hostInt i) := by
  fun_cases State.hostInt
  · exact msix_kept h
  · exact h
  · exact driveIntx_kept h

theorem xltEvent_kept {i f : Nat} (h : Kept κ s) : Kept κ (s.xltEvent i f) := hostInt_kept h

theorem barAccess_kept {f : Nat} {k : State → State} (h : Kept κ s) (hk : ∀ {s}, Kept κ s → Kept κ (k s)) :
    Kept κ (s.barAccess f k) := by
  fun_cases State.barAccess
  · exact h
  · exact hk h
  · exact h

theorem cfgAccess_kept {f : Nat} {k : State → State} (h : Kept κ s) (hk : ∀ {s}, Kept κ s → Kept κ (k s)) :
    Kept κ (s.cfgAccess f k) := by
  fun_cases State.cfgAccess
  · exact h
  · exact h
  · exact h
  · exact hk h

theorem sendReady_kept {f : Option Nat} (h : Kept κ s) : Kept κ (s.sendReady f) := by
  fun_cases State.sendReady <;> exact h

theorem bar0Write_kept {devFlt : Bool} {k : State → State} (h : Kept κ s) (hk : ∀ {s}, Kept κ s → Kept κ (k s)) :
    Kept κ (s.bar0Write devFlt k) :=
  barAccess_kept h (fun h => Kept.ite h (hk h))

/-! ### Loads, stores and atomics -/

theorem cacheReady_kept {g line : Nat} {excl : Bool} (h : Kept κ s) : Kept κ (s.cacheReady g line excl).2 := by
  fun_cases State.cacheReady <;> exact h

theorem seqPrep_kept {q : Requester} {ptr len : Nat} {k : Kind} (h : Kept κ s) : Kept κ (s.seqPrep q ptr len k).2 := by
  fun_cases State.seqPrep
  · refine Kept.foldl_snd h (fun _ _ h => ?_)
    dsimp only
    split
    · exact cacheReady_kept (touchL1_kept h)
    · exact touchL1_kept h
  · exact prep_kept h

theorem execLoad_kept {g : CoreId} {rd rs1 : Reg} {imm : BitVec 12} {kind : LoadKind} {c : Bool} (h : Kept κ s) :
    KeptNext κ (execLoad g rd rs1 imm kind c s) := by
  fun_cases execLoad
  · exact h
  · exact except_kept h
  · exact except_kept h
  · exact h
  next e =>
    have h1 := Kept.of_eq e (seqPrep_kept h)
    exact except_kept h1
  next e =>
    have h1 := Kept.of_eq e (seqPrep_kept h)
    exact h1
  next e _ =>
    have h1 := Kept.of_eq e (seqPrep_kept h)
    exact h1
  next e _ _ =>
    have h1 := Kept.of_eq e (seqPrep_kept h)
    exact h1
  next e _ _ _ e1 =>
    have h1 := Kept.of_eq e (seqPrep_kept h)
    have h2 := Kept.of_eq e1 (readRange_kept h1)
    exact h2
  next e _ _ e1 =>
    have h1 := Kept.of_eq e (seqPrep_kept h)
    have h2 := Kept.of_eq e1 (readRange_kept h1)
    exact except_kept h2

theorem bufferStore_kept {g : Nat} {es : List SbEntry} {len : Nat} (h : Kept κ s) : Kept κ (s.bufferStore g es len) := by
  fun_cases State.bufferStore <;> exact h

theorem storePrep_kept {q : Requester} {ptr len : Nat} (h : Kept κ s) : Kept κ (s.storePrep q ptr len).2 := by
  fun_cases State.storePrep
  · refine Kept.foldl_snd h (fun _ _ h => ?_)
    split
    next e => exact Kept.of_eq e (resolve_kept h)
    next e => exact Kept.of_eq e (resolve_kept h)
    next e => exact Kept.of_eq e (resolve_kept h)
  · exact touchL1_kept h

theorem execStore_kept {g : CoreId} {rs1 rs2 : Reg} {imm : BitVec 12} {size : MemSize} {c : Bool} (h : Kept κ s) :
    KeptNext κ (execStore g rs1 rs2 imm size c s) := by
  fun_cases execStore
  · exact h
  · exact except_kept h
  · exact except_kept h
  · exact h
  · exact except_kept h
  · exact writeRange_kept h
  · exact bufferStore_kept h
  next e =>
    have h1 := Kept.of_eq e (storePrep_kept h)
    exact except_kept h1
  next e => exact Kept.of_eq e (storePrep_kept h)
  next e =>
    have h1 := Kept.of_eq e (storePrep_kept h)
    exact bufferStore_kept h1

theorem performLine_kept {g : Nat} {q : Requester} {l : Nat × List (Nat × Byte)} (h : Kept κ s) : Kept κ (s.performLine g q l) := by
  fun_cases State.performLine
  · exact Kept.foldl h (fun _ _ h => h)
  · exact Kept.ite (Kept.ite (KeptOf.poison (KeptOf.foldl h (fun _ _ h => KeptOf.put h)))
      (KeptOf.poison (KeptOf.foldl h (fun _ _ h => KeptOf.put h))))
        (Kept.ite (KeptOf.poison (KeptOf.foldl h (fun _ _ h => KeptOf.put h)))
          (KeptOf.poison (KeptOf.foldl h (fun _ _ h => KeptOf.put h))))
  · exact Kept.ite (Kept.ite (KeptOf.poison (KeptOf.foldl h (fun _ _ h => KeptOf.put h)))
      (KeptOf.poison (KeptOf.foldl h (fun _ _ h => KeptOf.put h))))
        (Kept.ite (KeptOf.poison (KeptOf.foldl h (fun _ _ h => KeptOf.put h)))
          (KeptOf.poison (KeptOf.foldl h (fun _ _ h => KeptOf.put h))))

theorem execStoreBufferDrain_kept {g : CoreId} {entry : Nat} {word : Fin 8} (h : Kept κ s) :
    KeptNext κ (execStoreBufferDrain g entry word s) := by
  fun_cases execStoreBufferDrain
  · exact h
  · exact h
  next e =>
    have h1 := Kept.of_eq e (Kept.foldl_snd h (fun _ _ h => seqPrep_kept h))
    exact exceptAt_kept h1
  next e => exact Kept.of_eq e (Kept.foldl_snd h (fun _ _ h => seqPrep_kept h))
  next e _ => exact Kept.of_eq e (Kept.foldl_snd h (fun _ _ h => seqPrep_kept h))
  next e _ _ _ _ =>
    have h1 := Kept.of_eq e (Kept.foldl_snd h (fun _ _ h => seqPrep_kept h))
    exact Kept.foldl h1 (fun _ _ h => performLine_kept h)
  next e _ _ _ _ =>
    have h1 := Kept.of_eq e (Kept.foldl_snd h (fun _ _ h => seqPrep_kept h))
    exact exceptAt_kept (Kept.foldl (Kept.foldl h1 (fun _ _ h => performLine_kept h)) (fun _ _ h => h))

theorem atomPrep_kept {q : Requester} {ptr len : Nat} (h : Kept κ s) : Kept κ (s.atomPrep q ptr len).2 := prep_kept h

theorem atomic_kept {g : Nat} {ptr : Word} {n : Nat} {rl : Bool} {misaligned access pageFault : Nat} {refused : State → State}
    {act : State → Nat → Option Nat × State} (h : Kept κ s) (hrefused : ∀ {s}, Kept κ s → Kept κ (refused s))
    (hact : ∀ {s x}, Kept κ s → Kept κ (act s x).2) : Kept κ (s.atomic g ptr n rl misaligned access pageFault refused act) := by
  fun_cases State.atomic
  · exact h
  · exact except_kept h
  · exact except_kept h
  · exact h
  next e =>
    have h1 := Kept.of_eq e (atomPrep_kept h)
    exact except_kept h1
  next e _ =>
    have h1 := Kept.of_eq e (atomPrep_kept h)
    exact except_kept h1
  next e _ => exact Kept.of_eq e (atomPrep_kept h)
  next e _ =>
    have h1 := Kept.of_eq e (atomPrep_kept h)
    exact except_kept h1
  next e _ _ _ => exact Kept.of_eq e (atomPrep_kept h)
  next e _ _ _ _ =>
    have h1 := Kept.of_eq e (atomPrep_kept h)
    exact hrefused h1
  next e _ _ _ _ _ =>
    have h1 := Kept.of_eq e (atomPrep_kept h)
    exact except_kept h1
  next e _ _ _ _ _ _ _ e1 =>
    have h1 := Kept.of_eq e (atomPrep_kept h)
    have h2 := Kept.of_eq e1 (hact h1)
    exact storeLine_kept h2
  next e _ _ _ _ _ _ e1 =>
    have h1 := Kept.of_eq e (atomPrep_kept h)
    exact Kept.of_eq e1 (hact h1)

theorem execAmo_kept {g : CoreId} {op : AmoOp} {dbl _aq rl : Bool} {rd rs1 rs2 : Reg} (h : Kept κ s) :
    KeptNext κ (execAmo g op dbl _aq rl rd rs1 rs2 s) :=
  atomic_kept h except_kept id

theorem fpAtomic_kept {g n : Nat} {rl : Bool} {rd rs1 rs2 : Reg} {f : Nat → Nat → Nat} (h : Kept κ s) :
    Kept κ (s.fpAtomic g n rl rd rs1 rs2 f) := by
  unfold State.fpAtomic
  refine atomic_kept h except_kept (fun h => ?_)
  split
  · exact except_kept h
  · exact h

theorem execAmofaddS_kept {g : CoreId} {_aq rl : Bool} {rd rs1 rs2 : Reg} (h : Kept κ s) :
    KeptNext κ (execAmofaddS g _aq rl rd rs1 rs2 s) :=
  fpAtomic_kept h

theorem execAmofmaxS_kept {g : CoreId} {_aq rl : Bool} {rd rs1 rs2 : Reg} (h : Kept κ s) :
    KeptNext κ (execAmofmaxS g _aq rl rd rs1 rs2 s) :=
  fpAtomic_kept h

theorem execAmofaddBf_kept {g : CoreId} {_aq rl : Bool} {rd rs1 rs2 : Reg} (h : Kept κ s) :
    KeptNext κ (execAmofaddBf g _aq rl rd rs1 rs2 s) :=
  fpAtomic_kept h

theorem execAmofmaxBf_kept {g : CoreId} {_aq rl : Bool} {rd rs1 rs2 : Reg} (h : Kept κ s) :
    KeptNext κ (execAmofmaxBf g _aq rl rd rs1 rs2 s) :=
  fpAtomic_kept h

theorem execLr_kept {g : CoreId} {dbl _aq rl : Bool} {rd rs1 : Reg} (h : Kept κ s) : KeptNext κ (execLr g dbl _aq rl rd rs1 s) := by
  fun_cases execLr
  · exact h
  · exact except_kept h
  · exact except_kept h
  · exact h
  next e =>
    have h1 := Kept.of_eq e (seqPrep_kept h)
    exact except_kept h1
  next e =>
    have h1 := Kept.of_eq e (seqPrep_kept h)
    exact h1
  next e _ =>
    have h1 := Kept.of_eq e (seqPrep_kept h)
    exact except_kept h1
  next e _ _ _ =>
    have h1 := Kept.of_eq e (seqPrep_kept h)
    exact h1
  next e _ _ _ _ =>
    have h1 := Kept.of_eq e (seqPrep_kept h)
    exact except_kept h1
  next e _ _ _ _ _ _ e1 =>
    have h1 := Kept.of_eq e (seqPrep_kept h)
    have h2 := Kept.of_eq e1 (readRange_kept h1)
    exact h2
  next e _ _ _ _ _ e1 =>
    have h1 := Kept.of_eq e (seqPrep_kept h)
    have h2 := Kept.of_eq e1 (readRange_kept h1)
    exact except_kept h2

theorem execSc_kept {g : CoreId} {dbl _aq rl : Bool} {rd rs1 rs2 : Reg} (h : Kept κ s) :
    KeptNext κ (execSc g dbl _aq rl rd rs1 rs2 s) := by
  fun_cases execSc
  · exact h
  · exact except_kept h
  · exact except_kept h
  · exact h
  · exact h
  next e =>
    have h1 := Kept.of_eq e (seqPrep_kept h)
    exact except_kept h1
  next e =>
    have h1 := Kept.of_eq e (seqPrep_kept h)
    exact h1
  next e _ =>
    have h1 := Kept.of_eq e (seqPrep_kept h)
    exact except_kept h1
  next e _ _ _ =>
    have h1 := Kept.of_eq e (seqPrep_kept h)
    exact h1
  next e _ _ _ _ =>
    have h1 := Kept.of_eq e (seqPrep_kept h)
    exact h1
  next e _ _ _ _ _ =>
    have h1 := Kept.of_eq e (seqPrep_kept h)
    exact except_kept h1
  next e _ _ _ _ _ _ =>
    have h1 := Kept.of_eq e (seqPrep_kept h)
    exact h1
  next e _ _ _ _ _ _ _ =>
    have h1 := Kept.of_eq e (seqPrep_kept h)
    exact h1
  next e _ _ _ _ _ _ _ _ _ _ _ =>
    have h1 := Kept.of_eq e (seqPrep_kept h)
    exact Kept.ite (KeptOf.store h1) (KeptOf.store h1)

/-! ### CSRs and traps -/

theorem execCsrAccess_kept {g : CoreId} {csr : BitVec 12} {op : CsrOp} {useImm : Bool} {rd rs1 : Reg} (h : Kept κ s) :
    KeptNext κ (execCsrAccess g csr op useImm rd rs1 s) := by
  fun_cases execCsrAccess
  · exact h
  · exact except_kept h
  · exact except_kept h
  · exact h

theorem execEbreak_kept {g : CoreId} {_c : Bool} (h : Kept κ s) : KeptNext κ (execEbreak g _c s) := by
  fun_cases execEbreak
  · exact h
  · exact except_kept h

theorem modProgCore_kept {g : Nat} {f : ProgCore → ProgCore} (h : Kept κ s) : Kept κ (s.modProgCore g f) := by
  fun_cases State.modProgCore <;> exact h

theorem ecall_kept {g : Nat} {mine : Nat → Bool} {act : State} (h : Kept κ s) (hact : Kept κ act) : Kept κ (s.ecall g mine act) := by
  fun_cases State.ecall
  · exact h
  · exact except_kept h
  · exact hact
  · exact except_kept h

theorem execExit_kept {g : CoreId} (h : Kept κ s) : KeptNext κ (execExit g s) := by
  unfold execExit
  refine ecall_kept h ?_
  split
  · exact h
  · exact modProgCore_kept h

theorem execReport_kept {g : CoreId} (h : Kept κ s) : KeptNext κ (execReport g s) := ecall_kept h (modProgCore_kept h)

theorem execRendezvous_kept {g : CoreId} (h : Kept κ s) : KeptNext κ (execRendezvous g s) := ecall_kept h (modProgCore_kept h)

theorem execRendezvousReturn_kept {g : CoreId} (h : Kept κ s) : KeptNext κ (execRendezvousReturn g s) := by
  fun_cases execRendezvousReturn <;> exact h

theorem execEcallOtherFunction_kept {g : CoreId} (h : Kept κ s) : KeptNext κ (execEcallOtherFunction g s) := ecall_kept h h

theorem execTakeInterrupt_kept {g : CoreId} (h : Kept κ s) : KeptNext κ (execTakeInterrupt g s) := by
  fun_cases execTakeInterrupt <;> exact h

theorem execWcyccmpMatch_kept {g : CoreId} (h : Kept κ s) : KeptNext κ (execWcyccmpMatch g s) := by
  fun_cases execWcyccmpMatch
  · exact h
  · exact Kept.ite h (endProgram_kept h)
  · exact h

end

end Sys2Proof.Proofs
end

section
/-! PROOFS. What no command gives up, function by function: the engines, DMA, collectives, the Finder and granules (04 to 06). -/

namespace Sys2Proof.Proofs

open Sys2Proof Sys2Proof.Machine

section
variable {κ : Watch} {s : State}

/-! ### Descriptors -/

theorem aheadPage_kept {q : Requester} {needed : List Nat} {va : Nat} {wr : Bool} (h : Kept κ s) :
    Kept κ (s.aheadPage q needed va wr) := by
  fun_cases State.aheadPage
  · exact h
  · exact h
  · exact h
  · exact h
  · exact h
  · exact askAts_kept h

theorem aheadRanges_kept {q : Requester} {rs : List (Nat × Nat × Bool)} (h : Kept κ s) : Kept κ (s.aheadRanges q rs) :=
  Kept.foldl_snd h (fun _ _ h => aheadPage_kept h)

theorem aheadQueued_kept {g : CoreId} {ch : Chan} {c : EngCmd} (h : Kept κ s) : Kept κ (s.aheadQueued g ch c) :=
  Kept.foldl h (fun _ _ h => aheadRanges_kept h)

theorem ahead_kept {g : CoreId} {ch : Chan} (h : Kept κ s) : Kept κ (s.ahead g ch) := by
  fun_cases State.ahead
  · exact Kept.foldl h (fun _ _ h => aheadRanges_kept h)
  · exact h
  · exact h

/-! ### Engine queues -/

theorem execEdisp_kept {g : CoreId} {f7 : BitVec 7} {f3 : BitVec 3} {rs2 rs1 rd : Reg} (h : Kept κ s) :
    KeptNext κ (execEdisp g f7 f3 rs2 rs1 rd s) := by
  fun_cases execEdisp
  · exact h
  · exact except_kept h
  · exact except_kept h
  · exact h
  · exact except_kept h
  · exact except_kept h
  · exact except_kept h
  · exact h
  · exact Kept.ite h (aheadQueued_kept h)
  · exact h
  · exact h

theorem startCmd_kept {g : CoreId} {q : Nat} {c : Core} {cmd : EngCmd} (h : Kept κ s) : Kept κ (s.startCmd g q c cmd) := by
  fun_cases State.startCmd
  · exact halt_kept h
  · exact h
  · exact ahead_kept h

theorem execCommandStart_kept {g : CoreId} {q : QueueId} (h : Kept κ s) : KeptNext κ (execCommandStart g q s) := by
  fun_cases execCommandStart
  · exact h
  · exact startCmd_kept h
  · exact startCmd_kept h
  · exact h
  · exact h

theorem signalOf_kept {g : Nat} {cmd : EngCmd} (h : Kept κ s) : Kept κ (s.signalOf g cmd) := by
  fun_cases State.signalOf
  · exact signal_kept h
  · exact h

theorem execOperandRelease_kept {g : CoreId} {q : QueueId} (h : Kept κ s) : KeptNext κ (execOperandRelease g q s) := by
  fun_cases execOperandRelease
  · exact Kept.ite (signalOf_kept h) h
  · exact h
  · exact h

theorem execCommandCompletion_kept {g : CoreId} {q : QueueId} (h : Kept κ s) : KeptNext κ (execCommandCompletion g q s) := by
  fun_cases execCommandCompletion
  · exact Kept.ite (signalOf_kept h) h
  · exact h
  · exact h

theorem execEwait_kept {g : CoreId} {imm : BitVec 12} {rs1 rd : Reg} (h : Kept κ s) : KeptNext κ (execEwait g imm rs1 rd s) := by
  fun_cases execEwait
  · exact h
  · exact except_kept h
  · exact h
  · exact h

theorem execEwaitReturn_kept {g : CoreId} (h : Kept κ s) : KeptNext κ (execEwaitReturn g s) := by
  fun_cases execEwaitReturn <;> exact h

theorem execEqstat_kept {g : CoreId} {imm : BitVec 12} {rs1 rd : Reg} (h : Kept κ s) : KeptNext κ (execEqstat g imm rs1 rd s) := by
  fun_cases execEqstat
  · exact h
  · exact except_kept h
  · exact h

theorem execEclr_kept {g : CoreId} {imm : BitVec 12} {rs1 rd : Reg} (h : Kept κ s) : KeptNext κ (execEclr g imm rs1 rd s) := by
  fun_cases execEclr
  · exact h
  · exact except_kept h
  · exact h
  · exact h

theorem semInstr_kept {g f3 : Nat} {imm : BitVec 12} {rs1 rd : Reg} {bad : Bool} {act : Nat → State} (h : Kept κ s)
    (hact : ∀ {x}, Kept κ (act x)) : Kept κ (s.semInstr g f3 imm rs1 rd bad act) := by
  fun_cases State.semInstr
  · exact h
  · exact except_kept h
  · exact hact

theorem execSemsig_kept {g : CoreId} {imm : BitVec 12} {rs1 rd : Reg} (h : Kept κ s) : KeptNext κ (execSemsig g imm rs1 rd s) :=
  semInstr_kept h (Kept.ite h (signal_kept h))

theorem execSemwait_kept {g : CoreId} {imm : BitVec 12} {rs1 rd : Reg} (h : Kept κ s) : KeptNext κ (execSemwait g imm rs1 rd s) :=
  semInstr_kept h (Kept.ite h (Kept.ite h h))

theorem execSemwaitGrant_kept {g : CoreId} {n : Fin 64} (h : Kept κ s) : KeptNext κ (execSemwaitGrant g n s) := by
  fun_cases execSemwaitGrant
  · exact h
  · exact h
  · exact Kept.ite h h
  · exact h
  · exact Kept.ite (startCmd_kept h) h
  · exact h

theorem execSemtry_kept {g : CoreId} {imm : BitVec 12} {rs1 rd : Reg} (h : Kept κ s) : KeptNext κ (execSemtry g imm rs1 rd s) :=
  semInstr_kept h (Kept.ite h h)

theorem execSemrd_kept {g : CoreId} {imm : BitVec 12} {rs1 rd : Reg} (h : Kept κ s) : KeptNext κ (execSemrd g imm rs1 rd s) :=
  semInstr_kept h h

theorem execSemset_kept {g : CoreId} {imm : BitVec 12} {rs1 rd : Reg} (h : Kept κ s) : KeptNext κ (execSemset g imm rs1 rd s) :=
  semInstr_kept h (Kept.ite h h)

theorem placeBarrier_kept {g : Nat} {kind : BarKind} {mask : BitVec 4} (h : Kept κ s) : Kept κ (s.placeBarrier g kind mask) := by
  fun_cases State.placeBarrier <;> exact h

theorem barrierInstr_kept {g f3 : Nat} {kind : BarKind} {imm : BitVec 12} {rs1 rd : Reg} (h : Kept κ s) :
    Kept κ (s.barrierInstr g f3 kind imm rs1 rd) := by
  fun_cases State.barrierInstr
  · exact h
  · exact except_kept h
  · exact placeBarrier_kept h

theorem execLbar_kept {g : CoreId} {imm : BitVec 12} {rs1 rd : Reg} (h : Kept κ s) : KeptNext κ (execLbar g imm rs1 rd s) :=
  barrierInstr_kept h

theorem execSbar_kept {g : CoreId} {imm : BitVec 12} {rs1 rd : Reg} (h : Kept κ s) : KeptNext κ (execSbar g imm rs1 rd s) :=
  barrierInstr_kept h

theorem execFbar_kept {g : CoreId} {imm : BitVec 12} {rs1 rd : Reg} (h : Kept κ s) : KeptNext κ (execFbar g imm rs1 rd s) :=
  barrierInstr_kept h

theorem execFence_kept {g : CoreId} {_fm _pred _succ : BitVec 4} (h : Kept κ s) : KeptNext κ (execFence g _fm _pred _succ s) := by
  fun_cases execFence
  · exact h
  · exact placeBarrier_kept h

theorem execFenceI_kept {g : CoreId} (h : Kept κ s) : KeptNext κ (execFenceI g s) := by
  fun_cases execFenceI <;> exact h

theorem execBarrierMarkerComplete_kept {g : CoreId} (h : Kept κ s) : KeptNext κ (execBarrierMarkerComplete g s) := by
  fun_cases execBarrierMarkerComplete
  · exact h
  · exact Kept.ite h h

theorem storesTimeOut_kept {g : Nat} (h : Kept κ s) : Kept κ (s.storesTimeOut g) := by
  fun_cases State.storesTimeOut
  · exact h
  · exact exceptAt_kept h

theorem execBarrierTimeout_kept {g : CoreId} (h : Kept κ s) : KeptNext κ (execBarrierTimeout g s) := by
  fun_cases execBarrierTimeout
  · exact storesTimeOut_kept h
  · exact exceptAt_kept h
  · exact h

theorem execStoreTimeout_kept {g : CoreId} (h : Kept κ s) : KeptNext κ (execStoreTimeout g s) := by
  fun_cases execStoreTimeout
  · exact execBarrierTimeout_kept h
  · exact storesTimeOut_kept h

/-! ### Matrix commands -/

theorem engine_kept {g q op : Nat} {check : EngCmd → Nat} {run : EngCmd → State → Nat × State} (h : Kept κ s)
    (hrun : ∀ {x s}, Kept κ s → Kept κ (run x s).2) : Kept κ (s.engine g q op check run) := by
  fun_cases State.engine
  · exact h
  · exact h
  · exact halt_kept h
  · exact hrun h
  · exact halt_kept (hrun h)

theorem sramWrite_kept {g : Nat} {c : EngCmd} {off : Nat} {bs : Bytes} (h : Kept κ s) : Kept κ (s.sramWrite g c off bs) :=
  storeLine_kept h

theorem mmulRun_kept {g : Nat} {c : EngCmd} (h : Kept κ s) : Kept κ (mmulRun g c s).2 := by
  fun_cases mmulRun <;> exact h

theorem execMnop_kept {g : CoreId} (h : Kept κ s) : KeptNext κ (execMnop g s) := engine_kept h id

theorem execMmul_kept {g : CoreId} (h : Kept κ s) : KeptNext κ (execMmul g s) := engine_kept h mmulRun_kept

theorem mdrainRun_kept {g : Nat} {c : EngCmd} (h : Kept κ s) : Kept κ (mdrainRun g c s).2 := by
  fun_cases mdrainRun
  · exact h
  · refine Kept.foldl_snd h (fun _ _ h => ?_)
    split
    · exact h
    · dsimp only
      split
      · exact h
      · exact Kept.ite (sramWrite_kept h) (sramWrite_kept h)

theorem execMdrain_kept {g : CoreId} (h : Kept κ s) : KeptNext κ (execMdrain g s) := engine_kept h mdrainRun_kept

theorem mcbloadRun_kept {g : Nat} {c : EngCmd} (h : Kept κ s) : Kept κ (mcbloadRun g c s).2 := by
  fun_cases mcbloadRun <;> exact h

theorem execMcbload_kept {g : CoreId} (h : Kept κ s) : KeptNext κ (execMcbload g s) := engine_kept h mcbloadRun_kept

/-! ### Vector commands -/

theorem vecParts_kept {α : Type} {g : Nat} {c : EngCmd} {parts : List α} {reads : α → List (Nat × Nat)} {act : α → State → State}
    (h : Kept κ s) (hact : ∀ {x s}, Kept κ s → Kept κ (act x s)) : Kept κ (vecParts g c parts reads act s).2 := by
  unfold vecParts
  refine Kept.foldl_snd h (fun _ _ h => ?_)
  split
  · exact h
  · split
    · exact h
    · exact hact h

theorem vecElem_kept {fn : FVal → FVal → FVal → FVal} {g : Nat} {c : EngCmd} (h : Kept κ s) : Kept κ (vecElem fn g c s).2 :=
  vecParts_kept h sramWrite_kept

theorem vropeRun_kept {g : Nat} {c : EngCmd} (h : Kept κ s) : Kept κ (vropeRun g c s).2 := vecParts_kept h sramWrite_kept

theorem vecReduce_kept {fn : Vec → List FVal → Nat} {g : Nat} {c : EngCmd} (h : Kept κ s) : Kept κ (vecReduce fn g c s).2 :=
  vecParts_kept h sramWrite_kept

theorem vsmaxRun_kept {g : Nat} {c : EngCmd} (h : Kept κ s) : Kept κ (vsmaxRun g c s).2 :=
  vecParts_kept h (fun h => sramWrite_kept (sramWrite_kept (sramWrite_kept h)))

theorem vtopkRun_kept {g : Nat} {c : EngCmd} (h : Kept κ s) : Kept κ (vtopkRun g c s).2 :=
  vecParts_kept h (fun h => sramWrite_kept (sramWrite_kept h))

theorem vector_kept {g op : Nat} {run : EngCmd → State → Nat × State} (h : Kept κ s) (hrun : ∀ {x s}, Kept κ s → Kept κ (run x s).2) :
    Kept κ (s.vector g op run) :=
  engine_kept h hrun

theorem execVnop_kept {g : CoreId} (h : Kept κ s) : KeptNext κ (execVnop g s) := engine_kept h id

theorem execVadd_kept {g : CoreId} (h : Kept κ s) : KeptNext κ (execVadd g s) := vector_kept h vecElem_kept

theorem execVsub_kept {g : CoreId} (h : Kept κ s) : KeptNext κ (execVsub g s) := vector_kept h vecElem_kept

theorem execVmul_kept {g : CoreId} (h : Kept κ s) : KeptNext κ (execVmul g s) := vector_kept h vecElem_kept

theorem execVfma_kept {g : CoreId} (h : Kept κ s) : KeptNext κ (execVfma g s) := vector_kept h vecElem_kept

theorem execVmax_kept {g : CoreId} (h : Kept κ s) : KeptNext κ (execVmax g s) := vector_kept h vecElem_kept

theorem execVmin_kept {g : CoreId} (h : Kept κ s) : KeptNext κ (execVmin g s) := vector_kept h vecElem_kept

theorem execVcvt_kept {g : CoreId} (h : Kept κ s) : KeptNext κ (execVcvt g s) := vector_kept h vecElem_kept

theorem execVsfu_kept {g : CoreId} (h : Kept κ s) : KeptNext κ (execVsfu g s) := vector_kept h vecElem_kept

theorem execVgsilu_kept {g : CoreId} (h : Kept κ s) : KeptNext κ (execVgsilu g s) := vector_kept h vecElem_kept

theorem execVrope_kept {g : CoreId} (h : Kept κ s) : KeptNext κ (execVrope g s) := vector_kept h vropeRun_kept

theorem execVrmax_kept {g : CoreId} (h : Kept κ s) : KeptNext κ (execVrmax g s) := vector_kept h vecReduce_kept

theorem execVrsum_kept {g : CoreId} (h : Kept κ s) : KeptNext κ (execVrsum g s) := vector_kept h vecReduce_kept

theorem execVrssq_kept {g : CoreId} (h : Kept κ s) : KeptNext κ (execVrssq g s) := vector_kept h vecReduce_kept

theorem execVsmax_kept {g : CoreId} (h : Kept κ s) : KeptNext κ (execVsmax g s) := vector_kept h vsmaxRun_kept

theorem execVtopk_kept {g : CoreId} (h : Kept κ s) : KeptNext κ (execVtopk g s) := vector_kept h vtopkRun_kept

/-! ### Frames -/

theorem pushFrames_kept {n : Nat} (h : Kept κ s) : Kept κ (State.pushFrames n s) := by
  induction n generalizing s with
  | zero => exact h
  | succ n ih =>
    unfold State.pushFrames
    dsimp only
    split
    · exact h
    · exact Kept.ite h (ih h)

theorem sendFrame_kept {typ : BitVec 8} {tag : Nat} {p : JPayload} (h : Kept κ s) : Kept κ (s.sendFrame typ tag p) :=
  pushFrames_kept h

theorem journal_kept {tag : Nat} {typ : BitVec 8} {p : JPayload} (h : Kept κ s) : Kept κ (s.journal tag typ p) := by
  fun_cases State.journal
  · exact sendFrame_kept h
  · exact h
  · exact h

theorem journalKv_kept {tag pa len : Nat} (h : Kept κ s) : Kept κ (s.journalKv tag pa len) := by
  fun_cases State.journalKv
  · exact h
  · refine Kept.foldl h (fun _ _ h => ?_)
    split
    · exact journal_kept h
    · exact h

/-! ### DMA -/

theorem finderChunk_kept {d pa : Nat} (h : Kept κ s) : Kept κ (s.finderChunk d pa) := by
  fun_cases State.finderChunk <;> exact h

theorem finderRead_kept {q : Requester} {ptr len : Nat} (h : Kept κ s) : Kept κ (s.finderRead q ptr len) := by
  fun_cases State.finderRead
  · exact h
  · exact Kept.foldl h (fun _ _ h => finderChunk_kept h)

theorem fetch_kept {q : Requester} {ptr len : Nat} (h : Kept κ s) : Kept κ (s.fetch q ptr len).2.2 := by
  fun_cases State.fetch
  next e => exact Kept.of_eq e (prep_kept h)
  next e => exact Kept.of_eq e (prep_kept h)
  next e _ _ e1 =>
    have h1 := Kept.of_eq e (prep_kept h)
    exact Kept.of_eq e1 (readRange_kept h1)
  next e _ e1 =>
    have h1 := Kept.of_eq e (prep_kept h)
    exact Kept.of_eq e1 (readRange_kept h1)

theorem fetchAll_kept {q : Requester} {rs : List (Nat × Nat)} (h : Kept κ s) : Kept κ (s.fetchAll q rs).2.2 := by
  unfold State.fetchAll
  refine Kept.foldl_snd_snd h (fun _ _ h => ?_)
  split
  · exact h
  · split
    next e => exact Kept.of_eq_snd e (fetch_kept h)
    next e => exact Kept.of_eq_snd e (fetch_kept h)

theorem prepWrites_kept {q : Requester} {ws : List (Nat × Nat)} (h : Kept κ s) : Kept κ (s.prepWrites q ws).2 := by
  unfold State.prepWrites
  refine Kept.foldl_snd h (fun _ _ h => ?_)
  split
  · exact prep_kept h
  next e _ => exact Kept.of_eq e (prep_kept h)
  next e _ => exact Kept.of_eq e (prep_kept h)
  next e _ => exact Kept.of_eq e (prep_kept h)

theorem moveTile_kept {q : Requester} {reads writes : List (Nat × Nat)} {out : List Bytes → List Bytes} (h : Kept κ s) :
    Kept κ (s.moveTile q reads writes out).2 := by
  fun_cases State.moveTile
  next e =>
    have h1 := Kept.of_eq e (prepWrites_kept h)
    exact h1
  next e _ _ _ e1 =>
    have h1 := Kept.of_eq e (prepWrites_kept h)
    have h2 := Kept.of_eq_snd e1 (fetchAll_kept h1)
    exact h2
  next e _ _ e1 =>
    have h1 := Kept.of_eq e (prepWrites_kept h)
    have h2 := Kept.of_eq_snd e1 (fetchAll_kept h1)
    exact h2
  next e _ _ _ e1 =>
    have h1 := Kept.of_eq e1 (prepWrites_kept h)
    have h2 := Kept.of_eq_snd e (fetchAll_kept h1)
    exact Kept.foldl (Kept.foldl h2 (fun _ _ h => finderRead_kept h)) (fun _ _ h => writeRange_kept h)
  next e _ _ e1 _ =>
    have h1 := Kept.of_eq e (prepWrites_kept h)
    have h2 := Kept.of_eq_snd e1 (fetchAll_kept h1)
    exact h2

theorem moveRow_kept {q : Requester} {src dst len : Nat} (h : Kept κ s) : Kept κ (s.moveRow q src dst len).2 :=
  moveTile_kept h

theorem copyTile_kept {q : Requester} {d : Bytes} {i : Nat} (h : Kept κ s) : Kept κ (s.copyTile q d i).2 := moveRow_kept h

theorem stridedTile_kept {q : Requester} {d : Bytes} {i : Nat} (h : Kept κ s) : Kept κ (s.stridedTile q d i).2 :=
  moveRow_kept h

theorem indexedTile_kept {q : Requester} {d : Bytes} {scatter : Bool} {i : Nat} (h : Kept κ s) :
    Kept κ (s.indexedTile q d scatter i).2 := by
  fun_cases State.indexedTile
  next e _ _ =>
    have h1 := Kept.of_eq_snd e (fetch_kept h)
    exact h1
  next e _ _ =>
    have h1 := Kept.of_eq_snd e (fetch_kept h)
    exact moveRow_kept h1
  next e =>
    have h1 := Kept.of_eq_snd e (fetch_kept h)
    exact h1

theorem kvTile_kept {q : Requester} {d : Bytes} {i : Nat} (h : Kept κ s) : Kept κ (s.kvTile q d i).2 := by
  fun_cases State.kvTile
  · exact h
  next e _ _ =>
    have h1 := Kept.of_eq_snd e (fetch_kept h)
    exact h1
  next e _ _ _ =>
    have h1 := Kept.of_eq_snd e (fetch_kept h)
    exact h1
  next e _ _ _ _ _ _ _ _ _ _ e1 _ =>
    have h1 := Kept.of_eq_snd e (fetch_kept h)
    have h2 := Kept.of_eq e1 (moveTile_kept h1)
    exact journalKv_kept (journalKv_kept h2)
  next e _ _ _ _ _ _ _ _ _ _ =>
    have h1 := Kept.of_eq_snd e (fetch_kept h)
    exact moveTile_kept h1
  next e _ _ _ _ _ _ _ _ _ =>
    have h1 := Kept.of_eq_snd e (fetch_kept h)
    exact moveTile_kept h1
  next e =>
    have h1 := Kept.of_eq_snd e (fetch_kept h)
    exact h1

theorem tile_kept {q : Requester} {d : Bytes} {i : Nat} (h : Kept κ s) : Kept κ (s.tile q d i).2 := by
  fun_cases State.tile
  · exact copyTile_kept h
  · exact stridedTile_kept h
  · exact indexedTile_kept h
  · exact indexedTile_kept h
  · exact kvTile_kept h
  · exact kvTile_kept h
  · exact h

theorem runTiles_kept {f : State → Nat → Tile × State} {n i : Nat} (h : Kept κ s) (hf : ∀ {s i}, Kept κ s → Kept κ (f s i).2) :
    Kept κ (runTiles f n i s).2.2 := by
  induction n generalizing i s with
  | zero => exact h
  | succ n ih =>
    unfold runTiles
    split
    next e => exact ih (Kept.of_eq e (hf h))
    next e => exact Kept.of_eq e (hf h)

theorem descDone_kept {g ch : Nat} {c : EngCmd} (h : Kept κ s) : Kept κ (s.descDone g ch c) := by
  fun_cases State.descDone
  · exact halt_kept h
  · exact h
  · exact h

theorem runDesc_kept {g : CoreId} {ch : Chan} {c : EngCmd} (h : Kept κ s) : Kept κ (s.runDesc g ch c) := by
  fun_cases State.runDesc
  next e _ _ =>
    have h1 := Kept.of_eq_snd e (runTiles_kept h tile_kept)
    exact h1
  next e _ _ =>
    have h1 := Kept.of_eq_snd e (runTiles_kept h tile_kept)
    exact ahead_kept h1
  next e =>
    have h1 := Kept.of_eq_snd e (runTiles_kept h tile_kept)
    exact halt_kept h1
  next e =>
    have h1 := Kept.of_eq_snd e (runTiles_kept h tile_kept)
    exact ahead_kept (descDone_kept h1)

theorem dma_kept {g : CoreId} {ch : Chan} {t : Nat} (h : Kept κ s) : Kept κ (s.dma g ch t) := by
  fun_cases State.dma
  · exact h
  · exact runDesc_kept h
  · exact halt_kept h
  · exact runDesc_kept h

theorem execDnop_kept {g : CoreId} {ch : Chan} (h : Kept κ s) : KeptNext κ (execDnop g ch s) := dma_kept h

theorem execCopy_kept {g : CoreId} {ch : Chan} (h : Kept κ s) : KeptNext κ (execCopy g ch s) := dma_kept h

theorem execStrided_kept {g : CoreId} {ch : Chan} (h : Kept κ s) : KeptNext κ (execStrided g ch s) := dma_kept h

theorem execGather_kept {g : CoreId} {ch : Chan} (h : Kept κ s) : KeptNext κ (execGather g ch s) := dma_kept h

theorem execScatter_kept {g : CoreId} {ch : Chan} (h : Kept κ s) : KeptNext κ (execScatter g ch s) := dma_kept h

theorem execKvput_kept {g : CoreId} {ch : Chan} (h : Kept κ s) : KeptNext κ (execKvput g ch s) := dma_kept h

theorem execKvget_kept {g : CoreId} {ch : Chan} (h : Kept κ s) : KeptNext κ (execKvget g ch s) := dma_kept h

theorem abandonWrites_kept {g q : Nat} (h : Kept κ s) : Kept κ (s.abandonWrites g q) := by
  fun_cases State.abandonWrites
  · exact Kept.foldl h (fun _ _ h => h)
  · exact Kept.foldl h (fun _ _ h => h)
  · exact Kept.foldl h (fun _ _ h => h)

/-! ### Collectives -/

theorem readKey_kept {q : Requester} {key n : Nat} (h : Kept κ s) : Kept κ (s.readKey q key n).2 := by
  unfold State.readKey
  dsimp only
  refine Kept.foldl_snd h (fun _ _ h => ?_)
  split
  · exact h
  · split
    · exact h
    · split
      · exact h
      · split
        · exact h
        · exact h

theorem writeKey_kept {q : Requester} {key : Nat} {bs : Bytes} (h : Kept κ s) : Kept κ (s.writeKey q key bs) := by
  unfold State.writeKey
  refine Kept.foldl h (fun _ _ h => Kept.ite h (Kept.ite ?_ (storeLine_kept h)))
  split
  · exact h
  · exact h

theorem partEnd_kept {p : Part} {code : Nat} {sig : Bool} (h : Kept κ s) : Kept κ (s.partEnd p code sig) := by
  unfold State.partEnd
  extract_lets ended goneOn
  split
  · exact halt_kept h
  · have hgone : Kept κ goneOn := by
      dsimp only [goneOn]
      split
      · exact Kept.ite (descDone_kept h) h
      · exact h
    exact Kept.ite (signal_kept hgone) hgone

theorem allEnd_kept {ps : List Part} {code : Nat} (h : Kept κ s) : Kept κ (s.allEnd ps code) :=
  Kept.foldl h (fun _ _ h => partEnd_kept h)

theorem closeColl_kept {j : Joined} (h : Kept κ s) : Kept κ (s.closeColl j) := by
  fun_cases State.closeColl <;> exact h

theorem runMember_kept {p : Part} {count : Nat} {tile : State → Nat → Tile × State} (h : Kept κ s)
    (htile : ∀ {s x}, Kept κ s → Kept κ (tile s x).2) : Kept κ (s.runMember p count tile).2 := by
  fun_cases State.runMember
  next e =>
    have h1 := Kept.of_eq_snd e (runTiles_kept h htile)
    exact h1
  next e =>
    have h1 := Kept.of_eq_snd e (runTiles_kept h htile)
    exact partEnd_kept h1
  next e =>
    have h1 := Kept.of_eq_snd e (runTiles_kept h htile)
    exact h1

theorem entriesOf_kept {q : Requester} {e : Group} {layer : Nat} {l : List (Nat × Nat)} (h : Kept κ s) :
    Kept κ (s.entriesOf q e layer l).2.2 := by
  unfold State.entriesOf
  refine Kept.foldl_snd_snd h (fun _ _ h => ?_)
  split
  · split
    · exact h
    · split
      next e => exact Kept.of_eq e (readKey_kept h)
      next e => exact Kept.of_eq e (readKey_kept h)
  · exact h

theorem routes_kept {q : Requester} {d : Bytes} (h : Kept κ s) : Kept κ (s.routes q d).2.2 := by
  unfold State.routes
  refine Kept.foldl_snd_snd h (fun _ _ h => ?_)
  split
  · exact h
  · split
    next e _ _ _ _ e1 =>
      have h2 := Kept.of_eq_snd e (fetch_kept h)
      exact Kept.of_eq_snd e1 (entriesOf_kept h2)
    next e _ _ _ _ _ _ e1 =>
      have h2 := Kept.of_eq_snd e (fetch_kept h)
      exact Kept.of_eq_snd e1 (entriesOf_kept h2)
  next e _ => exact Kept.of_eq_snd e (fetch_kept h)

theorem dieVisible_kept {j : Joined} {d : Nat} (h : Kept κ s) : Kept κ (s.dieVisible j d) :=
  Kept.foldl h (fun _ _ h => signal_kept h)

theorem rowArrived_kept {j : Joined} {d : Nat} (h : Kept κ s) : Kept κ (s.rowArrived j d) := by
  fun_cases State.rowArrived
  · exact dieVisible_kept h
  · exact h

theorem exchangeTile_kept {p : Part} {t : Nat} (h : Kept κ s) : Kept κ (s.exchangeTile p t).2 := by
  fun_cases State.exchangeTile
  next e _ =>
    have h1 := Kept.of_eq_snd e (fetchAll_kept h)
    exact Kept.foldl (finderRead_kept h1) (fun _ _ h => rowArrived_kept (writeKey_kept h))
  next e => exact Kept.of_eq_snd e (fetchAll_kept h)
  · exact h
  next e =>
    have h1 := Kept.of_eq e (prepWrites_kept h)
    exact writeRange_kept h1
  · exact prepWrites_kept h

theorem runExchange_kept {p : Part} (h : Kept κ s) : Kept κ (s.runExchange p) := by
  fun_cases State.runExchange
  next e =>
    have h1 := Kept.of_eq e (runMember_kept h exchangeTile_kept)
    exact partEnd_kept h1
  next e => exact Kept.of_eq e (runMember_kept h exchangeTile_kept)

theorem startExchange_kept {ps : List Part} (h : Kept κ s) : Kept κ (s.startExchange ps) := by
  fun_cases State.startExchange
  · exact h
  · exact allEnd_kept h
  · exact Kept.foldl (Kept.foldl (Kept.foldl h (fun _ _ h => writeKey_kept h)) (fun _ _ h => h))
      (fun _ _ h => Kept.ite (dieVisible_kept h) h)

theorem returnTile_kept {p : Part} {x : ExchangeRec} {i : Nat} (h : Kept κ s) : Kept κ (s.returnTile p x i).2 := by
  fun_cases State.returnTile
  next e _ _ e1 =>
    have h1 := Kept.of_eq_snd e (fetch_kept h)
    exact Kept.of_eq e1 (readKey_kept (finderRead_kept h1))
  next e _ _ _ e1 _ _ =>
    have h1 := Kept.of_eq_snd e (fetch_kept h)
    exact Kept.of_eq e1 (readKey_kept (finderRead_kept h1))
  next e _ _ _ e1 _ _ _ =>
    have h1 := Kept.of_eq_snd e (fetch_kept h)
    have h2 := Kept.of_eq e1 (readKey_kept (finderRead_kept h1))
    exact writeKey_kept h2
  next e => exact Kept.of_eq_snd e (fetch_kept h)

theorem contributions_kept {p : Part} {tok : Nat} {ranks : List Nat} (h : Kept κ s) : Kept κ (s.contributions p tok ranks).2 := by
  unfold State.contributions
  refine Kept.foldl_snd h (fun _ _ h => ?_)
  split
  · exact h
  · split
    next e => exact Kept.of_eq e (readKey_kept h)
    next e => exact Kept.of_eq e (readKey_kept h)

theorem combineTile_kept {p : Part} {base : Nat} {order : List Nat} {t : Nat} (h : Kept κ s) :
    Kept κ (s.combineTile p base order t).2 := by
  fun_cases State.combineTile
  next e _ _ e1 _ _ e2 =>
    have h1 := Kept.of_eq e (prepWrites_kept h)
    have h2 := Kept.of_eq_snd e1 (fetchAll_kept h1)
    exact Kept.of_eq e2 (contributions_kept h2)
  next e _ _ e1 _ _ _ e2 =>
    have h1 := Kept.of_eq e (prepWrites_kept h)
    have h2 := Kept.of_eq_snd e1 (fetchAll_kept h1)
    have h3 := Kept.of_eq e2 (contributions_kept h2)
    exact writeRange_kept h3
  next e _ _ _ _ e1 =>
    have h1 := Kept.of_eq e (prepWrites_kept h)
    exact Kept.of_eq_snd e1 (fetchAll_kept h1)
  · exact prepWrites_kept h

theorem combineOut_kept {p : Part} {base : Nat} {order : List Nat} (h : Kept κ s) : Kept κ (s.combineOut p base order) := by
  unfold State.combineOut
  dsimp only
  refine Kept.foldl_snd h (fun _ _ h => ?_)
  split
  · exact h
  · split
    next e =>
      have h2 := Kept.of_eq e (combineTile_kept h)
      exact h2
    next e =>
      have h2 := Kept.of_eq e (combineTile_kept h)
      exact h2
    next e =>
      have h2 := Kept.of_eq e (combineTile_kept h)
      exact partEnd_kept h2

theorem runCombine_kept {j : Joined} {order : List Nat} (h : Kept κ s) : Kept κ (s.runCombine j order) := by
  fun_cases State.runCombine
  · exact h
  · exact Kept.foldl_snd (Kept.foldl h (fun _ _ h => runMember_kept h returnTile_kept))
      (fun _ _ h => Kept.ite (partEnd_kept (combineOut_kept h)) (combineOut_kept h))

theorem startCombine_kept {ps : List Part} (h : Kept κ s) : Kept κ (s.startCombine ps) := by
  fun_cases State.startCombine
  · exact allEnd_kept h
  · exact allEnd_kept h
  · exact Kept.foldl h (fun _ _ h => h)

theorem reduceTile_kept {ps : List Part} {i : Nat} {order : List Nat} (h : Kept κ s) : Kept κ (s.reduceTile ps i order).2 := by
  fun_cases State.reduceTile
  · exact Kept.foldl_snd h (fun _ _ h => fetch_kept (prepWrites_kept h))
  · refine Kept.foldl (Kept.foldl (Kept.foldl_snd h (fun _ _ h => fetch_kept (prepWrites_kept h))) (fun _ _ h => finderRead_kept h))
      (fun _ _ h => ?_)
    split
    · exact partEnd_kept h
    · exact partEnd_kept h
    · exact Kept.ite h (Kept.ite (partEnd_kept (Kept.foldl h (fun _ _ h => writeRange_kept h)))
        (Kept.foldl h (fun _ _ h => writeRange_kept h)))

theorem runReduce_kept {n : Nat} {j : Joined} {order : List Nat} (h : Kept κ s) : Kept κ (State.runReduce n s j order) := by
  induction n generalizing s with
  | zero => exact h
  | succ n ih =>
    unfold State.runReduce
    dsimp only
    split
    · exact h
    · split
      · exact h
      · split
        next e => exact ih (Kept.of_eq e (reduceTile_kept h))
        next e => exact Kept.of_eq e (reduceTile_kept h)

theorem goOn_kept {j : Joined} {order : List Nat} (h : Kept κ s) : Kept κ (s.goOn j order) := by
  fun_cases State.goOn
  · exact Kept.foldl h (fun _ _ h => runExchange_kept h)
  · exact runCombine_kept h
  · exact runReduce_kept h

theorem begins_kept {ps : List Part} {p : Part} (h : Kept κ s) : Kept κ (s.begins ps p) := by
  fun_cases State.begins
  · exact allEnd_kept h
  · exact startExchange_kept h
  · exact startCombine_kept h
  · exact Kept.foldl h (fun _ _ h => h)

theorem fire_kept {j : Joined} {order : List Nat} (h : Kept κ s) : Kept κ (s.fire j order) := by
  fun_cases State.fire
  · exact closeColl_kept (goOn_kept h)
  · exact h
  · exact h
  · exact closeColl_kept (Kept.ite (goOn_kept (begins_kept h)) (begins_kept h))
  · exact h

theorem fireAll_kept {g ch : Nat} {order : List Nat} (h : Kept κ s) : Kept κ (s.fireAll g ch order) :=
  Kept.foldl h (fun _ _ h => fire_kept h)

theorem noteExchange_kept {e : Group} {k : Nat × Nat × Nat} {d : Bytes} (h : Kept κ s) : Kept κ (s.noteExchange e k d) := by
  fun_cases State.noteExchange <;> exact h

theorem issue_kept {g : Nat} {d : Bytes} (h : Kept κ s) : Kept κ (s.issue g d) := noteExchange_kept h

theorem join_kept {g ch : Nat} {c : EngCmd} {d : Bytes} {routes : List (List (Nat × Nat × Nat))} (h : Kept κ s) :
    Kept κ (s.join g ch c d routes).1 :=
  issue_kept h

theorem joinNext_kept {g : CoreId} {ch : Chan} {c : EngCmd} {e : Nat}
    {more : State → Tile × List (List (Nat × Nat × Nat)) × State} {order : List Nat} (h : Kept κ s)
    (hmore : ∀ {s}, Kept κ s → Kept κ (more s).2.2) : Kept κ (s.joinNext g ch c e more order) := by
  fun_cases State.joinNext
  next e => exact Kept.of_eq_snd e (hmore h)
  next e =>
    have h1 := Kept.of_eq_snd e (hmore h)
    exact halt_kept (issue_kept h1)
  next e _ =>
    have h1 := Kept.of_eq_snd e (hmore h)
    exact fire_kept (join_kept h1)
  next e =>
    have h1 := Kept.of_eq_snd e (hmore h)
    exact halt_kept (issue_kept h1)
  · exact halt_kept (issue_kept h)
  · exact halt_kept (issue_kept h)

theorem collective_kept {g : CoreId} {ch : Chan} {t : Nat} {check : Requester → EngCmd → Bytes → Nat → Nat}
    {more : State → Requester → Bytes → Tile × List (List (Nat × Nat × Nat)) × State} {order : List Nat} (h : Kept κ s)
    (hmore : ∀ {s q d}, Kept κ s → Kept κ (more s q d).2.2) : Kept κ (s.collective g ch t check more order) := by
  fun_cases State.collective
  · exact h
  · exact fireAll_kept h
  · exact joinNext_kept h hmore

theorem execExchange_kept {g : CoreId} {ch : Chan} (h : Kept κ s) : KeptNext κ (execExchange g ch s) :=
  collective_kept h routes_kept

theorem execCombine_kept {g : CoreId} {ch : Chan} {order : List Nat} (h : Kept κ s) : KeptNext κ (execCombine g ch order s) :=
  collective_kept h id

theorem execReduce_kept {g : CoreId} {ch : Chan} {order : List Nat} (h : Kept κ s) : KeptNext κ (execReduce g ch order s) :=
  collective_kept h id

theorem execTileStart_kept {g : CoreId} {ch : Chan} (h : Kept κ s) : KeptNext κ (execTileStart g ch s) := by
  fun_cases execTileStart
  · exact h
  · exact fireAll_kept h
  · exact Kept.ite (runDesc_kept h) h

theorem memberTile_kept {p : Part} (h : Kept κ s) : Kept κ (s.memberTile p).2 := by
  fun_cases State.memberTile
  · exact exchangeTile_kept h
  · exact returnTile_kept h
  · exact h
  · exact combineTile_kept h
  · exact h
  · exact fetch_kept h

theorem deadRead_kept {g : CoreId} {ch : Chan} {c : EngCmd} (h : Kept κ s) : Kept κ (s.deadRead g ch c) := by
  fun_cases State.deadRead
  next e =>
    have h1 := Kept.of_eq e (memberTile_kept h)
    exact closeColl_kept (partEnd_kept h1)
  · exact h
  · exact h
  next e =>
    have h1 := Kept.of_eq e (tile_kept h)
    exact halt_kept h1
  · exact h
  next e =>
    have h1 := Kept.of_eq_snd e (routes_kept h)
    exact halt_kept (issue_kept h1)
  · exact h
  · exact h

theorem execTargetTimeout_kept {g : CoreId} {q : QueueId} (h : Kept κ s) : KeptNext κ (execTargetTimeout g q s) := by
  fun_cases execTargetTimeout
  · exact abandonWrites_kept h
  · exact h
  · exact h
  · exact deadRead_kept h

theorem breakGroup_kept {map g : Nat} (h : Kept κ s) : Kept κ (s.breakGroup map g) := by
  unfold State.breakGroup
  exact Kept.foldl h (fun _ _ h => Kept.ite (KeptOf.write h) h)

theorem execCollectiveTimeout_kept {g : CoreId} {ch : Chan} (h : Kept κ s) : KeptNext κ (execCollectiveTimeout g ch s) := by
  fun_cases execCollectiveTimeout
  · exact h
  · exact Kept.foldl (closeColl_kept (allEnd_kept h)) (fun _ _ h => breakGroup_kept h)

/-! ### The Finder -/

theorem prefetchPage_kept {q : Requester} {ptr len : Nat} (h : Kept κ s) : Kept κ (s.prefetchPage q ptr len).2 := by
  fun_cases State.prefetchPage
  · exact h
  · exact touchL1_kept h
  · exact h
  · exact askAts_kept h
  · split
    · exact askAts_kept h
    · exact askAts_kept h
  · exact askAts_kept h

theorem bringPage_kept {q : Requester} {ptr len : Nat} (h : Kept κ s) : Kept κ (s.bringPage q ptr len).2 := by
  fun_cases State.bringPage
  · exact h
  next e => exact Kept.of_eq e (resolve_kept h)
  next e _ _ => exact Kept.of_eq e (resolve_kept h)
  next e _ _ =>
    have h1 := Kept.of_eq e (resolve_kept h)
    exact Kept.foldl h1 (fun _ _ h => Kept.ite (dcReady_kept h) h)
  next e => exact Kept.of_eq e (resolve_kept h)

theorem prefetchRange_kept {g : CoreId} {ch : Chan} {level : Nat} (h : Kept κ s) : Kept κ (s.prefetchRange g ch level) := by
  unfold State.prefetchRange
  split
  · exact h
  · dsimp only
    split
    · exact h
    · split
      · exact halt_kept h
      · generalize hrun : runTiles _ _ _ _ = r
        have hr : Kept κ r.2.2 := by
          rw [← hrun]
          refine runTiles_kept h (fun h => ?_)
          split
          · split
            · exact bringPage_kept h
            · exact prefetchPage_kept h
          · exact h
        split
        · exact hr
        · exact descDone_kept hr

theorem execPrefetchLevel0_kept {g : CoreId} {ch : Chan} (h : Kept κ s) : KeptNext κ (execPrefetchLevel0 g ch s) :=
  prefetchRange_kept h

theorem execPrefetchLevel1_kept {g : CoreId} {ch : Chan} (h : Kept κ s) : KeptNext κ (execPrefetchLevel1 g ch s) :=
  prefetchRange_kept h

theorem dropStaging_kept {d : Nat} (h : Kept κ s) : Kept κ (s.dropStaging d) := h

theorem finderSubmit_kept {g layer : Nat} {l : List (Nat × Nat)} (h : Kept κ s) : Kept κ (s.finderSubmit g layer l) := by
  fun_cases State.finderSubmit <;> exact h

theorem finderBegin_kept {d layer : Nat} (h : Kept κ s) : Kept κ (s.finderBegin d layer) := by
  fun_cases State.finderBegin <;> exact h

theorem execPrefetchLevel2_kept {g : CoreId} {ch : Chan} (h : Kept κ s) : KeptNext κ (execPrefetchLevel2 g ch s) := by
  fun_cases execPrefetchLevel2
  · exact h
  · exact h
  · exact halt_kept h
  next e => exact Kept.of_eq_snd e (fetch_kept h)
  next e =>
    have h1 := Kept.of_eq_snd e (fetch_kept h)
    exact halt_kept h1
  next e _ _ _ =>
    have h1 := Kept.of_eq_snd e (fetch_kept h)
    exact descDone_kept (Kept.ite (finderSubmit_kept h1) h1)

theorem execPrefetchLevel3_kept {g : CoreId} {ch : Chan} (h : Kept κ s) : KeptNext κ (execPrefetchLevel3 g ch s) := by
  fun_cases execPrefetchLevel3
  · exact h
  · exact h
  · exact halt_kept h
  · exact descDone_kept (Kept.ite (finderBegin_kept h) h)

theorem execFinderRankTimeout_kept {d : DieId} (h : Kept κ s) : KeptNext κ (execFinderRankTimeout d s) := by
  fun_cases execFinderRankTimeout <;> exact h

theorem execFinderStagingDone_kept {d : DieId} {expert : BitVec 16} (h : Kept κ s) : KeptNext κ (execFinderStagingDone d expert s) := by
  fun_cases execFinderStagingDone <;> exact h

/-! ### Ownership entries and scrub -/

theorem rekey_kept {granule : Nat} {entry : BitVec 32} (hexists : granuleExists granule = true) (h : Kept κ s) :
    Kept κ (s.rekey granule entry) := by
  fun_cases State.rekey
  next hstack _ =>
    rw [Bool.and_eq_true] at hstack
    exact KeptOf.mem h (Memory.loseGranule_wf granule _ (aligned_of_exists hexists hstack.1))
  · exact h

theorem execOwnershipEntryWrite_kept {granule : BitVec 52} {entry : BitVec 32} (h : Kept κ s) :
    KeptNext κ (execOwnershipEntryWrite granule entry s) := by
  fun_cases execOwnershipEntryWrite
  next hexists => exact rekey_kept hexists h
  · exact h

theorem execPatrolScrub_kept {at_ : ScrubAt} {flip : Nat} {newer : Bool} (h : Kept κ s) :
    KeptNext κ (execPatrolScrub at_ flip newer s) := by
  fun_cases execPatrolScrub
  · exact h
  · exact h
  · exact h
  · exact h
  · exact Kept.ite h (KeptOf.poison h)
  · exact Kept.ite h (KeptOf.poison h)
  · exact Kept.ite h (KeptOf.write h)

end

end Sys2Proof.Proofs
end

section
/-! PROOFS. What no command gives up, function by function: translation and coherence (08, 12). -/

namespace Sys2Proof.Proofs

open Sys2Proof Sys2Proof.Machine

section
variable {κ : Watch} {s : State}

/-! ### Translation -/

theorem ringPages_kept {f r base len : Nat} {wr : Bool} (h : Kept κ s) : Kept κ (s.ringPages f r base len wr).2 := by
  unfold State.ringPages
  refine Kept.foldl_snd h (fun _ _ h => ?_)
  split
  · exact h
  · split
    next e => exact Kept.of_eq e (resolve_kept h)
    next e => exact Kept.of_eq e (resolve_kept h)
    next e => exact Kept.of_eq e (resolve_kept h)

theorem pairPages_kept {f r : Nat} (h : Kept κ s) : Kept κ (s.pairPages f r).2 := by
  unfold State.pairPages
  dsimp only
  split
  · split
    · exact h
    · exact ringPages_kept h
  · refine ringPages_kept ?_
    split
    · exact h
    · exact ringPages_kept h

theorem renewRings_kept {f : Nat} (h : Kept κ s) : Kept κ (s.renewRings f) := by
  unfold State.renewRings
  refine Kept.foldl h (fun _ _ h => ?_)
  split
  next e =>
    have h2 := Kept.of_eq e (pairPages_kept h)
    exact h2
  next e =>
    have h2 := Kept.of_eq e (pairPages_kept h)
    exact h2

theorem stopFailed_kept {f : Nat} (h : Kept κ s) : Kept κ (s.stopFailed f) := Kept.foldl h (fun _ _ h => h)

theorem arrive_kept {e : XEntry} {noWrite : Bool} {w : XWait} (h : Kept κ s) : Kept κ (s.arrive e noWrite w) := by
  fun_cases State.arrive
  · exact h
  · exact askAts_kept h
  · exact Kept.ite (countFault_kept h) h

theorem execAtsCompletion_kept {f : FnId} {pasid : Option (BitVec 20)} {va : BitVec 64} {size : PageSize} {hpa : BitVec 64}
    {rd wr u : Bool} (h : Kept κ s) : KeptNext κ (execAtsCompletion f pasid va size hpa rd wr u s) := by
  fun_cases execAtsCompletion
  · exact h
  · exact Kept.foldl (Kept.foldl h (fun _ _ h => Kept.foldl h (fun _ _ h => askAts_kept h))) (fun _ _ h => Kept.ite (askAts_kept h) h)
  · exact Kept.ite (stopFailed_kept (Kept.foldl h (fun _ _ h => Kept.ite (arrive_kept h) h)))
      (Kept.foldl h (fun _ _ h => Kept.ite (arrive_kept h) h))

theorem linesReady_kept {k len : Nat} {write : Bool} (h : Kept κ s) : Kept κ (s.linesReady k len write).2 := by
  unfold State.linesReady
  refine Kept.foldl_snd h (fun _ _ h => ?_)
  split
  · exact dcReady_kept h
  · split
    · exact homeReady_kept h
    · exact h

theorem evictLine_kept {l : Nat} (h : Kept κ s) : Kept κ (s.evictLine l) := by
  fun_cases State.evictLine <;> exact h

theorem hostPut_kept {hpa : Nat} {bs : Bytes} (h : Kept κ s) : Kept κ (s.hostPut hpa bs).2 := by
  fun_cases State.hostPut
  · exact Kept.foldl_snd h (fun _ _ h => by split <;> [exact linesReady_kept h; exact h])
  · exact Kept.foldl_snd h (fun _ _ h => by split <;> [exact linesReady_kept h; exact h])

/-- The state in which the lines are written, where all are ready. -/
theorem hostPut_some_kept {hpa : Nat} {bs : Bytes} {u : State} (e : s.hostPut hpa bs = (some t, u)) (h : Kept κ s) : Kept κ t := by
  have hu := Kept.of_eq e (hostPut_kept h)
  unfold State.hostPut at e
  extract_lets ls mayWrite r at e
  split at e
  · obtain ⟨ht, rfl⟩ := Prod.mk.inj e
    rw [← Option.some.inj ht]
    refine Kept.foldl hu (fun _ _ h => Kept.ite h ?_)
    exact Kept.ite (evictLine_kept (storeLine_kept h)) (storeLine_kept h)
  · simp at e

theorem recordFault_kept {w : XWait} {prg : Nat} {stalled : Bool} (h : Kept κ s) : Kept κ (s.recordFault w prg stalled).2 := by
  fun_cases State.recordFault
  · exact h
  · exact h
  · exact askAts_kept h
  · exact h
  next e => exact Kept.of_eq e (hostPut_kept h)
  next e => exact Kept.of_eq e (hostPut_kept h)
  · exact askAts_kept h

/-- The state in which the record is written, where it is. -/
theorem recordFault_some_kept {w : XWait} {prg : Nat} {stalled : Bool} {u : State} (e : s.recordFault w prg stalled = (some t, u))
    (h : Kept κ s) : Kept κ t := by
  have hfst {r : Option State × State} (he : r = (some t, u)) : r.1 = some t := congrArg Prod.fst he
  replace e := hfst e
  revert e
  fun_cases State.recordFault <;> intro e
  · exact Option.some.inj e ▸ h
  · exact Option.some.inj e ▸ h
  · simp at e
  · exact Option.some.inj e ▸ h
  next hput => exact Option.some.inj e ▸ (hostPut_some_kept hput h :)
  · simp at e
  · simp at e

theorem execPageRequest_kept {w : Waiter} {va : BitVec 64} {prg : BitVec 9} (h : Kept κ s) :
    KeptNext κ (execPageRequest w va prg s) := by
  fun_cases execPageRequest
  · exact h
  · exact h
  · split <;> exact h
  · exact h
  · exact h
  · exact h
  next e => exact Kept.of_eq e (recordFault_kept h)
  next e _ =>
    have h1 := recordFault_some_kept e h
    exact h1
  · exact h
  · exact h
  next e => exact Kept.of_eq e (recordFault_kept h)
  next e _ _ =>
    have h1 := recordFault_some_kept e h
    exact h1

theorem pageSuccess_kept {r : PageReq} (h : Kept κ s) : Kept κ (s.pageSuccess r) :=
  Kept.foldl h (fun _ _ h => Kept.ite (askAts_kept h) h)

theorem execPageRequestResponse_kept {f : FnId} {prg : BitVec 9} {code : PrgCode} (h : Kept κ s) :
    KeptNext κ (execPageRequestResponse f prg code s) := by
  fun_cases execPageRequestResponse
  · exact h
  · exact xltEvent_kept h
  · exact pageSuccess_kept h
  · exact h
  · exact xltEvent_kept h

theorem execPageRequestOverdue_kept {f : FnId} {prg : BitVec 9} (h : Kept κ s) : KeptNext κ (execPageRequestOverdue f prg s) := by
  fun_cases execPageRequestOverdue
  · exact h
  · exact xltEvent_kept h

theorem execInvalidationRequest_kept {f : FnId} {pasid : Option (BitVec 20)} {itag : BitVec 5} (h : Kept κ s) :
    KeptNext κ (execInvalidationRequest f pasid itag s) := by
  fun_cases execInvalidationRequest
  · exact h
  · exact Kept.ite (renewRings_kept h) h
  · exact Kept.ite (renewRings_kept h) h

theorem execInvalidationCompletion_kept {f : FnId} {itag : BitVec 5} (h : Kept κ s) :
    KeptNext κ (execInvalidationCompletion f itag s) := by
  fun_cases execInvalidationCompletion <;> exact h

/-! ### Coherence -/

theorem hostData_kept {line : Nat} (h : Kept κ s) : Kept κ (s.hostData line) := by
  fun_cases State.hostData <;> exact h

theorem grantHost_kept {line : Nat} {want : HostWant} {data : Option Bytes} {keep : List Nat} (h : Kept κ s) :
    Kept κ (s.grantHost line want data keep) := by
  unfold State.grantHost
  extract_lets given sent
  have hgiven : Kept κ given := by
    dsimp only [given]
    split
    · exact KeptOf.store h
    · exact hostData_kept h
  have hsent : Kept κ sent := Kept.ite hgiven hgiven
  split <;> exact hsent

theorem begin_kept {line : Nat} {e : DirEntry} {req : DirReq} {inval : Bool} (h : Kept κ s) : Kept κ (s.begin line e req inval) := by
  fun_cases State.begin <;> exact h

theorem evict_kept {v : Nat × DirEntry} {req : DirReq} (h : Kept κ s) : Kept κ (s.evict v req) := by
  fun_cases State.evict
  · exact h
  · exact begin_kept h

theorem hostReq_kept {line : Nat} {want : HostWant} {data : Option Bytes} (h : Kept κ s) : Kept κ (s.hostReq line want data).2 := by
  fun_cases State.hostReq
  · exact KeptOf.store h
  · exact h
  · exact grantHost_kept h
  · exact hostData_kept h
  · exact begin_kept h
  · exact Kept.ite (hostData_kept h) (grantHost_kept h)
  · exact grantHost_kept h
  · exact h
  · exact grantHost_kept h
  · exact grantHost_kept h
  · exact h
  · exact h
  · exact grantHost_kept (evict_kept h)
  · exact evict_kept h

theorem serveHost_kept {n line : Nat} (h : Kept κ s) : Kept κ (State.serveHost n s line) := by
  induction n generalizing s with
  | zero => exact h
  | succ n ih =>
    unfold State.serveHost
    dsimp only
    split
    · exact h
    · split
      · exact h
      next e => exact ih (Kept.of_eq e (hostReq_kept h))

theorem settled_kept {line : Nat} (h : Kept κ s) : Kept κ (s.settled line) := Kept.foldl h (fun _ _ h => serveHost_kept h)

theorem putM_kept {n l : Nat} (h : Kept κ s) : Kept κ (s.putM n l) := by
  fun_cases State.putM
  · exact settled_kept h
  · exact h
  · exact h

theorem cacheFill_kept {a line : Nat} {m : Bool} (h : Kept κ s) : Kept κ (s.cacheFill a line m) := by
  unfold State.cacheFill
  split
  · exact putM_kept h
  · exact h
  · exact h

theorem grantAgent_kept {a line : Nat} {excl : Bool} {keep : List Nat} (h : Kept κ s) : Kept κ (s.grantAgent a line excl keep) := by
  unfold State.grantAgent
  extract_lets entered filled
  have hfilled : Kept κ filled := cacheFill_kept h
  exact hfilled

theorem agentReq_kept {a line : Nat} {excl : Bool} (h : Kept κ s) : Kept κ (s.agentReq a line excl) := by
  fun_cases State.agentReq
  · exact Kept.ite (refuseReq_kept h) (refuseReq_kept h)
  · exact Kept.ite (refuseReq_kept h) (refuseReq_kept h)
  · exact grantAgent_kept h
  · exact Kept.ite h h
  · exact begin_kept (Kept.ite h h)
  · exact grantAgent_kept h
  · exact Kept.ite (refuseReq_kept h) (refuseReq_kept h)
  · exact Kept.ite h h
  · exact grantAgent_kept (evict_kept (Kept.ite h h))
  · exact evict_kept (Kept.ite h h)

theorem completeReq_kept {line : Nat} {e : DirEntry} {req : DirReq} {keep : List Nat} (h : Kept κ s) :
    Kept κ (s.completeReq line e req keep) := by
  fun_cases State.completeReq
  · exact settled_kept (grantAgent_kept h)
  · exact settled_kept (grantHost_kept h)
  · exact settled_kept h
  · exact agentReq_kept (settled_kept h)
  · exact settled_kept (settled_kept h)

theorem progress_kept {line : Nat} {e : DirEntry} {t : DirTrans} {keep : List Nat} (h : Kept κ s) :
    Kept κ (s.progress line e t keep) := by
  fun_cases State.progress
  · exact completeReq_kept h
  · exact h

theorem execGets_kept {a : AgentId} {line : BitVec 52} (h : Kept κ s) : KeptNext κ (execGets a line s) := by
  fun_cases execGets
  · exact agentReq_kept h
  · exact h

theorem execGetm_kept {a : AgentId} {line : BitVec 52} (h : Kept κ s) : KeptNext κ (execGetm a line s) := by
  fun_cases execGetm
  · exact agentReq_kept h
  · exact h

theorem execPutm_kept {a : AgentId} {line : BitVec 52} (h : Kept κ s) : KeptNext κ (execPutm a line s) := by
  fun_cases execPutm
  · exact putM_kept h
  · exact h

theorem surrender_kept {o line : Nat} {stay : Bool} (h : Kept κ s) : Kept κ (s.surrender o line stay) := by
  fun_cases State.surrender
  · exact Kept.ite h h
  · exact Kept.ite h h

theorem execForward_kept {line : BitVec 52} (h : Kept κ s) : KeptNext κ (execForward line s) := by
  fun_cases execForward
  · exact h
  · exact h
  · exact progress_kept (surrender_kept h)
  · exact h

theorem execInvalidate_kept {grp : GroupId} {line : BitVec 52} (h : Kept κ s) : KeptNext κ (execInvalidate grp line s) := by
  fun_cases execInvalidate
  · exact h
  · exact Kept.foldl h (fun _ _ h => surrender_kept h)
  · exact h

theorem execInvalidateAck_kept {grp : GroupId} {line : BitVec 52} (h : Kept κ s) : KeptNext κ (execInvalidateAck grp line s) := by
  fun_cases execInvalidateAck
  · exact h
  · exact h
  · exact progress_kept h
  · exact h

theorem execNackRetry_kept {stream : StreamId} {line : BitVec 52} (h : Kept κ s) : KeptNext κ (execNackRetry stream line s) := by
  fun_cases execNackRetry
  · exact h
  · exact agentReq_kept h
  · exact Kept.ite (refuseReq_kept h) h
  · exact h

theorem killAgent_kept {a : Nat} (h : Kept κ s) : Kept κ (s.killAgent a) := by
  fun_cases State.killAgent
  · exact h
  · exact Kept.foldl h (fun _ _ h => KeptOf.poisonLine h)
  · exact Kept.foldl h (fun _ _ h => KeptOf.poisonLine h)

theorem execHomeWaitTimeout_kept {line : BitVec 52} (h : Kept κ s) : KeptNext κ (execHomeWaitTimeout line s) := by
  unfold execHomeWaitTimeout
  extract_lets l
  split
  · exact h
  · split
    · exact h
    · extract_lets hostM lost src snooped poisoned owned asked
      have hsnooped : Kept κ snooped := by
        have hlost : Kept κ lost := Kept.ite (KeptOf.poisonLine h) h
        exact Kept.ite hlost h
      have howned : Kept κ owned := by
        dsimp only [owned]
        split
        · exact Kept.ite (killAgent_kept (KeptOf.poisonLine hsnooped)) hsnooped
        · exact hsnooped
      have hasked : Kept κ asked := by
        refine Kept.foldl howned (fun _ _ h => ?_)
        split
        · exact killAgent_kept h
        · exact Kept.foldl h (fun _ _ h => killAgent_kept h)
      exact completeReq_kept hasked

theorem execBisnpResponse_kept {line : BitVec 52} {dirty : Option Bytes} (h : Kept κ s) :
    KeptNext κ (execBisnpResponse line dirty s) := by
  fun_cases execBisnpResponse
  · exact h
  · exact h
  · exact h
  next given _ _ =>
    have hgiven : Kept κ given := by
      dsimp only [given]
      split
      · exact Kept.ite (KeptOf.store h) h
      · exact h
    exact progress_kept hgiven

theorem noHdm_kept {hpa : Nat} {read : Bool} (h : Kept κ s) : Kept κ (s.noHdm hpa read) := Kept.ite h h

theorem execHostCxlMemRead_kept {hpa : BitVec 64} {want : HostWant} (h : Kept κ s) : KeptNext κ (execHostCxlMemRead hpa want s) := by
  fun_cases execHostCxlMemRead
  · exact h
  · exact noHdm_kept h
  · exact h
  · exact h
  · exact h
  · exact hostData_kept h
  next e =>
    have h1 := Kept.of_eq e (hostReq_kept h)
    exact h1
  next e =>
    have h1 := Kept.of_eq e (hostReq_kept h)
    exact h1

theorem execHostCxlMemWrite_kept {hpa : BitVec 64} {data : Bytes} {keep : HostWant} (h : Kept κ s) :
    KeptNext κ (execHostCxlMemWrite hpa data keep s) := by
  fun_cases execHostCxlMemWrite
  · exact h
  · exact noHdm_kept h
  · exact h
  · exact h
  · exact h
  · exact storeLine_kept h
  next e =>
    have h1 := Kept.of_eq e (hostReq_kept h)
    exact h1
  next e =>
    have h1 := Kept.of_eq e (hostReq_kept h)
    exact h1

theorem snoop_kept {hpa : BitVec 64} {cur inval : Bool} (h : Kept κ s) : Kept κ (s.snoop hpa cur inval) := by
  fun_cases State.snoop <;> exact h

theorem execSnpdata_kept {hpa : BitVec 64} (h : Kept κ s) : KeptNext κ (execSnpdata hpa s) := snoop_kept h

theorem execSnpinv_kept {hpa : BitVec 64} (h : Kept κ s) : KeptNext κ (execSnpinv hpa s) := snoop_kept h

theorem execSnpcur_kept {hpa : BitVec 64} (h : Kept κ s) : KeptNext κ (execSnpcur hpa s) := snoop_kept h

theorem dcFill_kept {l : Nat} {st : DcSt} (h : Kept κ s) : Kept κ (s.dcFill l st) := by
  unfold State.dcFill
  split
  · exact evictLine_kept h
  · exact h

theorem hostGave_kept {l : Nat} {data : Bytes} (h : Kept κ s) : Kept κ (s.hostGave l data) := by
  fun_cases State.hostGave
  · exact h
  · exact KeptOf.store h

theorem execHostCacheResponse_kept {hpa : BitVec 64} {excl : Bool} {data : Bytes} (h : Kept κ s) :
    KeptNext κ (execHostCacheResponse hpa excl data s) := by
  fun_cases execHostCacheResponse
  · exact h
  · exact h
  · exact hostGave_kept h
  · exact h
  next filled =>
    have hfilled : Kept κ filled := dcFill_kept (hostGave_kept h)
    exact hfilled

theorem execCacheEnable_kept {on : Bool} (h : Kept κ s) : KeptNext κ (execCacheEnable on s) :=
  cfgAccess_kept h (fun h => Kept.ite h (Kept.ite h h))

theorem execCacheWbi_kept (h : Kept κ s) : KeptNext κ (execCacheWbi s) := cfgAccess_kept h id

theorem emptyCache_kept (h : Kept κ s) : Kept κ (s.emptyCache) := Kept.foldl h (fun _ _ h => evictLine_kept h)

theorem execCacheWbiDone_kept (h : Kept κ s) : KeptNext κ (execCacheWbiDone s) := by
  fun_cases execCacheWbiDone
  · exact h
  · exact emptyCache_kept h

theorem execCohDcCfgWrite_kept {v : BitVec 32} (h : Kept κ s) : KeptNext κ (execCohDcCfgWrite v s) :=
  bar0Write_kept h (fun h => Kept.ite h (Kept.ite h h))

theorem execCohHdmCfgWrite_kept {v : BitVec 32} (h : Kept κ s) : KeptNext κ (execCohHdmCfgWrite v s) :=
  bar0Write_kept h (fun h => Kept.ite h (Kept.ite h h))

theorem remakeCarve_kept {c' : Coh} (h : Kept κ s) : Kept κ (s.remakeCarve c') := KeptOf.zeroCarve (KeptOf.zeroCarve h)

theorem execCarveChangeDone_kept (h : Kept κ s) : KeptNext κ (execCarveChangeDone s) := by
  fun_cases execCarveChangeDone
  · exact h
  · exact remakeCarve_kept h

theorem execDecoderCommit_kept {n : Fin 2} {base size : BitVec 64} {bi : Bool} (h : Kept κ s) :
    KeptNext κ (execDecoderCommit n base size bi s) :=
  bar0Write_kept h id

end

end Sys2Proof.Proofs
end

section
/-! PROOFS. What no command gives up, function by function: rings, the journal and the service of sequences (07, 09, 17). -/

namespace Sys2Proof.Proofs

open Sys2Proof Sys2Proof.Machine

section
variable {κ : Watch} {s : State}

/-! ### The journal -/

theorem spot_kept {who : Waiter} {tag ptr : Nat} {k : Kind} (h : Kept κ s) : Kept κ (s.spot who tag ptr k).2 := by
  fun_cases State.spot
  next e => exact Kept.of_eq e (resolve_kept h)
  next e => exact Kept.of_eq e (resolve_kept h)
  next e => exact Kept.of_eq e (resolve_kept h)
  next e => exact Kept.of_eq e (resolve_kept h)
  · exact h
  · exact h

theorem readPiece_kept {who : Waiter} {tag ptr len : Nat} (h : Kept κ s) : Kept κ (s.readPiece who tag ptr len).2 := by
  fun_cases State.readPiece
  next e =>
    have h1 := Kept.of_eq e (spot_kept h)
    exact h1
  next e =>
    have h1 := Kept.of_eq e (spot_kept h)
    exact h1
  next e _ _ _ e1 =>
    have h1 := Kept.of_eq e (spot_kept h)
    have h2 := Kept.of_eq e1 (askIo_kept h1)
    exact h2
  next e _ _ e1 =>
    have h1 := Kept.of_eq e (spot_kept h)
    have h2 := Kept.of_eq e1 (askIo_kept h1)
    exact h2
  next e _ _ e1 =>
    have h1 := Kept.of_eq e (spot_kept h)
    have h2 := Kept.of_eq e1 (askIo_kept h1)
    exact h2
  next e _ _ =>
    have h1 := Kept.of_eq e (spot_kept h)
    exact h1
  next e _ _ _ =>
    have h1 := Kept.of_eq e (spot_kept h)
    exact h1
  next e _ _ _ _ e1 =>
    have h1 := Kept.of_eq e (spot_kept h)
    have h2 := Kept.of_eq e1 (linesReady_kept h1)
    exact h2
  next e _ _ _ _ e1 _ =>
    have h1 := Kept.of_eq e (spot_kept h)
    have h2 := Kept.of_eq e1 (linesReady_kept h1)
    exact h2
  next e _ _ _ _ e1 _ =>
    have h1 := Kept.of_eq e (spot_kept h)
    have h2 := Kept.of_eq e1 (linesReady_kept h1)
    exact h2

theorem readBuf_kept {who : Waiter} {tag ptr len : Nat} (h : Kept κ s) : Kept κ (s.readBuf who tag ptr len).2 := by
  fun_cases State.readBuf
  · exact h
  · refine Kept.foldl_snd h (fun _ _ h => ?_)
    split
    · exact h
    · exact readPiece_kept h
    · split
      next e => exact Kept.of_eq e (readPiece_kept h)
      next e => exact Kept.of_eq e (readPiece_kept h)

theorem carry_kept {f : Nat} {tag : Option Nat} {w : Planned} (h : Kept κ s) : Kept κ (s.carry f tag w) := by
  fun_cases State.carry
  · exact h
  · exact Kept.foldl h (fun _ _ h => Kept.ite (storeLine_kept h) h)
  · exact Kept.foldl h (fun _ _ h => Kept.ite (storeLine_kept h) h)

theorem planPiece_kept {who : Waiter} {tag ptr : Nat} {bs : Bytes} {direct : Bool} (h : Kept κ s) :
    Kept κ (s.planPiece who tag ptr bs direct).2 := by
  fun_cases State.planPiece
  next e =>
    have h1 := Kept.of_eq e (spot_kept h)
    exact h1
  next e =>
    have h1 := Kept.of_eq e (spot_kept h)
    exact h1
  next e _ =>
    have h1 := Kept.of_eq e (spot_kept h)
    exact h1
  next e _ _ =>
    have h1 := Kept.of_eq e (spot_kept h)
    exact h1
  next e _ _ _ =>
    have h1 := Kept.of_eq e (spot_kept h)
    exact h1
  next e _ _ _ _ e1 =>
    have h1 := Kept.of_eq e (spot_kept h)
    have h2 := Kept.of_eq e1 (linesReady_kept h1)
    exact h2
  next e _ _ _ _ e1 =>
    have h1 := Kept.of_eq e (spot_kept h)
    have h2 := Kept.of_eq e1 (linesReady_kept h1)
    exact h2

theorem planBuf_kept {who : Waiter} {tag ptr : Nat} {bs : Bytes} {direct : Bool} (h : Kept κ s) :
    Kept κ (s.planBuf who tag ptr bs direct).2 := by
  fun_cases State.planBuf
  · exact h
  · refine Kept.foldl_snd h (fun _ _ h => ?_)
    split
    · exact h
    · exact planPiece_kept h
    · split
      next e => exact Kept.of_eq e (planPiece_kept h)
      next e => exact Kept.of_eq e (planPiece_kept h)
      next e => exact Kept.of_eq e (planPiece_kept h)

theorem carryAll_kept {f : Nat} {tag : Option Nat} {l : List Planned} (h : Kept κ s) : Kept κ (s.carryAll f tag l) :=
  Kept.foldl h (fun _ _ h => carry_kept h)

theorem produce_kept {f r : Nat} {c : Completion} (h : Kept κ s) : Kept κ (s.produce f r c) := by
  fun_cases State.produce <;> exact h

theorem dropWaits_kept {w : Waiter} (h : Kept κ s) : Kept κ (s.dropWaits w) := h

theorem release_kept {tag f r : Nat} {c : Option Completion} {ws : List Planned} {mirrored : Bool} (h : Kept κ s) :
    Kept κ (s.release tag f r c ws mirrored) := by
  fun_cases State.release
  · exact h
  · exact h
  · exact produce_kept (carryAll_kept h)
  · exact carryAll_kept h

theorem releaseHolds_kept {n : Nat} (h : Kept κ s) : Kept κ (State.releaseHolds n s) := by
  induction n generalizing s with
  | zero => exact h
  | succ n ih =>
    unfold State.releaseHolds
    split
    · exact h
    · split
      · exact h
      next rest _ _ =>
        refine ih ?_
        have h1 : Kept κ { s with mir := { s.mir with holds := rest } } := h
        split
        · exact produce_kept (Kept.ite h1 (carryAll_kept h1))
        · exact Kept.ite h1 (carryAll_kept h1)

theorem finishWith_kept {f r : Nat} {q : BitVec 16} {status : Nat} {res : Bytes} {ws : List Planned} {mirrored : Bool} (h : Kept κ s) :
    Kept κ (s.finishWith f r q status res ws mirrored) := by
  fun_cases State.finishWith
  · exact h
  · exact release_kept h

theorem finish_kept {f r : Nat} {q : BitVec 16} {status : Nat} {res : Bytes} (h : Kept κ s) : Kept κ (s.finish f r q status res) :=
  finishWith_kept h

theorem finishMirrored_kept {f r : Nat} {q : BitVec 16} {status : Nat} {res : Bytes} {ws : List Planned} (h : Kept κ s) :
    Kept κ (s.finishMirrored f r q status res ws) := by
  fun_cases State.finishMirrored
  · exact h
  · exact finishWith_kept (journal_kept h)
  · exact finishWith_kept h

theorem packet_kept {f : FnId} {r : RingId} {q : PktSeq} {op : Nat} {sel : Pkt → Bool} {k : Pkt → State → State} (h : Kept κ s)
    (hk : ∀ {x s}, Kept κ s → Kept κ (k x s)) : KeptNext κ (s.packet f r q op sel k) := by
  fun_cases State.packet
  · exact h
  · exact h
  · exact finish_kept (Kept.ite h h)
  · exact hk (Kept.ite h h)

/-! ### Rings -/

theorem tdiError_kept {f : Nat} (h : Kept κ s) : Kept κ (s.tdiError f) := by
  fun_cases State.tdiError <;> exact h

theorem tdiRingWrite_kept {f r : Nat} (h : Kept κ s) : Kept κ (s.tdiRingWrite f r) := by
  fun_cases State.tdiRingWrite
  · exact h
  · exact tdiError_kept h

theorem execSqDoorbell_kept {f : FnId} {r : RingId} {v : BitVec 64} (h : Kept κ s) : KeptNext κ (execSqDoorbell f r v s) :=
  barAccess_kept h (fun h => Kept.ite h h)

theorem execCqDoorbell_kept {f : FnId} {r : RingId} {v : BitVec 64} (h : Kept κ s) : KeptNext κ (execCqDoorbell f r v s) :=
  barAccess_kept h id

theorem execRingEnable_kept {f : FnId} {r : RingId} (h : Kept κ s) : KeptNext κ (execRingEnable f r s) := by
  unfold execRingEnable
  dsimp only
  refine barAccess_kept h (fun h => Kept.ite (tdiRingWrite_kept h) (Kept.ite h ?_))
  split
  next e =>
    have h2 := Kept.of_eq e (pairPages_kept h)
    exact h2
  next e =>
    have h2 := Kept.of_eq e (pairPages_kept h)
    exact h2
  next e =>
    have h2 := Kept.of_eq e (pairPages_kept h)
    exact h2

theorem cancelProg_kept {p : Program} (h : Kept κ s) : Kept κ (s.cancelProg p) := by
  fun_cases State.cancelProg
  · exact endProgram_kept h
  · exact finish_kept h
  · exact h

theorem drainPkt_kept {f r : Nat} {p : Pkt} (h : Kept κ s) : Kept κ (s.drainPkt f r p) := by
  fun_cases State.drainPkt
  · exact h
  · exact h
  · exact cancelProg_kept h
  · exact h
  · exact finish_kept h

theorem drainRing_kept {f r : Nat} (h : Kept κ s) : Kept κ (s.drainRing f r) := by
  fun_cases State.drainRing
  · exact h
  · exact h
  · exact Kept.foldl h (fun _ _ h => drainPkt_kept h)

theorem execRingDisable_kept {f : FnId} {r : RingId} (h : Kept κ s) : KeptNext κ (execRingDisable f r s) :=
  barAccess_kept h (fun h => drainRing_kept (tdiRingWrite_kept h))

theorem execRingDrainDone_kept {f : FnId} {r : RingId} (h : Kept κ s) : KeptNext κ (execRingDrainDone f r s) := by
  fun_cases execRingDrainDone <;> exact h

theorem execResume_kept {f : FnId} {r : RingId} (h : Kept κ s) : KeptNext κ (execResume f r s) :=
  barAccess_kept h (fun h => Kept.ite (tdiRingWrite_kept h) (tdiRingWrite_kept h))

theorem currLine_kept {ring line : Nat} (h : Kept κ s) : Kept κ (s.currLine ring line).2 := by
  fun_cases State.currLine <;> exact h

theorem slotBytes_kept {f r i : Nat} (h : Kept κ s) : Kept κ (s.slotBytes f r i).2 := by
  unfold State.slotBytes
  extract_lets +onlyGivenNames x off fetch
  have hfetch {s : State} {k : Nat} (h : Kept κ s) : Kept κ (fetch s k).2 := by
    dsimp only [fetch]
    split
    · exact h
    · split
      · exact h
      · generalize hready : (if isHostKey k then s.currLine (64 * f + r) (k - 2 ^ 64) else s.linesReady k 64 false) = a
        have ha : Kept κ a.2 := by
          rw [← hready]
          split
          · exact currLine_kept h
          · exact linesReady_kept h
        split <;> exact ha
  split
  · exact hfetch h
  · split
    next e => exact Kept.of_eq e (resolve_kept h)
    next e => exact Kept.of_eq e (resolve_kept h)
    next e =>
      have h1 := Kept.of_eq e (resolve_kept h)
      split
      next e => exact Kept.of_eq e (askIo_kept h1)
      next e => exact Kept.of_eq e (askIo_kept h1)
      next e => exact Kept.of_eq e (askIo_kept h1)
    next e => exact hfetch (Kept.of_eq e (resolve_kept h))

theorem slotsBytes_kept {f r i n : Nat} (h : Kept κ s) : Kept κ (s.slotsBytes f r i n).2 := by
  unfold State.slotsBytes
  refine Kept.foldl_snd h (fun _ _ h => ?_)
  split
  · split
    next e => exact Kept.of_eq e (slotBytes_kept h)
    · exact slotBytes_kept h
  · exact h

theorem accept_kept {f r : Nat} {bs : Bytes} (h : Kept κ s) : Kept κ (s.accept f r bs) := by
  fun_cases State.accept
  · exact produce_kept h
  · exact produce_kept (Kept.ite h h)
  · exact drainPkt_kept h
  · exact h

theorem readHead_kept {f r : Nat} {judgePhase : Bool} (h : Kept κ s) : Kept κ (s.readHead f r judgePhase).2 := by
  fun_cases State.readHead
  next e => exact Kept.of_eq e (slotBytes_kept h)
  next e => exact Kept.of_eq e (slotBytes_kept h)
  next e => exact Kept.of_eq e (slotBytes_kept h)
  next e _ => exact Kept.of_eq e (slotBytes_kept h)
  next e _ _ _ => exact Kept.of_eq e (slotBytes_kept h)
  next e _ _ _ _ e1 =>
    have h1 := Kept.of_eq e (slotBytes_kept h)
    exact Kept.of_eq e1 (slotsBytes_kept h1)
  next e _ _ _ _ e1 =>
    have h1 := Kept.of_eq e (slotBytes_kept h)
    exact Kept.of_eq e1 (slotsBytes_kept h1)
  next e _ _ _ _ e1 =>
    have h1 := Kept.of_eq e (slotBytes_kept h)
    exact Kept.of_eq e1 (slotsBytes_kept h1)
  next e _ _ _ _ _ e1 =>
    have h1 := Kept.of_eq e (slotBytes_kept h)
    exact Kept.of_eq e1 (slotsBytes_kept h1)

theorem execPacketRead_kept {f : FnId} {r : RingId} (h : Kept κ s) : KeptNext κ (execPacketRead f r s) := by
  fun_cases execPacketRead
  · exact h
  next e =>
    have h1 := Kept.of_eq e (readHead_kept h)
    exact h1
  next e =>
    have h1 := Kept.of_eq e (readHead_kept h)
    exact h1
  next e =>
    have h1 := Kept.of_eq e (readHead_kept h)
    exact h1
  next e =>
    have h1 := Kept.of_eq e (readHead_kept h)
    exact h1
  next e =>
    have h1 := Kept.of_eq e (readHead_kept h)
    exact accept_kept h1

theorem execPhaseReread_kept {f : FnId} {r : RingId} (h : Kept κ s) : KeptNext κ (execPhaseReread f r s) := by
  fun_cases execPhaseReread
  · exact h
  next e =>
    have h1 := Kept.of_eq e (readHead_kept h)
    exact h1
  next e =>
    have h1 := Kept.of_eq e (readHead_kept h)
    exact h1
  next e _ _ =>
    have h1 := Kept.of_eq e (readHead_kept h)
    exact h1
  next e _ _ =>
    have h1 := Kept.of_eq e (readHead_kept h)
    exact h1
  next e =>
    have h1 := Kept.of_eq e (readHead_kept h)
    exact h1
  next e =>
    have h1 := Kept.of_eq e (readHead_kept h)
    exact accept_kept h1
  · exact h

theorem execTornReread_kept {f : FnId} {r : RingId} (h : Kept κ s) : KeptNext κ (execTornReread f r s) := by
  fun_cases execTornReread
  · exact h
  next e =>
    have h1 := Kept.of_eq e (readHead_kept h)
    exact h1
  next e =>
    have h1 := Kept.of_eq e (readHead_kept h)
    exact h1
  next e =>
    have h1 := Kept.of_eq e (readHead_kept h)
    exact h1
  next e _ _ _ =>
    have h1 := Kept.of_eq e (readHead_kept h)
    exact produce_kept h1
  next e _ _ =>
    have h1 := Kept.of_eq e (readHead_kept h)
    exact h1
  next e =>
    have h1 := Kept.of_eq e (readHead_kept h)
    exact accept_kept h1
  · exact h

theorem execCompletionWrite_kept {f : FnId} {r : RingId} {cycles : Nat} (h : Kept κ s) :
    KeptNext κ (execCompletionWrite f r cycles s) := by
  unfold execCompletionWrite
  extract_lets +onlyGivenNames x
  split
  · exact h
  · split
    · exact h
    · extract_lets off bs n put
      have hput {s : State} {w : Planned} (h : Kept κ s) : Kept κ (put s w) := by
        dsimp only [put]
        refine Kept.ite ?_ (Kept.ite (hostInt_kept ?_) (msix_kept ?_)) <;> exact setRing_kept (dropWaits_kept (carry_kept h))
      split
      · split
        next e => exact Kept.of_eq e (linesReady_kept h)
        next e => exact hput (Kept.of_eq e (linesReady_kept h))
      · split
        next e => exact Kept.of_eq e (resolve_kept h)
        next e =>
          have h1 := Kept.of_eq e (resolve_kept h)
          exact h1
        next e => exact hput (Kept.of_eq e (resolve_kept h))
        next e => exact hput (Kept.of_eq e (resolve_kept h))

theorem execMsixUnmask_kept {f : FnId} {v : Option Nat} (h : Kept κ s) : KeptNext κ (execMsixUnmask f v s) := flushMsix_kept h

/-! ### Sealed keys -/

theorem readList_kept {who : Waiter} {tag ptr len : Nat} {k : Option SessionKey} {kind : Nat} {seqId : Bytes} {first : Nat}
    (h : Kept κ s) : Kept κ (s.readList who tag ptr len k kind seqId first).2 := by
  fun_cases State.readList
  next e => exact Kept.of_eq e (readBuf_kept h)
  next e => exact Kept.of_eq e (readBuf_kept h)
  next e => exact Kept.of_eq e (readBuf_kept h)
  next e _ _ _ => exact Kept.of_eq e (readBuf_kept h)
  next e _ => exact Kept.of_eq e (readBuf_kept h)
  next e => exact Kept.of_eq e (readBuf_kept h)
  next e => exact Kept.of_eq e (readBuf_kept h)

/-! ### Sequences -/

theorem putSeq_kept {slot : Nat} {x : Sequence} (h : Kept κ s) : Kept κ (s.putSeq slot x) := h

theorem tick_kept (h : Kept κ s) : Kept κ s.tick.2 := h

theorem sendLtr_kept (h : Kept κ s) : Kept κ (s.sendLtr) := by
  fun_cases State.sendLtr <;> exact h

theorem ltr_kept (h : Kept κ s) : Kept κ (s.ltr) := by
  fun_cases State.ltr
  · exact h
  · exact sendLtr_kept h

theorem wipe_kept {a len : Nat} (h : Kept κ s) : Kept κ (s.wipe a len) := KeptOf.zero h

theorem handOver_kept {g : Nat} {entry : BitVec 32} (h : Kept κ s) : Kept κ (s.handOver g entry) := wipe_kept h

theorem freePages_kept {slot : Nat} (h : Kept κ s) : Kept κ (s.freePages slot) := by
  fun_cases State.freePages <;> exact h

theorem takePlace_kept {tag home : Nat} {avail : List Nat} {len : Nat} {res : Nat × List Nat × State}
    (e : s.takePlace tag home avail len = some res) (h : Kept κ s) : Kept κ res.2.2 := by
  unfold State.takePlace at e
  dsimp only at e
  split at e
  · simp at e
  · obtain ⟨a, -, rfl⟩ := Option.map_eq_some_iff.mp e
    exact Kept.with_srv (Kept.foldl h (fun _ _ h => Kept.ite h (handOver_kept h)))

theorem dropKvGranules_kept {tag : Nat} (h : Kept κ s) : Kept κ (s.dropKvGranules tag) :=
  Kept.foldl h (fun _ _ h => handOver_kept h)

theorem putTables_kept {slot : Nat} (h : Kept κ s) : Kept κ (s.putTables slot) := by
  unfold State.putTables
  split
  · exact h
  · refine Kept.foldl h (fun _ _ h => ?_)
    split
    · exact Kept.foldl h (fun _ _ h => by dsimp only; exact Kept.ite h (fwWrite_kept h))
    · exact h

theorem putAllTables_kept (h : Kept κ s) : Kept κ (s.putAllTables) := Kept.foldl h (fun _ _ h => putTables_kept h)

theorem givePlace_kept {slot : Nat} {draft : Bool} {kind : PlaceKind} {avail : List Nat} {res : List Nat × State}
    (he : s.givePlace slot draft kind avail = some res) (h : Kept κ s) : Kept κ res.2 := by
  unfold State.givePlace at he
  split at he
  · obtain ⟨a, ea, rfl⟩ := Option.map_eq_some_iff.mp he
    have htook := takePlace_kept ea h
    exact putTables_kept (putSeq_kept (Kept.ite (wipe_kept htook) htook))
  · cases he

theorem copyBytes_kept {src dst len : Nat} (h : Kept κ s) : Kept κ (s.copyBytes src dst len) :=
  Kept.foldl h (fun _ _ h => storeLine_kept h)

theorem promoteDie_kept {d : Nat} (h : Kept κ s) : Kept κ (s.promoteDie d) :=
  Kept.with_srv (Kept.foldl h (fun _ _ h => copyBytes_kept h))

theorem promotePages_kept (h : Kept κ s) : Kept κ (s.promotePages) := by
  fun_cases State.promotePages
  · exact h
  · exact putAllTables_kept (Kept.foldl h (fun _ _ h => promoteDie_kept h))

theorem demoteDie_kept {d : Nat} (h : Kept κ s) : Kept κ (s.demoteDie d) := putAllTables_kept h

theorem journalSeq_kept {slot : Nat} {share : Option (BitVec 15 × Nat)} (h : Kept κ s) : Kept κ (s.journalSeq slot share) := by
  fun_cases State.journalSeq
  · exact h
  · exact journal_kept (journal_kept h)

theorem journalPages_kept {i : Image} {slot : Nat} {x : Sequence} {skip : Nat} (h : Kept κ s) :
    Kept κ (s.journalPages i slot x skip) := by
  fun_cases State.journalPages
  · exact Kept.foldl h (fun _ _ h => journal_kept h)
  · exact h

theorem endGen_kept {slot reason : Nat} (h : Kept κ s) : Kept κ (s.endGen slot reason) := by
  fun_cases State.endGen
  · exact h
  · exact h
  · exact finishWith_kept h

theorem failSeq_kept {slot reason : Nat} (h : Kept κ s) : Kept κ (s.failSeq slot reason) := by
  fun_cases State.failSeq
  · exact h
  · exact ltr_kept (journalSeq_kept (endGen_kept h))

theorem evictSeq_kept {slot : Nat} (h : Kept κ s) : Kept κ (s.evictSeq slot) := by
  fun_cases State.evictSeq
  · exact h
  · exact journalSeq_kept (freePages_kept h)

theorem useSession_kept {hdr : Option Nat} {k : Option SessionKey} (h : Kept κ s) : Kept κ (s.useSession hdr k) := by
  fun_cases State.useSession
  · exact journal_kept h
  · exact h

theorem seedKey_kept {p : Bytes} {seqId : BitVec 64} {k : Option SessionKey} (h : Kept κ s) : Kept κ (s.seedKey p seqId k).2.2 := by
  fun_cases State.seedKey <;> exact h

theorem readLists_kept {who : Waiter} {tag : Nat} {p : Bytes} {k : Option SessionKey} {seqId : BitVec 64} {vocab : Nat} (h : Kept κ s) :
    Kept κ (s.readLists who tag p k seqId vocab).2 := by
  fun_cases State.readLists
  next e => exact Kept.of_eq e (Kept.ite_snd (readList_kept h) h)
  next e => exact Kept.of_eq e (Kept.ite_snd (readList_kept h) h)
  next e _ _ _ e1 =>
    have h1 := Kept.of_eq e (Kept.ite_snd (readList_kept h) h)
    exact Kept.of_eq e1 (Kept.ite_snd h1 (readList_kept h1))
  next e _ _ _ _ e1 =>
    have h1 := Kept.of_eq e (Kept.ite_snd (readList_kept h) h)
    exact Kept.of_eq e1 (Kept.ite_snd h1 (readList_kept h1))
  next e _ _ _ _ _ e1 _ _ =>
    have h1 := Kept.of_eq e (Kept.ite_snd (readList_kept h) h)
    exact Kept.of_eq e1 (Kept.ite_snd h1 (readList_kept h1))
  next e _ _ _ _ _ e1 _ =>
    have h1 := Kept.of_eq e (Kept.ite_snd (readList_kept h) h)
    exact Kept.of_eq e1 (Kept.ite_snd h1 (readList_kept h1))

theorem openSeq_kept {slot : Nat} {x : Sequence} (h : Kept κ s) : Kept κ (s.openSeq slot x).2 := h

theorem endCmd_kept {c : Recv} {status : Nat} {res : Bytes} (h : Kept κ s) : Kept κ (s.endCmd c status res).2 :=
  finishMirrored_kept h

theorem applyOpen_kept {c : Recv} {p : Pkt} (h : Kept κ s) : Kept κ (s.applyOpen c p).2 := by
  unfold State.applyOpen
  split
  · exact endCmd_kept h
  · split
    · exact endCmd_kept h
    · split
      · exact endCmd_kept h
      · extract_lets +onlyGivenNames par seqId sess k
        split
        · exact endCmd_kept h
        · split
          · exact endCmd_kept h
          · split
            next e => exact Kept.of_eq e (readLists_kept h)
            next e => exact endCmd_kept (Kept.of_eq e (readLists_kept h))
            next e =>
              have hread := Kept.of_eq e (readLists_kept h)
              exact endCmd_kept (journalSeq_kept (openSeq_kept (seedKey_kept (useSession_kept hread))))

theorem applyAppend_kept {c : Recv} {p : Pkt} (h : Kept κ s) : Kept κ (s.applyAppend c p).2 := by
  fun_cases State.applyAppend
  · exact endCmd_kept h
  · exact endCmd_kept h
  next e => exact Kept.of_eq e (readList_kept h)
  next e =>
    have h1 := Kept.of_eq e (readList_kept h)
    exact endCmd_kept h1
  next e _ _ =>
    have h1 := Kept.of_eq e (readList_kept h)
    exact endCmd_kept h1
  next e _ _ _ =>
    have h1 := Kept.of_eq e (readList_kept h)
    exact endCmd_kept h1
  next e _ _ _ _ _ _ =>
    have h1 := Kept.of_eq e (readList_kept h)
    exact endCmd_kept (ltr_kept (journalSeq_kept (useSession_kept h1)))
  · exact endCmd_kept h

theorem applyGenerate_kept {c : Recv} {p : Pkt} (h : Kept κ s) : Kept κ (s.applyGenerate c p).2 := by
  fun_cases State.applyGenerate
  · exact endCmd_kept h
  · exact endCmd_kept h
  · exact endCmd_kept h
  next e => exact Kept.of_eq e (Kept.ite_snd (readLists_kept h) h)
  next e => exact endCmd_kept (Kept.of_eq e (Kept.ite_snd (readLists_kept h) h))
  next e used _ _ _ _ _ _ =>
    have hused : Kept κ used := useSession_kept (Kept.of_eq e (Kept.ite_snd (readLists_kept h) h))
    exact endCmd_kept (journalSeq_kept (putSeq_kept (tick_kept (Kept.ite_snd_snd (seedKey_kept hused) hused))))
  next e used _ _ _ _ _ _ _ _ _ =>
    have hused : Kept κ used := useSession_kept (Kept.of_eq e (Kept.ite_snd (readLists_kept h) h))
    exact ltr_kept (journal_kept (journalSeq_kept (setRing_kept (putSeq_kept (tick_kept (Kept.ite_snd_snd (seedKey_kept hused) hused))))))
  · exact endCmd_kept h

theorem cancelSeq_kept {slot : Nat} (h : Kept κ s) : Kept κ (s.cancelSeq slot) := by
  fun_cases State.cancelSeq
  · exact h
  · exact ltr_kept (journalSeq_kept (endGen_kept h))

theorem freeSeq_kept {slot : Nat} (h : Kept κ s) : Kept κ (s.freeSeq slot) := by
  fun_cases State.freeSeq
  · exact h
  · exact ltr_kept (journal_kept (freePages_kept h))

theorem closeSeq_kept {slot : Nat} (h : Kept κ s) : Kept κ (s.closeSeq slot) := by
  fun_cases State.closeSeq
  · exact freePages_kept (cancelSeq_kept h)
  · exact freePages_kept (cancelSeq_kept h)

theorem freeClosed_kept (h : Kept κ s) : Kept κ (s.freeClosed) := Kept.foldl h (fun _ _ h => freeSeq_kept h)

theorem applyCancel_kept {c : Recv} {p : Pkt} (h : Kept κ s) : Kept κ (s.applyCancel c p).2 := by
  fun_cases State.applyCancel
  · exact endCmd_kept h
  · exact endCmd_kept (cancelSeq_kept h)
  · exact endCmd_kept h

theorem applyClose_kept {c : Recv} {p : Pkt} (h : Kept κ s) : Kept κ (s.applyClose c p).2 := by
  fun_cases State.applyClose
  · exact endCmd_kept h
  · exact endCmd_kept (closeSeq_kept h)
  · exact endCmd_kept h

theorem forkKv_kept {x : Sequence} {draft : Bool} {avail : List Nat} {res : KvPlaces × List Nat × State}
    (e : s.forkKv x draft avail = some res) (h : Kept κ s) : Kept κ res.2.2 := by
  unfold State.forkKv at e
  extract_lets +onlyGivenNames k whole at e
  split at e
  · obtain rfl := Option.some.inj e
    exact h
  · extract_lets +onlyGivenNames copy at e
    have hcopy {kind : PlaceKind} {src : Option Nat} {a res : KvPlaces × List Nat × State} (e : copy kind src a = some res)
        (h : Kept κ a.2.2) : Kept κ res.2.2 := by
      dsimp only [copy] at e
      split at e
      · obtain rfl := Option.some.inj e
        exact h
      · obtain ⟨t, ht, rfl⟩ := Option.map_eq_some_iff.mp e
        have h1 := takePlace_kept ht h
        exact Kept.ite (wipe_kept h1) (copyBytes_kept h1)
    obtain ⟨b, hb, hring⟩ := Option.bind_eq_some_iff.mp e
    obtain ⟨a, ha, hset⟩ := Option.bind_eq_some_iff.mp hb
    have htables := hcopy ha (Kept.with_srv h)
    exact hcopy hring (hcopy hset htables)

theorem applyFork_kept {c : Recv} {p : Pkt} (h : Kept κ s) : Kept κ (s.applyFork c p).2 := by
  fun_cases State.applyFork
  · exact endCmd_kept h
  · exact endCmd_kept h
  · exact endCmd_kept h
  · exact endCmd_kept h
  next s2 e _ _ _ _ =>
    obtain ⟨a, ha, hmap⟩ := Option.bind_eq_some_iff.mp e
    obtain ⟨b, hb, hres⟩ := Option.map_eq_some_iff.mp hmap
    have h2 : Kept κ s2 := by
      cases hres
      exact forkKv_kept hb (forkKv_kept ha h)
    exact endCmd_kept (journalPages_kept (journalSeq_kept (putTables_kept (seedKey_kept h2))))
  · exact endCmd_kept h

theorem applySnapshot_kept {c : Recv} {p : Pkt} (h : Kept κ s) : Kept κ (s.applySnapshot c p).2 := by
  fun_cases State.applySnapshot
  · exact endCmd_kept h
  · exact endCmd_kept h
  next e => exact Kept.of_eq e (planBuf_kept h)
  next e =>
    have h1 := Kept.of_eq e (planBuf_kept h)
    exact endCmd_kept h1
  next e _ =>
    have h1 := Kept.of_eq e (planBuf_kept h)
    exact finishWith_kept h1
  · exact endCmd_kept h

theorem applyRestore_kept {c : Recv} {p : Pkt} (h : Kept κ s) : Kept κ (s.applyRestore c p).2 := by
  have hread {w : Waiter} {tag k n : Nat} {r : BufRead} {t : State} (e : s.readBuf w tag k n = (r, t)) : Kept κ t :=
    Kept.of_eq e (readBuf_kept h)
  fun_cases State.applyRestore
  · exact endCmd_kept h
  · exact endCmd_kept h
  · exact endCmd_kept h
  · exact endCmd_kept h
  · exact hread ‹s.readBuf _ _ _ _ = _›
  · exact endCmd_kept (hread ‹s.readBuf _ _ _ _ = _›)
  · exact endCmd_kept (hread ‹s.readBuf _ _ _ _ = _›)
  · exact endCmd_kept (hread ‹s.readBuf _ _ _ _ = _›)
  · exact endCmd_kept (hread ‹s.readBuf _ _ _ _ = _›)
  · exact endCmd_kept (hread ‹s.readBuf _ _ _ _ = _›)
  · exact endCmd_kept (hread ‹s.readBuf _ _ _ _ = _›)
  next etook ring rg _ ering key x written r =>
    have htook := Kept.foldl_option (κ := κ)
      (fun e => by cases e; exact hread ‹s.readBuf _ _ _ _ = _›)
      (fun ho t e => by
        obtain ⟨a, ea, e⟩ := Option.bind_eq_some_iff.mp e
        obtain ⟨b, eb, rfl⟩ := Option.map_eq_some_iff.mp e
        exact takePlace_kept eb (ho ea)) etook
    have hring {o} (e : ring = some o) : Kept κ o.2 := by
      dsimp only [ring] at e
      split at e
      · obtain ⟨b, eb, rfl⟩ := Option.map_eq_some_iff.mp e
        exact takePlace_kept eb htook
      · cases e
        exact htook
    have hkey : Kept κ key.2.2 := Kept.ite_snd_snd (seedKey_kept (hring ering)) (hring ering)
    have hwritten : Kept κ written :=
      Kept.ite (Kept.foldl hkey (fun _ _ h => Kept.foldl h (fun _ _ h => storeLine_kept h))) hkey
    exact endCmd_kept (journalPages_kept (journalSeq_kept (openSeq_kept hwritten)))

theorem commitSeq_kept {row : BatchRow} {o : StepOut} (h : Kept κ s) : Kept κ (s.commitSeq row o).2 := by
  fun_cases State.commitSeq
  · exact failSeq_kept h
  · exact ltr_kept h
  · exact ltr_kept (journalSeq_kept h)
  · exact h
  next e => exact Kept.of_eq e (planBuf_kept h)
  next e =>
    have h1 := Kept.of_eq e (planBuf_kept h)
    exact failSeq_kept h1
  next e _ _ _ _ _ _ _ _ _ _ _ _ _ _ =>
    have h1 := Kept.of_eq e (planBuf_kept h)
    exact ltr_kept (Kept.ite (Kept.ite (useSession_kept h1) (useSession_kept h1)) (Kept.ite (useSession_kept h1) (useSession_kept h1)))
  · exact h

theorem giveOut_kept {os : List Output} (h : Kept κ s) : Kept κ (s.giveOut os) :=
  Kept.foldl (Kept.foldl h (fun _ _ h => journal_kept h)) (fun _ _ h => release_kept h)

theorem retryLate_kept (h : Kept κ s) : Kept κ (s.retryLate) := by
  unfold State.retryLate
  refine Kept.foldl h (fun _ _ h => ?_)
  split
  · exact h
  · split
    next e => exact Kept.of_eq e (commitSeq_kept h)
    next e =>
      have h2 := Kept.of_eq e (commitSeq_kept h)
      exact giveOut_kept h2

theorem applyCmd_kept {c : Recv} (h : Kept κ s) : Kept κ (s.applyCmd c).2 := by
  fun_cases State.applyCmd
  · exact h
  · exact applyOpen_kept h
  · exact applyAppend_kept h
  · exact applyGenerate_kept h
  · exact applyCancel_kept h
  · exact applyClose_kept h
  · exact applyFork_kept h
  · exact applySnapshot_kept h
  · exact applyRestore_kept h
  · exact h

theorem applyAll_kept {l : List Recv} (h : Kept κ s) : Kept κ (s.applyAll l) :=
  Kept.foldl_snd h (fun _ _ h => Kept.ite_snd h (Kept.ite_snd h (Kept.ite_snd (applyCmd_kept h) (applyCmd_kept h))))

theorem silence_kept {p : Program} (h : Kept κ s) : Kept κ (s.silence p) := by
  fun_cases State.silence
  · exact h
  · exact endProgram_kept h

theorem leaveAll_kept (h : Kept κ s) : Kept κ (s.leaveAll) :=
  Kept.foldl (Kept.foldl (Kept.foldl h (fun _ _ h => silence_kept h)) (fun _ _ h => Kept.ite (closeSeq_kept h) h))
    (fun _ _ h => Kept.ite (cancelSeq_kept h) h)

theorem boundary_kept (h : Kept κ s) : Kept κ (s.boundary) := by
  fun_cases State.boundary
  · exact h
  · exact freeClosed_kept (applyAll_kept (leaveAll_kept (retryLate_kept h)))

theorem receive_kept {c : Recv} (h : Kept κ s) : Kept κ (s.receive c) := by
  fun_cases State.receive
  · exact finish_kept h
  · exact boundary_kept (Kept.ite h h)

theorem seqPacket_kept {f : FnId} {r : RingId} {q : PktSeq} {op slot : Nat} {pages : List Nat} {sel : Pkt → Bool} (h : Kept κ s) :
    KeptNext κ (s.seqPacket f r q op slot pages sel) :=
  packet_kept h (fun h => Kept.ite h (receive_kept h))

theorem execOpenSequence_kept {f : FnId} {r : RingId} {q : PktSeq} {slot : BitVec 15} (h : Kept κ s) :
    KeptNext κ (execOpenSequence f r q slot s) :=
  seqPacket_kept h

theorem execAppendTokens_kept {f : FnId} {r : RingId} {q : PktSeq} (h : Kept κ s) : KeptNext κ (execAppendTokens f r q s) :=
  seqPacket_kept h

theorem execGenerate_kept {f : FnId} {r : RingId} {q : PktSeq} (h : Kept κ s) : KeptNext κ (execGenerate f r q s) :=
  seqPacket_kept h

theorem execCancelSequence_kept {f : FnId} {r : RingId} {q : PktSeq} (h : Kept κ s) : KeptNext κ (execCancelSequence f r q s) :=
  seqPacket_kept h

theorem execCloseSequence_kept {f : FnId} {r : RingId} {q : PktSeq} (h : Kept κ s) : KeptNext κ (execCloseSequence f r q s) :=
  seqPacket_kept h

theorem execForkSequence_kept {f : FnId} {r : RingId} {q : PktSeq} {slot : BitVec 15} {pages : List Nat} (h : Kept κ s) :
    KeptNext κ (execForkSequence f r q slot pages s) :=
  seqPacket_kept h

theorem execSnapshotSequence_kept {f : FnId} {r : RingId} {q : PktSeq} (h : Kept κ s) : KeptNext κ (execSnapshotSequence f r q s) :=
  seqPacket_kept h

theorem execRestoreSequence_kept {f : FnId} {r : RingId} {q : PktSeq} {slot : BitVec 15} {pages : List Nat} (h : Kept κ s) :
    KeptNext κ (execRestoreSequence f r q slot pages s) :=
  seqPacket_kept h

end

end Sys2Proof.Proofs
end

section
/-! PROOFS. What no command gives up, function by function: programs, steps, contexts, models and packets (07, 09, 10). -/

namespace Sys2Proof.Proofs

open Sys2Proof Sys2Proof.Machine

section
variable {κ : Watch} {s : State}

/-! ### Raw programs -/

theorem setExpertMap_kept {i : Image} {m : List (Nat × Nat)} (h : Kept κ s) : Kept κ (s.setExpertMap i m) := by
  unfold State.setExpertMap
  dsimp only
  exact Kept.foldl h (fun _ _ h => Kept.foldl h (fun _ _ h => fwWrite_kept h))

theorem rehomeExperts_kept {d : Nat} (h : Kept κ s) : Kept κ (s.rehomeExperts d) := by
  fun_cases State.rehomeExperts
  · exact h
  · exact setExpertMap_kept h

theorem placeExperts_kept (h : Kept κ s) : Kept κ (s.placeExperts) := by
  fun_cases State.placeExperts
  · exact h
  · exact setExpertMap_kept h

theorem moveMember_kept {map i g : Nat} (h : Kept κ s) : Kept κ (s.moveMember map i g) := fwWrite_kept h

theorem moveOff_kept {d : Nat} (h : Kept κ s) : Kept κ (s.moveOff d) := by
  unfold State.moveOff
  extract_lets surv
  refine Kept.foldl h (fun _ _ h => Kept.foldl h (fun _ _ h => ?_))
  split
  · exact moveMember_kept h
  · exact h

theorem movesHome_kept (h : Kept κ s) : Kept κ (s.movesHome) := Kept.foldl h (fun _ _ h => fwWrite_kept h)

theorem rejoin_kept (h : Kept κ s) : Kept κ (s.rejoin) := movesHome_kept (placeExperts_kept h)

theorem rehomeSeqs_kept {d : Nat} (h : Kept κ s) : Kept κ (s.rehomeSeqs d) := by
  unfold State.rehomeSeqs
  refine Kept.foldl h (fun _ _ h => ?_)
  dsimp only
  split
  · exact h
  · exact h

theorem dropAgents_kept {f : Nat → Bool} (h : Kept κ s) : Kept κ (s.dropAgents f) := h

theorem dropXbuf_kept {d : Nat} (h : Kept κ s) : Kept κ (s.dropXbuf d) := h

theorem leaveDie_kept {d : Nat} (h : Kept κ s) : Kept κ (s.leaveDie d) :=
  dropAgents_kept (dropXbuf_kept (dropStaging_kept (demoteDie_kept (moveOff_kept (rehomeExperts_kept (rehomeSeqs_kept h))))))

theorem enterCore_kept {p : Program} {g i n : Nat} (h : Kept κ s) : Kept κ (s.enterCore p g i n) :=
  KeptOf.mem h (Memory.hand_wf g _)

theorem startProgram_kept {p : Program} (h : Kept κ s) : Kept κ (s.startProgram p) := by
  fun_cases State.startProgram
  · exact h
  · exact h
  · exact finish_kept h
  · exact finish_kept h
  · exact finish_kept h
  · exact ltr_kept (Kept.foldl (Kept.foldl h (fun _ _ h => leaveDie_kept h)) (fun _ _ h => enterCore_kept h))

theorem returnDies_kept (h : Kept κ s) : Kept κ (s.returnDies) := by
  fun_cases State.returnDies
  · exact h
  · exact rejoin_kept h

theorem boundaryPrograms_kept (h : Kept κ s) : Kept κ (s.boundaryPrograms) := by
  fun_cases State.boundaryPrograms
  · exact h
  · exact Kept.foldl (returnDies_kept h) (fun _ _ h => startProgram_kept h)

theorem execRunProgram_kept {f : FnId} {r : RingId} {q : PktSeq} (h : Kept κ s) : KeptNext κ (execRunProgram f r q s) := by
  unfold execRunProgram
  dsimp only
  refine packet_kept h (fun h => Kept.ite (boundaryPrograms_kept h) (Kept.ite (finish_kept h) ?_))
  split
  next e =>
    have h2 := Kept.of_eq e (Kept.ite_snd h (readBuf_kept h))
    exact h2
  next e =>
    have h2 := Kept.of_eq e (Kept.ite_snd h (readBuf_kept h))
    exact finish_kept h2
  next e =>
    have h2 := Kept.of_eq e (Kept.ite_snd h (readBuf_kept h))
    exact Kept.ite (finish_kept h2) (Kept.ite (finish_kept h2) (boundaryPrograms_kept h2))

theorem execCancelProgram_kept {f : FnId} {r : RingId} {q : PktSeq} (h : Kept κ s) : KeptNext κ (execCancelProgram f r q s) := by
  unfold execCancelProgram
  refine packet_kept h (fun h => Kept.ite (finish_kept h) (finish_kept ?_))
  split
  · exact cancelProg_kept h
  · exact Kept.ite (finish_kept h) h

theorem releaseCores_kept {p : Program} (h : Kept κ s) : Kept κ (s.releaseCores p) := Kept.foldl h (fun _ _ h => h)

theorem execProgramEnd_kept {f : FnId} {r : RingId} {q : PktSeq} (h : Kept κ s) : KeptNext κ (execProgramEnd f r q s) := by
  fun_cases execProgramEnd
  · exact h
  · exact h
  · exact Kept.ite (ltr_kept (boundaryPrograms_kept (releaseCores_kept h)))
      (finishWith_kept (ltr_kept (boundaryPrograms_kept (releaseCores_kept h))))
  next e => exact Kept.of_eq e (planBuf_kept h)
  next e =>
    have h1 := Kept.of_eq e (planBuf_kept h)
    exact Kept.ite (ltr_kept (boundaryPrograms_kept (releaseCores_kept h1)))
      (finishWith_kept (ltr_kept (boundaryPrograms_kept (releaseCores_kept h1))))
  next e =>
    have h1 := Kept.of_eq e (planBuf_kept h)
    exact Kept.ite (ltr_kept (boundaryPrograms_kept (releaseCores_kept h1)))
      (finishWith_kept (ltr_kept (boundaryPrograms_kept (releaseCores_kept h1))))

/-! ### Steps -/

theorem needPages_kept {n slot upto : Nat} {batch : List Nat} {evict : Bool} {avail : List Nat} (h : Kept κ s) :
    Kept κ (State.needPages n s slot upto batch evict avail).2.2 := by
  induction n generalizing avail s with
  | zero => exact h
  | succ n ih =>
    unfold State.needPages
    split
    · exact h
    · split
      · exact h
      · split
        next e => exact ih (givePlace_kept e h)
        · split
          · exact ih (evictSeq_kept h)
          · exact h

theorem pages_kept {b : Forming} {slot upto : Nat} (h : Kept κ b.s) : Kept κ (b.pages slot upto).2.s := by
  have hneed := needPages_kept (n := b.s.pageFuel upto) (slot := slot) (upto := upto) (batch := b.batch.map (·.slot)) (evict := true)
    (avail := b.avail) h
  exact Kept.ite hneed (failSeq_kept hneed)

theorem decode_kept {b : Forming} {budget slot : Nat} (h : Kept κ b.s) : Kept κ (b.decode budget slot).s := by
  fun_cases Forming.decode
  · exact h
  · exact h
  · exact pages_kept h
  · exact pages_kept h

theorem drafts_kept {i : Image} {b : Forming} {budget : Nat} {row : BatchRow} (h : Kept κ b.s) :
    Kept κ (b.drafts i budget row).s := by
  fun_cases Forming.drafts
  · exact h
  · exact h
  · exact h
  · exact pages_kept h
  · exact pages_kept h

theorem prefill_kept {b : Forming} {slot : Nat} (h : Kept κ b.s) : Kept κ (b.prefill slot).s := by
  fun_cases Forming.prefill
  · exact h
  · exact h
  · exact pages_kept h
  · exact pages_kept h

theorem startRebuilds_kept {avail : List Nat} (h : Kept κ s) : Kept κ (s.startRebuilds avail).2 := by
  unfold State.startRebuilds
  dsimp only
  refine Kept.foldl_snd h (fun _ _ h => ?_)
  split
  · exact h
  · refine Kept.ite_snd (ltr_kept h) (Kept.ite_snd (Kept.ite_snd ?_ h) h)
    split
    · exact needPages_kept h
    · exact h

theorem form_kept {i : Image} {avail : List Nat} (h : Kept κ s) : Kept κ (s.form i avail).s := by
  unfold State.form
  extract_lets budget dec decoded drafted rebuilt joined pre
  have hdecoded : Kept κ decoded.s := Kept.foldl_of Forming.s h (fun _ _ h => decode_kept h)
  have hdrafted : Kept κ drafted.s := Kept.foldl_of Forming.s hdecoded (fun _ _ h => drafts_kept h)
  have hjoined : Kept κ joined.s := startRebuilds_kept hdrafted
  exact Kept.foldl_of Forming.s hjoined (fun _ _ h => prefill_kept h)

theorem raiseCores_kept (h : Kept κ s) : Kept κ (s.raiseCores) := by
  unfold State.raiseCores
  exact Kept.foldl h (fun _ _ h => h)

theorem startStep_kept {batch : List BatchRow} {rest : List (List BatchRow)} (h : Kept κ s) : Kept κ (s.startStep batch rest) := by
  fun_cases State.startStep
  · exact h
  · exact raiseCores_kept h

theorem execStepBoundary_kept {pages : List Nat} (h : Kept κ s) : KeptNext κ (execStepBoundary pages s) := by
  have hready : Kept κ s.boundary.boundaryPrograms := boundaryPrograms_kept (boundary_kept h)
  unfold execStepBoundary
  dsimp only
  split
  · exact h
  · split
    · exact hready
    · split
      · exact hready
      · exact startStep_kept (promotePages_kept (form_kept hready))

theorem execDraftSample_kept {slot : BitVec 15} {logits : Words32} (h : Kept κ s) : KeptNext κ (execDraftSample slot logits s) := by
  fun_cases execDraftSample <;> exact h

theorem execSample_kept {slot : BitVec 15} {logits : Words32} (h : Kept κ s) : KeptNext κ (execSample slot logits s) := by
  fun_cases execSample <;> exact h

theorem execVerifyDrafts_kept {slot : BitVec 15} {rows : List Words32} (h : Kept κ s) : KeptNext κ (execVerifyDrafts slot rows s) := by
  fun_cases execVerifyDrafts <;> exact h

theorem runNext_kept {bs : List (List BatchRow)} (h : Kept κ s) : Kept κ (s.runNext bs) := by
  induction bs with
  | nil => exact h
  | cons b bs ih =>
    unfold State.runNext
    exact Kept.ite ih (startStep_kept h)

theorem endStep_kept {rest : List (List BatchRow)} (h : Kept κ s) : Kept κ (s.endStep rest) := by
  fun_cases State.endStep
  · exact h
  · exact runNext_kept (boundary_kept h)

theorem commitAll_kept {st : Step} (h : Kept κ s) : Kept κ (s.commitAll st) := by
  unfold State.commitAll
  dsimp only
  refine giveOut_kept (Kept.foldl_snd h (fun _ _ h => ?_))
  split
  next e =>
    have h2 := Kept.of_eq e (commitSeq_kept h)
    exact h2
  · split
    next e _ _ _ =>
      have h2 := Kept.of_eq e (commitSeq_kept h)
      exact h2
    next e _ _ =>
      have h2 := Kept.of_eq e (commitSeq_kept h)
      exact h2

theorem execStepCommit_kept {failure : StepFailure} (h : Kept κ s) : KeptNext κ (execStepCommit failure s) := by
  fun_cases execStepCommit
  · exact h
  · exact h
  · exact endStep_kept (commitAll_kept h)
  · exact endStep_kept h
  · exact raiseCores_kept h
  next u =>
    refine endStep_kept ?_
    dsimp only [u]
    split
    · exact Kept.foldl h (fun _ _ h => failSeq_kept h)
    · exact Kept.foldl h (fun _ _ h => failSeq_kept h)

/-! ### Contexts -/

theorem setGrants_kept {off len : Nat} (h : Kept κ s) : Kept κ (s.setGrants off len) := Kept.foldl h (fun _ _ h => h)

theorem execIdentify_kept {f : FnId} {r : RingId} {q : PktSeq} (h : Kept κ s) : KeptNext κ (execIdentify f r q s) := by
  unfold execIdentify
  refine packet_kept h (fun h => Kept.ite h ?_)
  split
  next e => exact Kept.of_eq e (resolve_kept h)
  next e =>
    have h2 := Kept.of_eq e (resolve_kept h)
    exact finish_kept h2
  next e =>
    have h2 := Kept.of_eq e (resolve_kept h)
    exact finishWith_kept h2
  next e =>
    have h2 := Kept.of_eq e (resolve_kept h)
    exact finishWith_kept h2

theorem attach_kept {f : Nat} {p : Pkt} {tag part : Nat} {gs : List Nat} (h : Kept κ s) : Kept κ (s.attach f p tag part gs) := by
  unfold State.attach
  extract_lets fl newPart d drawn sec keyed reset reg metered bytes ro none c gen entered counted given
  have hdrawn : Kept κ drawn := by
    dsimp only [drawn, d]
    split <;> exact h
  have hkeyed : Kept κ keyed := Kept.ite hdrawn hdrawn
  have hmetered : Kept κ metered := Kept.ite hkeyed hkeyed
  have hgiven : Kept κ given := Kept.foldl hmetered (fun _ _ h => handOver_kept h)
  exact setGrants_kept hgiven

theorem execAttachContext_kept {f : FnId} {r : RingId} {q : PktSeq} {tag : BitVec 12} {part : Fin 64} {granules : List Nat}
    (h : Kept κ s) : KeptNext κ (execAttachContext f r q tag part granules s) := by
  unfold execAttachContext
  refine packet_kept h (fun h => ?_)
  split
  · exact finish_kept h
  · refine Kept.ite (finish_kept h) (Kept.ite (finish_kept h) ?_)
    split
    · exact Kept.ite (finish_kept h) (finish_kept (attach_kept h))
    · exact finish_kept h

theorem startDetach_kept {tag : Nat} {by_ : Option (Nat × Nat × BitVec 16)} (h : Kept κ s) : Kept κ (s.startDetach tag by_) := by
  unfold State.startDetach
  refine boundary_kept (Kept.foldl h (fun _ _ h => Kept.ite h (Kept.ite h ?_)))
  split
  · exact cancelProg_kept h
  · exact finish_kept h

theorem teardown_kept {tag : Nat} (h : Kept κ s) : Kept κ (s.teardown tag) := by
  fun_cases State.teardown
  · exact setGrants_kept (Kept.foldl (dropKvGranules_kept h) (fun _ _ h => handOver_kept h))
  · exact setGrants_kept (Kept.foldl (dropKvGranules_kept h) (fun _ _ h => handOver_kept h))

theorem execDetachContext_kept {f : FnId} {r : RingId} {q : PktSeq} (h : Kept κ s) : KeptNext κ (execDetachContext f r q s) :=
  packet_kept h (fun h => Kept.ite h (startDetach_kept h))

theorem execDetachComplete_kept {tag : BitVec 12} (h : Kept κ s) : KeptNext κ (execDetachComplete tag s) := by
  fun_cases execDetachComplete
  · exact h
  · exact finish_kept (teardown_kept h)
  · exact teardown_kept h

/-! ### Images -/

theorem execLoadModel_kept {f : FnId} {r : RingId} {q : PktSeq} {im : ImageMeta} {granules : List Nat} (h : Kept κ s) :
    KeptNext κ (execLoadModel f r q im granules s) := by
  unfold execLoadModel
  dsimp only
  refine packet_kept h (fun h => Kept.ite (finish_kept h) ?_)
  split
  · exact Kept.ite h (finish_kept h)
  · split
    next e =>
      have h2 := Kept.of_eq e (readBuf_kept h)
      exact h2
    next e =>
      have h2 := Kept.of_eq e (readBuf_kept h)
      exact finish_kept h2
    · split
      next e _ _ _ =>
        have h2 := Kept.of_eq e (readBuf_kept h)
        exact finish_kept h2
      next e _ _ =>
        have h2 := Kept.of_eq e (readBuf_kept h)
        exact h2

theorem readSections_kept {l : Load} {tag : Nat} (h : Kept κ s) : Kept κ (s.readSections l tag).2 := by
  unfold State.readSections
  refine Kept.foldl_snd h (fun _ _ h => ?_)
  split
  · exact h
  · split
    next e => exact Kept.of_eq e (readBuf_kept h)
    next e => exact Kept.of_eq e (readBuf_kept h)
    next e _ => exact Kept.of_eq e (readBuf_kept h)
    next e _ => exact Kept.of_eq e (readBuf_kept h)
    next e _ => exact Kept.of_eq e (readBuf_kept h)

theorem putImage_kept {gs : List Nat} {off : Nat} {bs : Bytes} (h : Kept κ s) : Kept κ (s.putImage gs off bs) :=
  Kept.foldl h (fun _ _ h => fwWrite_kept h)

theorem modCores_kept {gs : List Nat} {f : Core → Core} (h : Kept κ s) : Kept κ (gs.foldl (fun s g => s.modCore g f) s) :=
  Kept.foldl h (fun _ _ h => h)

theorem install_kept {l : Load} {data : List Bytes} (h : Kept κ s) : Kept κ (s.install l data) := by
  unfold State.install
  extract_lets hdr cb i given headed placed dropped sched main
  have hgiven : Kept κ given := Kept.foldl h (fun _ _ h => handOver_kept h)
  have hheaded : Kept κ headed := putImage_kept hgiven
  have hplaced : Kept κ placed := Kept.foldl hheaded (fun _ _ h => putImage_kept h)
  have hdropped : Kept κ dropped := Kept.foldl hplaced (fun _ _ h => h)
  have hmain : Kept κ main := hplaced
  exact Kept.ite (Kept.with_srv hdropped) (placeExperts_kept (modCores_kept hmain))

theorem execLoadModelComplete_kept (h : Kept κ s) : KeptNext κ (execLoadModelComplete s) := by
  fun_cases execLoadModelComplete
  · exact h
  · exact h
  next e => exact Kept.of_eq e (readSections_kept h)
  next e =>
    have h1 := Kept.of_eq e (readSections_kept h)
    exact boundaryPrograms_kept (finish_kept h1)
  next e _ =>
    have h1 := Kept.of_eq e (readSections_kept h)
    exact boundaryPrograms_kept (finish_kept h1)
  next e _ _ =>
    have h1 := Kept.of_eq e (readSections_kept h)
    exact boundaryPrograms_kept (finish_kept h1)
  next e _ _ _ =>
    have h1 := Kept.of_eq e (readSections_kept h)
    exact boundaryPrograms_kept (finish_kept (install_kept h1))

theorem dropImage_kept {draft : Bool} (h : Kept κ s) : Kept κ (s.dropImage draft) := by
  fun_cases State.dropImage
  · exact Kept.foldl h (fun _ _ h => handOver_kept h)
  · exact KeptOf.foldl (Kept.foldl (Kept.foldl (Kept.foldl h (fun _ _ h => handOver_kept h)) (fun _ _ h => h))
      (fun _ _ h => handOver_kept h)) (fun _ _ h => KeptOf.zero h)

theorem execUnloadModel_kept {f : FnId} {r : RingId} {q : PktSeq} (h : Kept κ s) : KeptNext κ (execUnloadModel f r q s) :=
  packet_kept h (fun h => Kept.ite (finish_kept h) (Kept.ite (finish_kept h)
    (Kept.ite h (Kept.ite (boundary_kept h) (Kept.ite (freeClosed_kept (Kept.foldl h (fun _ _ h => closeSeq_kept h)))
      (finish_kept (dropImage_kept (freeClosed_kept (Kept.foldl h (fun _ _ h => closeSeq_kept h))))))))))

/-! ### Packets -/

theorem translatePage_kept {who : Waiter} {fn pasid size : Nat} {faults : Bool} {va : Nat} (h : Kept κ s) :
    Kept κ (s.translatePage who fn pasid size faults va).2 := by
  fun_cases State.translatePage
  · exact h
  · exact h
  next e _ =>
    have h1 := Kept.of_eq e (resolve_kept h)
    exact Kept.foldl h1 (fun _ _ h => Kept.ite (askAts_kept h) h)
  next e _ => exact Kept.of_eq e (resolve_kept h)

theorem prefetch_kept {f r : Nat} {q : BitVec 16} {p : Pkt} {faults : Bool} (h : Kept κ s) : Kept κ (s.prefetch f r q p faults) := by
  fun_cases State.prefetch
  · exact finish_kept h
  · exact Kept.foldl_snd h (fun _ _ h => translatePage_kept h)
  · exact finish_kept (Kept.foldl_snd h (fun _ _ h => translatePage_kept h))

theorem execPrefetchTranslate_kept {f : FnId} {r : RingId} {q : PktSeq} (h : Kept κ s) : KeptNext κ (execPrefetchTranslate f r q s) :=
  packet_kept h prefetch_kept

theorem execPrefetchTranslateFaults_kept {f : FnId} {r : RingId} {q : PktSeq} (h : Kept κ s) :
    KeptNext κ (execPrefetchTranslateFaults f r q s) :=
  packet_kept h prefetch_kept

theorem copyEntry_kept {who : Waiter} {f : Nat} {p : Pkt} {i : Nat} (h : Kept κ s) : Kept κ (s.copyEntry who f p i).2 := by
  fun_cases State.copyEntry
  next e => exact Kept.of_eq e (readBuf_kept h)
  next e => exact Kept.of_eq e (readBuf_kept h)
  next e _ _ _ => exact Kept.of_eq e (readBuf_kept h)
  next e _ _ _ _ _ e1 =>
    have h1 := Kept.of_eq e (readBuf_kept h)
    exact Kept.of_eq e1 (readBuf_kept h1)
  next e _ _ _ _ _ _ e1 =>
    have h1 := Kept.of_eq e (readBuf_kept h)
    exact Kept.of_eq e1 (readBuf_kept h1)
  next e _ _ _ _ _ _ _ e1 _ e2 =>
    have h1 := Kept.of_eq e (readBuf_kept h)
    have h2 := Kept.of_eq e1 (readBuf_kept h1)
    exact Kept.of_eq e2 (planBuf_kept h2)
  next e _ _ _ _ _ _ _ e1 _ _ _ e2 =>
    have h1 := Kept.of_eq e (readBuf_kept h)
    have h2 := Kept.of_eq e1 (readBuf_kept h1)
    exact Kept.of_eq e2 (planBuf_kept h2)
  next e _ _ _ _ _ _ _ e1 _ _ e2 =>
    have h1 := Kept.of_eq e (readBuf_kept h)
    have h2 := Kept.of_eq e1 (readBuf_kept h1)
    have h3 := Kept.of_eq e2 (planBuf_kept h2)
    exact carryAll_kept h3

theorem copyEntries_kept {f r : Nat} {q : BitVec 16} {p : Pkt} {i n : Nat} (h : Kept κ s) :
    Kept κ (State.copyEntries f r q p i n s) := by
  induction n generalizing i s with
  | zero => exact h
  | succ n ih =>
    unfold State.copyEntries
    split
    · exact finish_kept h
    · split
      next e =>
        have h1 := Kept.of_eq e (copyEntry_kept h)
        exact h1
      next e => exact finish_kept (Kept.of_eq e (copyEntry_kept h))
      next e => exact ih (Kept.of_eq e (copyEntry_kept h))

theorem execPrefetchCopy_kept {f : FnId} {r : RingId} {q : PktSeq} (h : Kept κ s) : KeptNext κ (execPrefetchCopy f r q s) :=
  packet_kept h copyEntries_kept

theorem execAdviseAdd_kept {f : FnId} {r : RingId} {q : PktSeq} (h : Kept κ s) : KeptNext κ (execAdviseAdd f r q s) :=
  packet_kept h (fun h => Kept.ite (finish_kept h) (finish_kept h))

theorem execAdviseRemove_kept {f : FnId} {r : RingId} {q : PktSeq} (h : Kept κ s) : KeptNext κ (execAdviseRemove f r q s) :=
  packet_kept h (fun h => finish_kept (setCtx_kept h))

theorem execAdviseClear_kept {f : FnId} {r : RingId} {q : PktSeq} (h : Kept κ s) : KeptNext κ (execAdviseClear f r q s) :=
  packet_kept h (fun h => finish_kept (setCtx_kept h))

theorem flushRange_kept {who : Waiter} {tag ptr len : Nat} (h : Kept κ s) : Kept κ (s.flushRange who tag ptr len).2 := by
  fun_cases State.flushRange
  · exact h
  · exact h
  · exact h
  · refine Kept.foldl_snd h (fun _ _ h => ?_)
    split
    · exact h
    · split
      next e => exact Kept.of_eq e (spot_kept h)
      next e => exact Kept.of_eq e (spot_kept h)
      next e =>
        have h2 := Kept.of_eq e (spot_kept h)
        exact Kept.ite_snd h2 (Kept.foldl h2 (fun _ _ h => evictLine_kept h))

theorem execFlush_kept {f : FnId} {r : RingId} {q : PktSeq} (h : Kept κ s) : KeptNext κ (execFlush f r q s) := by
  unfold execFlush
  refine packet_kept h (fun h => Kept.ite h (Kept.ite (finish_kept h) ?_))
  split
  next e => exact Kept.of_eq e (flushRange_kept h)
  next e =>
    have h2 := Kept.of_eq e (flushRange_kept h)
    exact finish_kept h2
  next e =>
    have h2 := Kept.of_eq e (flushRange_kept h)
    exact finish_kept h2

theorem execFenceRing_kept {f : FnId} {r : RingId} {q : PktSeq} (h : Kept κ s) : KeptNext κ (execFenceRing f r q s) :=
  packet_kept h finish_kept

theorem execFenceContext_kept {f : FnId} {r : RingId} {q : PktSeq} (h : Kept κ s) : KeptNext κ (execFenceContext f r q s) :=
  packet_kept h (fun h => Kept.ite h (finish_kept h))

theorem execSealSessionInstall_kept {f : FnId} {r : RingId} {q : PktSeq} (h : Kept κ s) :
    KeptNext κ (execSealSessionInstall f r q s) := by
  unfold execSealSessionInstall
  refine packet_kept h (fun h => Kept.ite (finish_kept h) ?_)
  split
  next e => exact Kept.of_eq e (readBuf_kept h)
  next e =>
    have h2 := Kept.of_eq e (readBuf_kept h)
    exact finish_kept h2
  · split
    next e _ _ =>
      have h2 := Kept.of_eq e (readBuf_kept h)
      exact finish_kept h2
    next e _ _ _ _ =>
      have h2 := Kept.of_eq e (readBuf_kept h)
      exact Kept.ite (finishMirrored_kept (journal_kept h2)) (Kept.ite (finish_kept h2) (finishMirrored_kept (useSession_kept h2)))

theorem execSealSessionDestroy_kept {f : FnId} {r : RingId} {q : PktSeq} (h : Kept κ s) : KeptNext κ (execSealSessionDestroy f r q s) :=
  packet_kept h (fun h => Kept.ite (Kept.ite (finish_kept h) (finishMirrored_kept h))
    (Kept.ite (Kept.ite (finish_kept h) (finishMirrored_kept h)) (finish_kept h)))

theorem giveRecord_kept {f r : Nat} {q : BitVec 16} {p : Pkt} {bytes : Nat} {rec res : Bytes} (h : Kept κ s) :
    Kept κ (s.giveRecord f r q p bytes rec res) := by
  fun_cases State.giveRecord
  · exact finish_kept h
  next e => exact Kept.of_eq e (planBuf_kept h)
  next e =>
    have h1 := Kept.of_eq e (planBuf_kept h)
    exact finish_kept h1
  next e =>
    have h1 := Kept.of_eq e (planBuf_kept h)
    exact finishWith_kept h1

theorem query_kept {f : FnId} {r : RingId} {q : PktSeq} {sel : Nat} {pfOnly : Bool} {rec : State → Pkt → Bytes} (h : Kept κ s) :
    KeptNext κ (s.query f r q sel pfOnly rec) :=
  packet_kept h (fun h => Kept.ite (finish_kept h) (giveRecord_kept h))

theorem execQuerySequenceCounts_kept {f : FnId} {r : RingId} {q : PktSeq} (h : Kept κ s) :
    KeptNext κ (execQuerySequenceCounts f r q s) :=
  query_kept h

theorem execQuerySequences_kept {f : FnId} {r : RingId} {q : PktSeq} (h : Kept κ s) : KeptNext κ (execQuerySequences f r q s) :=
  query_kept h

theorem execQueryFinder_kept {f : FnId} {r : RingId} {q : PktSeq} (h : Kept κ s) : KeptNext κ (execQueryFinder f r q s) :=
  query_kept h

theorem execQueryRegulators_kept {f : FnId} {r : RingId} {q : PktSeq} (h : Kept κ s) : KeptNext κ (execQueryRegulators f r q s) :=
  query_kept h

theorem execQueryTranslationCaches_kept {f : FnId} {r : RingId} {q : PktSeq} (h : Kept κ s) :
    KeptNext κ (execQueryTranslationCaches f r q s) :=
  query_kept h

theorem execQueryRingCounts_kept {f : FnId} {r : RingId} {q : PktSeq} (h : Kept κ s) : KeptNext κ (execQueryRingCounts f r q s) :=
  query_kept h

theorem execDiagnoseEcho_kept {f : FnId} {r : RingId} {q : PktSeq} (h : Kept κ s) : KeptNext κ (execDiagnoseEcho f r q s) :=
  packet_kept h finish_kept

theorem execDiagnoseNightLog_kept {f : FnId} {r : RingId} {q : PktSeq} (h : Kept κ s) : KeptNext κ (execDiagnoseNightLog f r q s) :=
  packet_kept h giveRecord_kept

end

end Sys2Proof.Proofs
end

section
/-! PROOFS. What no command gives up, function by function: the host endpoint, the Wicket, the fault collector and power (11, 14 to 17). -/

namespace Sys2Proof.Proofs

open Sys2Proof Sys2Proof.Machine

section
variable {κ : Watch} {s : State}

/-! ### The host endpoint -/

theorem enterPc_kept {cause : Nat} (h : Kept κ s) : Kept κ (s.enterPc cause) := by
  fun_cases State.enterPc
  · exact h
  · exact Kept.foldl h (fun _ _ h => tdiError_kept h)

theorem linkFault_kept {cause : Nat} (h : Kept κ s) : Kept κ (s.linkFault cause) := by
  fun_cases State.linkFault
  · exact enterPc_kept h
  · exact enterPc_kept h

theorem flushFn_kept {f : Nat} (h : Kept κ s) : Kept κ (s.flushFn f) := by
  fun_cases State.flushFn
  · exact driveIntx_kept (flushMsix_kept h)
  · exact flushMsix_kept h

theorem flushAll_kept (h : Kept κ s) : Kept κ (s.flushAll) := Kept.foldl h (fun _ _ h => flushFn_kept h)

theorem liftPc_kept (h : Kept κ s) : Kept κ (s.liftPc) := flushAll_kept (Kept.foldl h (fun _ _ h => sendReady_kept h))

theorem execHostLinkError_kept {cleared : Bool} (h : Kept κ s) : KeptNext κ (execHostLinkError cleared s) := by
  fun_cases execHostLinkError
  · exact h
  · exact linkFault_kept h

theorem execPoisonedRequest_kept {f : FnId} (h : Kept κ s) : KeptNext κ (execPoisonedRequest f s) := by
  fun_cases execPoisonedRequest
  · exact h
  · exact linkFault_kept h

theorem execPcForce_kept (h : Kept κ s) : KeptNext κ (execPcForce s) := cfgAccess_kept h enterPc_kept

theorem execPcClear_kept (h : Kept κ s) : KeptNext κ (execPcClear s) :=
  cfgAccess_kept h (fun h => Kept.ite h (Kept.ite (liftPc_kept h) h))

theorem setMirSt_kept {st : MirSt} (h : Kept κ s) : Kept κ (s.setMirSt st) := by
  fun_cases State.setMirSt
  · exact h
  · exact hostInt_kept h

theorem freeHolds_kept (h : Kept κ s) : Kept κ (s.freeHolds) := by
  unfold State.freeHolds
  refine Kept.foldl h (fun _ _ h => Kept.ite h ?_)
  split
  · exact produce_kept (carryAll_kept h)
  · exact carryAll_kept h

theorem unpair_kept (h : Kept κ s) : Kept κ (s.unpair) := setMirSt_kept (freeHolds_kept h)

theorem execInitiateFlr_kept {f : FnId} (h : Kept κ s) : KeptNext κ (execInitiateFlr f s) :=
  cfgAccess_kept h (fun h => boundary_kept (Kept.foldl h (fun _ _ h => h)))

theorem tearFn_kept {f : Nat} (h : Kept κ s) : Kept κ (s.tearFn f) := by
  fun_cases State.tearFn
  · exact Kept.foldl h (fun _ _ h => teardown_kept h)
  · exact Kept.foldl (Kept.foldl h (fun _ _ h => teardown_kept h)) (fun _ _ h => h)

theorem resetPf_kept (h : Kept κ s) : Kept κ (s.resetPf) := unpair_kept (dropImage_kept h)

theorem execFlrQuiesceDone_kept {f : FnId} (h : Kept κ s) : KeptNext κ (execFlrQuiesceDone f s) := by
  fun_cases execFlrQuiesceDone
  · exact h
  · exact h
  · exact sendReady_kept (Kept.foldl (resetPf_kept (Kept.foldl h (fun _ _ h => tearFn_kept h))) (fun _ _ h => h))
  · exact h
  · exact sendReady_kept (tearFn_kept h)
  · exact tearFn_kept h
  · exact sendReady_kept (tearFn_kept h)

theorem setCfg_kept {f w v : Nat} (h : Kept κ s) : Kept κ (s.setCfg f w v) := h

theorem execVfEnable_kept (h : Kept κ s) : KeptNext κ (execVfEnable s) :=
  cfgAccess_kept h (fun h => Kept.ite h (Kept.foldl h (fun _ _ h => sendReady_kept h)))

theorem execVfDisable_kept (h : Kept κ s) : KeptNext κ (execVfDisable s) := by
  fun_cases execVfDisable
  · exact Kept.ite h h
  · exact h
  · exact boundary_kept (Kept.foldl h (fun _ _ h => h))

theorem execD3hotEntry_kept (h : Kept κ s) : KeptNext κ (execD3hotEntry s) := cfgAccess_kept h id

theorem execD0Entry_kept (h : Kept κ s) : KeptNext κ (execD0Entry s) :=
  cfgAccess_kept h (fun h => Kept.ite h (flushAll_kept (sendLtr_kept (sendReady_kept h))))

theorem bmeOff_kept {f : Nat} (h : Kept κ s) : Kept κ (s.bmeOff f) := by
  fun_cases State.bmeOff
  · exact h
  · exact tdiError_kept h

theorem bmeOn_kept {f : Nat} (h : Kept κ s) : Kept κ (s.bmeOn f) := by
  fun_cases State.bmeOn
  · exact h
  · exact flushFn_kept h

theorem setMse_kept {f : Nat} {on : Bool} (h : Kept κ s) : Kept κ (s.setMse f on) :=
  Kept.foldl h (fun _ _ h => Kept.ite h (Kept.ite h (tdiError_kept h)))

theorem execBusMasterDisable_kept {f : FnId} (h : Kept κ s) : KeptNext κ (execBusMasterDisable f s) :=
  cfgAccess_kept h bmeOff_kept

theorem execBusMasterEnable_kept {f : FnId} (h : Kept κ s) : KeptNext κ (execBusMasterEnable f s) :=
  cfgAccess_kept h bmeOn_kept

theorem execMemorySpaceEnableClear_kept {f : FnId} (h : Kept κ s) : KeptNext κ (execMemorySpaceEnableClear f s) :=
  cfgAccess_kept h (fun h => setMse_kept (Kept.ite h h))

theorem execAtsPriEnableClear_kept {f : FnId} {what : AtsPri} (h : Kept κ s) : KeptNext κ (execAtsPriEnableClear f what s) :=
  cfgAccess_kept h id

theorem fundamental_kept (hκ : κ.sources = none) (h : Kept κ s) : Kept κ s.fundamental :=
  ⟨fun h₀ => State.fundamental_wf s (h.form h₀), h.counter, (h.unwatched hκ).sources⟩

theorem powerOff_kept (hκ : κ.sources = none) (h : Kept κ s) : Kept κ (s.powerOff) := fundamental_kept hκ h

theorem execFundamentalReset_kept (hκ : κ.sources = none) (h : Kept κ s) : KeptNext κ (execFundamentalReset s) :=
  fundamental_kept hκ h

theorem execHotReset_kept (hκ : κ.sources = none) (h : Kept κ s) : KeptNext κ (execHotReset s) := by
  fun_cases execHotReset
  · exact h
  · exact boundary_kept (Kept.foldl (h.unwatched hκ) (fun _ _ h => h))

theorem resumeAlv_kept (h : Kept κ s) : Kept κ (s.resumeAlv) := by
  fun_cases State.resumeAlv <;> exact h

theorem execHotResetReadiness_kept (h : Kept κ s) : KeptNext κ (execHotResetReadiness s) := by
  fun_cases execHotResetReadiness
  · exact h
  next torn emptied c remade made =>
    have htorn : Kept κ torn := Kept.foldl h (fun _ _ h => tearFn_kept h)
    have hemptied : Kept κ emptied := emptyCache_kept (resetPf_kept htorn)
    have hremade : Kept κ remade := remakeCarve_kept hemptied
    exact sendReady_kept (resumeAlv_kept (with_fns_port_kept hremade))

theorem execLinkUp_kept (h : Kept κ s) : KeptNext κ (execLinkUp s) := by
  fun_cases execLinkUp
  · exact h
  · exact Kept.ite (flushAll_kept h) h

theorem execLinkDown_kept (hκ : κ.sources = none) (h : Kept κ s) : KeptNext κ (execLinkDown s) := by
  fun_cases execLinkDown
  · exact h
  · exact powerOff_kept hκ h
  · exact h
  · exact linkFault_kept h

theorem execRemoveRequest_kept (h : Kept κ s) : KeptNext κ (execRemoveRequest s) :=
  cfgAccess_kept h (fun h => Kept.ite h (Kept.foldl h (fun _ _ h => drainRing_kept h)))

theorem execRemoveCancel_kept (h : Kept κ s) : KeptNext κ (execRemoveCancel s) := cfgAccess_kept h (fun h => Kept.ite h h)

theorem execRemoveReady_kept (h : Kept κ s) : KeptNext κ (execRemoveReady s) := by
  have hempty : Kept κ ((s.dropImage false).emptyCache).unpair := unpair_kept (emptyCache_kept (dropImage_kept h))
  fun_cases execRemoveReady
  · exact h
  · exact Kept.foldl h (fun _ _ h => startDetach_kept h)
  · exact h
  · exact hempty

theorem execCxlioCompletion_kept {tag : BitVec 10} {status : IoStatus} {data : Bytes} (h : Kept κ s) :
    KeptNext κ (execCxlioCompletion tag status data s) := by
  fun_cases execCxlioCompletion <;> exact h

theorem execCompletionTimeout_kept {tag : BitVec 10} (h : Kept κ s) : KeptNext κ (execCompletionTimeout tag s) := by
  fun_cases execCompletionTimeout <;> exact h

/-! ### The Wicket -/

theorem loseCores_kept {gs : List Nat} (h : Kept κ s) : Kept κ (s.loseCores gs) :=
  KeptOf.foldl h (fun _ _ h => KeptOf.loseCore h)

theorem closeIsland_kept {i : Nat} (h : Kept κ s) : Kept κ (s.closeIsland i) := by
  fun_cases State.closeIsland
  · exact loseCores_kept h
  · exact KeptOf.zero h
  · exact h

theorem wktStart_kept {o : WktOp} (h : Kept κ s) : Kept κ (s.wktStart o) := by
  fun_cases State.wktStart
  · exact h
  · exact h
  · exact h
  · exact Kept.foldl h (fun _ _ h => cancelProg_kept h)
  · exact h

theorem wicket_kept {op : BitVec 4} {unit : BitVec 16} {arg : BitVec 32} {fw : Bool} (h : Kept κ s) :
    Kept κ (s.wicket op unit arg fw) := by
  fun_cases State.wicket
  · exact bar0Write_kept h (fun h => Kept.ite h (wktStart_kept h))
  · exact Kept.ite h (wktStart_kept h)
  · exact Kept.ite h (wktStart_kept h)
  · exact wktStart_kept h

theorem execDrain_kept {unit : BitVec 16} {arg : BitVec 32} {fw : Bool} (h : Kept κ s) : KeptNext κ (execDrain unit arg fw s) :=
  wicket_kept h

theorem execTest_kept {unit : BitVec 16} {arg : BitVec 32} {fw : Bool} (h : Kept κ s) : KeptNext κ (execTest unit arg fw s) :=
  wicket_kept h

theorem execReturnUnit_kept {unit : BitVec 16} {arg : BitVec 32} {fw : Bool} (h : Kept κ s) :
    KeptNext κ (execReturnUnit unit arg fw s) :=
  wicket_kept h

theorem execSpare_kept {unit : BitVec 16} {arg : BitVec 32} {fw : Bool} (h : Kept κ s) : KeptNext κ (execSpare unit arg fw s) :=
  wicket_kept h

theorem execRetireBank_kept {unit : BitVec 16} {arg : BitVec 32} {fw : Bool} (h : Kept κ s) :
    KeptNext κ (execRetireBank unit arg fw s) :=
  wicket_kept h

theorem execSparePc_kept {unit : BitVec 16} {arg : BitVec 32} {fw : Bool} (h : Kept κ s) : KeptNext κ (execSparePc unit arg fw s) :=
  wicket_kept h

theorem execRetirePage_kept {unit : BitVec 16} {arg : BitVec 32} {fw : Bool} (h : Kept κ s) :
    KeptNext κ (execRetirePage unit arg fw s) :=
  wicket_kept h

theorem execRepairLink_kept {unit : BitVec 16} {arg : BitVec 32} {fw : Bool} (h : Kept κ s) :
    KeptNext κ (execRepairLink unit arg fw s) :=
  wicket_kept h

theorem setSlots_kept {cl : Nat} {m : List Nat} (h : Kept κ s) : Kept κ (s.setSlots cl m) := h

theorem freshCores_kept {gs : List Nat} (h : Kept κ s) : Kept κ (s.freshCores gs) := Kept.foldl h (fun _ _ h => h)

theorem doSpare_kept {cl n : Nat} (h : Kept κ s) : Kept κ (s.doSpare cl n) := by
  fun_cases State.doSpare
  · exact h
  · exact freshCores_kept (KeptOf.renameCores h)

theorem outCluster_kept {cl : Nat} (h : Kept κ s) : Kept κ (s.outCluster cl) := closeIsland_kept (leaveDie_kept h)

theorem outDie_kept {d : Nat} (h : Kept κ s) : Kept κ (s.outDie d) :=
  Kept.foldl (leaveDie_kept h) (fun _ _ h => closeIsland_kept h)

theorem doDrain_kept {u : BitVec 16} (h : Kept κ s) : Kept κ (s.doDrain u) := by
  fun_cases State.doDrain
  · exact h
  · exact doSpare_kept h
  · exact outCluster_kept h
  · exact outCluster_kept h
  · exact outDie_kept h

theorem inClusters_kept {cls : List Nat} (h : Kept κ s) : Kept κ (s.inClusters cls) :=
  freshCores_kept (Kept.foldl h (fun _ _ h => h))

theorem doReturn_kept {u : BitVec 16} (h : Kept κ s) : Kept κ (s.doReturn u) := by
  unfold State.doReturn
  extract_lets w slot usable d mine dieW entered back coh
  have hentered : Kept κ entered := by
    dsimp only [entered]
    split
    · exact Kept.ite (with_wkt_kept h) (inClusters_kept (with_wkt_kept h))
    · exact inClusters_kept (with_wkt_kept h)
    · exact inClusters_kept (with_wkt_kept h)
  exact rejoin_kept (with_coh_kept hentered)

theorem slotTested_kept {u : BitVec 16} {pass : Bool} (h : Kept κ s) : Kept κ (s.slotTested u pass) := by
  fun_cases State.slotTested <;> exact h

theorem execWicketOperationDone_kept {pass : Bool} {us : Nat} (h : Kept κ s) : KeptNext κ (execWicketOperationDone pass us s) := by
  fun_cases execWicketOperationDone
  · exact h
  · exact h
  · exact doDrain_kept h
  · exact slotTested_kept (Kept.ite h h)
  · exact boundaryPrograms_kept (doReturn_kept h)
  · exact doSpare_kept h
  · exact h
  · exact h
  · exact h
  · exact h
  · exact h

theorem execTestTimeout_kept (h : Kept κ s) : KeptNext κ (execTestTimeout s) := by
  fun_cases execTestTimeout <;> exact h

/-! ### The fault collector -/

theorem abortCtx_kept {tag : Nat} (h : Kept κ s) : Kept κ (s.abortCtx tag) := by
  fun_cases State.abortCtx
  · exact h
  · refine boundary_kept (Kept.foldl (Kept.foldl h (fun _ _ h => h)) (fun _ _ h => ?_))
    split
    · exact h
    · split
      · exact cancelProg_kept h
      · exact finish_kept (Kept.ite h h)

theorem stopAlv_kept {why : BitVec 2} (h : Kept κ s) : Kept κ (s.stopAlv why) := by
  fun_cases State.stopAlv <;> exact h

theorem fatal_kept (h : Kept κ s) : Kept κ (s.fatal) := enterPc_kept (stopAlv_kept h)

theorem severe_kept {e : FaultEvent} {seqno : BitVec 32} {slot : Option Nat} (h : Kept κ s) : Kept κ (s.severe e seqno slot) := by
  fun_cases State.severe <;> exact h

theorem with_flt_kept {f : Flt} (h : Kept κ s) (hf : f.sources = s.flt.sources) : Kept κ { s with flt := f } :=
  ⟨h.form, h.counter, fun l hl => hf.trans (h.sources l hl)⟩

theorem mergeEvent_kept {r : Reaction} {e : FaultEvent} {cls : Nat} (h : Kept κ s) : Kept κ (s.mergeEvent r e cls) := by
  fun_cases State.mergeEvent
  · exact fatal_kept h
  · exact h

theorem record_kept {e : FaultEvent} {own : Nat} {esc logged : Bool} (h : Kept κ s) : Kept κ (s.record e own esc logged) := by
  unfold State.record
  extract_lets cls f due written n slot seqno kept first entered corrected told ended r
  have hkept : kept.sources = f.sources := by
    dsimp only [kept]
    split
    · rfl
    · split <;> rfl
  have hfirst : first.sources = kept.sources := by
    dsimp only [first]
    split <;> rfl
  have hentered : Kept κ entered := with_flt_kept h (hfirst.trans hkept)
  have htold : Kept κ told := Kept.ite (hostInt_kept (Kept.ite hentered hentered)) (Kept.ite hentered hentered)
  have hended : Kept κ ended := by
    refine Kept.ite ?_ htold
    split
    · exact abortCtx_kept htold
    · exact htold
  exact Kept.ite (severe_kept hended) (Kept.ite (fatal_kept hended) hended)

theorem arrivalAt_kept {e : FaultEvent} {injected : Bool} (hκ : κ.sources = none) (h : Kept κ s) :
    Kept κ (s.arrivalAt e injected) := by
  fun_cases State.arrivalAt
  · exact mergeEvent_kept (h.unwatched hκ)
  · exact record_kept (h.unwatched hκ)

theorem spoil_kept {e : FaultEvent} (h : Kept κ s) : Kept κ (s.spoil e) := by
  fun_cases State.spoil
  · exact h
  · exact KeptOf.poison h
  · exact h
  · exact h
  · exact h

theorem execFaultArrival_kept {p : HubId} {ext : Option FaultEvent} {cycles : Nat} (hκ : κ.sources = none) (h : Kept κ s) :
    KeptNext κ (execFaultArrival p ext cycles s) := by
  have hspoiled : Kept κ (match ext with | some e => s.spoil e | none => s) := by
    split
    · exact spoil_kept h
    · exact h
  fun_cases execFaultArrival
  · exact h
  · exact hspoiled.unwatched hκ
  · exact arrivalAt_kept hκ (hspoiled.unwatched hκ)

theorem execWindowRoll_kept {src : Fin 32} (hκ : κ.sources = none) (h : Kept κ s) : KeptNext κ (execWindowRoll src s) := by
  fun_cases execWindowRoll
  · exact h
  · exact h.unwatched hκ

theorem execReactionEnd_kept (h : Kept κ s) : KeptNext κ (execReactionEnd s) := by
  fun_cases execReactionEnd <;> exact h

theorem execReactionOverdue_kept {cycles : Nat} (hκ : κ.sources = none) (h : Kept κ s) :
    KeptNext κ (execReactionOverdue cycles s) := by
  fun_cases execReactionOverdue
  · exact h
  · exact h.unwatched hκ
  · exact arrivalAt_kept hκ (h.unwatched hκ)
  · exact h.unwatched hκ

theorem execFltSrcCfgWrite_kept {src : Fin 32} {v : BitVec 64} (hκ : κ.sources = none) (h : Kept κ s) :
    KeptNext κ (execFltSrcCfgWrite src v s) :=
  bar0Write_kept h (fun h => h.unwatched hκ)

theorem execInject_kept (hκ : κ.sources = none) (h : Kept κ s) : KeptNext κ (execInject s) :=
  bar0Write_kept h (fun h => Kept.ite h (arrivalAt_kept hκ h))

theorem execUnfreeze_kept (h : Kept κ s) : KeptNext κ (execUnfreeze s) := bar0Write_kept h (fun h => Kept.ite h h)

theorem execAlvToggle_kept (h : Kept κ s) : KeptNext κ (execAlvToggle s) := by
  fun_cases execAlvToggle
  · exact h
  · exact h
  · exact stopAlv_kept h

theorem execAlvRefresh_kept (h : Kept κ s) : KeptNext κ (execAlvRefresh s) := by
  fun_cases execAlvRefresh <;> exact h

/-! ### Power -/

theorem execRailReport_kept {rail : RailId} {mw : Nat} (h : Kept κ s) : KeptNext κ (execRailReport rail mw s) := by
  fun_cases execRailReport <;> exact h

theorem execTelemetryTimeout_kept {rail : RailId} (h : Kept κ s) : KeptNext κ (execTelemetryTimeout rail s) := by
  fun_cases execTelemetryTimeout <;> exact h

theorem setDie_kept {d : Nat} {x : DiePwr} (h : Kept κ s) : Kept κ (s.setDie d x) := h

theorem capChanged_kept {old : Nat} (h : Kept κ s) : Kept κ (s.capChanged old) := by
  fun_cases State.capChanged
  · exact h
  · exact hostInt_kept h

theorem setPackageCap_kept {w : Nat} (h : Kept κ s) : Kept κ (s.setPackageCap w) := by
  fun_cases State.setPackageCap
  · exact h
  · exact capChanged_kept h

theorem execPwrCapWrite_kept {v : BitVec 64} (h : Kept κ s) : KeptNext κ (execPwrCapWrite v s) :=
  bar0Write_kept h (fun h => capChanged_kept (with_pwr_kept h))

theorem execPwrModeWrite_kept {v : BitVec 64} (h : Kept κ s) : KeptNext κ (execPwrModeWrite v s) := bar0Write_kept h id

theorem thermDie_kept {d : Nat} (h : Kept κ s) : Kept κ (s.thermDie d) := by
  fun_cases State.thermDie
  · exact h
  · exact hostInt_kept h
  · exact h
  · exact h

theorem execSensorRead_kept {r : RailId} {temp : Int} {alert : Bool} (h : Kept κ s) : KeptNext κ (execSensorRead r temp alert s) := by
  fun_cases execSensorRead <;> exact h

theorem execThermalTrip_kept {i : IslandId} {temp : Int} (h : Kept κ s) : KeptNext κ (execThermalTrip i temp s) := by
  fun_cases execThermalTrip
  · exact h
  next u _ =>
    dsimp only [u]
    split
    · exact Kept.ite (closeIsland_kept (Kept.ite (stopAlv_kept (Kept.ite h h)) (Kept.ite h h)))
        (closeIsland_kept (Kept.ite (stopAlv_kept (Kept.ite h h)) (Kept.ite h h)))
    · exact closeIsland_kept (Kept.ite (stopAlv_kept (Kept.ite h h)) (Kept.ite h h))
  next u _ =>
    refine enterPc_kept ?_
    dsimp only [u]
    split
    · exact Kept.ite (closeIsland_kept (Kept.ite (stopAlv_kept (Kept.ite h h)) (Kept.ite h h)))
        (closeIsland_kept (Kept.ite (stopAlv_kept (Kept.ite h h)) (Kept.ite h h)))
    · exact closeIsland_kept (Kept.ite (stopAlv_kept (Kept.ite h h)) (Kept.ite h h))

theorem dieClocks_kept {d : Nat} {held : Bool} (h : Kept κ s) : Kept κ (s.dieClocks d held) := by
  fun_cases State.dieClocks <;> exact h

theorem execHeliostatPeriod_kept {waits : List (Nat × Nat)} (h : Kept κ s) : KeptNext κ (execHeliostatPeriod waits s) := by
  unfold execHeliostatPeriod
  split
  · exact h
  · generalize List.range 16 = dies
    extract_lets old rep low begun heated p ds w b share moved final held shared
    have hbegun : Kept κ begun := h
    have hheated : Kept κ heated := Kept.foldl hbegun (fun _ _ h => Kept.ite (thermDie_kept h) h)
    have hshared : Kept κ shared := Kept.foldl hheated (fun _ _ h => setDie_kept h)
    exact Kept.foldl hshared (fun _ _ h => dieClocks_kept h)

theorem execRepeatableLouvreTick_kept (h : Kept κ s) : KeptNext κ (execRepeatableLouvreTick s) := by
  fun_cases execRepeatableLouvreTick
  · exact h
  · exact Kept.foldl h (fun _ _ h => h)

theorem execDieAgentTick_kept {d : DieId} (h : Kept κ s) : KeptNext κ (execDieAgentTick d s) := by
  fun_cases execDieAgentTick <;> exact h

theorem execVoltageReached_kept {d : DieId} {k : Fin 4} (h : Kept κ s) : KeptNext κ (execVoltageReached d k s) := by
  fun_cases execVoltageReached <;> exact h

theorem execDroopDetect_kept {d : DieId} {k : Fin 4} (h : Kept κ s) : KeptNext κ (execDroopDetect d k s) := by
  fun_cases execDroopDetect <;> exact h

theorem powerHint_kept {f : FnId} {r : RingId} {q : PktSeq} {kind : Nat} (h : Kept κ s) : KeptNext κ (s.powerHint f r q kind) :=
  packet_kept h (fun h => finish_kept (Kept.ite h h))

theorem execPowerHintHeavy_kept {f : FnId} {r : RingId} {q : PktSeq} (h : Kept κ s) : KeptNext κ (execPowerHintHeavy f r q s) :=
  powerHint_kept h

theorem execPowerHintLight_kept {f : FnId} {r : RingId} {q : PktSeq} (h : Kept κ s) : KeptNext κ (execPowerHintLight f r q s) :=
  powerHint_kept h

theorem execPowerHintClear_kept {f : FnId} {r : RingId} {q : PktSeq} (h : Kept κ s) : KeptNext κ (execPowerHintClear f r q s) :=
  powerHint_kept h

theorem execPhaseMark_kept {heavy : Bool} (h : Kept κ s) : KeptNext κ (execPhaseMark heavy s) := by
  fun_cases execPhaseMark <;> exact h

theorem execShutterWave_kept (h : Kept κ s) : KeptNext κ (execShutterWave s) := by
  fun_cases execShutterWave <;> exact h

theorem execRegFail_kept {rail : RailId} {word : BitVec 32} (h : Kept κ s) : KeptNext κ (execRegFail rail word s) := by
  fun_cases execRegFail
  · exact h
  · exact h
  · exact closeIsland_kept (Kept.ite (stopAlv_kept h) h)
  · exact KeptOf.zero h

theorem execRefclkLoss_kept (h : Kept κ s) : KeptNext κ (execRefclkLoss s) := by
  fun_cases execRefclkLoss <;> exact h

theorem execInputVoltageWarn_kept {mv : Nat} (hκ : κ.sources = none) (h : Kept κ s) : KeptNext κ (execInputVoltageWarn mv s) := by
  fun_cases execInputVoltageWarn
  · exact powerOff_kept hκ h
  · exact h
  · exact h
  · exact h

theorem execPowerRemoved_kept (hκ : κ.sources = none) (h : Kept κ s) : KeptNext κ (execPowerRemoved s) := powerOff_kept hκ h

theorem sideband_kept {cmd : Nat} {tag b2 b3 : BitVec 8} {early : Bool} {k : State → Option Bytes × State} (h : Kept κ s)
    (hk : ∀ {s}, Kept κ s → Kept κ (k s).2) : KeptNext κ (s.sideband cmd tag b2 b3 early k) := by
  fun_cases State.sideband
  · exact h
  · exact h
  · exact h
  next e =>
    have h1 := Kept.of_eq e (hk h)
    exact h1
  next e =>
    have h1 := Kept.of_eq e (hk h)
    exact h1

theorem execSetCap_kept {tag b2 b3 : BitVec 8} {capW : BitVec 16} (h : Kept κ s) : KeptNext κ (execSetCap tag b2 b3 capW s) :=
  sideband_kept h (fun h => Kept.ite (setPackageCap_kept h) (Kept.ite h h))

theorem execGetStatus_kept {tag b2 b3 : BitVec 8} (h : Kept κ s) : KeptNext κ (execGetStatus tag b2 b3 s) :=
  sideband_kept h id

theorem execReadNightLog_kept {tag b2 b3 first count : BitVec 8} (h : Kept κ s) :
    KeptNext κ (execReadNightLog tag b2 b3 first count s) :=
  sideband_kept h (fun h => Kept.ite_snd h h)

theorem execGetThermal_kept {tag b2 b3 : BitVec 8} (h : Kept κ s) : KeptNext κ (execGetThermal tag b2 b3 s) :=
  sideband_kept h id

end

end Sys2Proof.Proofs
end

section
/-! PROOFS. What no command gives up, function by function: bring-up, the mirror, security, the registers and, with them,
every command (13, 14, 17, 18). -/

namespace Sys2Proof.Proofs

open Sys2Proof Sys2Proof.Machine

section
variable {κ : Watch} {s : State}

/-! ### Bring-up -/

theorem nextStage_kept {n : Nat} {l : List Nat} (h : Kept κ s) : Kept κ (s.nextStage n l) := h

theorem unitFailed_kept {stage unit : Nat} (h : Kept κ s) : Kept κ (s.unitFailed stage unit) := by
  fun_cases State.unitFailed <;> exact h

theorem execStageB0_kept (h : Kept κ s) : KeptNext κ (execStageB0 s) := by
  fun_cases execStageB0 <;> exact h

theorem execStageB1_kept (h : Kept κ s) : KeptNext κ (execStageB1 s) := by
  fun_cases execStageB1 <;> exact h

theorem execStageB2_kept {ok : Bool} {ids : List (BitVec 32)} (h : Kept κ s) : KeptNext κ (execStageB2 ok ids s) := by
  fun_cases execStageB2 <;> exact h

theorem execStageB3_kept {rec : BootRecord} (h : Kept κ s) : KeptNext κ (execStageB3 rec s) := by
  fun_cases execStageB3
  · exact h
  · exact h
  · exact h
  next u =>
    dsimp only [u]
    split
    · exact setPackageCap_kept h
    · exact h

theorem execStageB4_kept {res : B4Result} (h : Kept κ s) : KeptNext κ (execStageB4 res s) := by
  fun_cases execStageB4
  · exact h
  · exact Kept.foldl h (fun _ _ h => unitFailed_kept h)

theorem holdOut_kept {d : Nat} (h : Kept κ s) : Kept κ (s.holdOut d) := by
  fun_cases State.holdOut
  · exact h
  · exact Kept.foldl (unitFailed_kept h) (fun _ _ h => closeIsland_kept h)

theorem execStageB5_kept {res : B5Result} (h : Kept κ s) : KeptNext κ (execStageB5 res s) := by
  unfold execStageB5
  split
  · exact h
  · generalize List.range 576 = slots
    generalize List.range 16 = dies
    extract_lets wkt boot set reported held live placed
    have hset : Kept κ set := h
    have hreported : Kept κ reported := Kept.foldl hset (fun _ _ h => h)
    have hheld : Kept κ held := Kept.foldl hreported (fun _ _ h => holdOut_kept h)
    exact nextStage_kept (Kept.foldl hheld (fun _ _ h => setSlots_kept h))

theorem execStageB6_kept {ms : Nat} (h : Kept κ s) : KeptNext κ (execStageB6 ms s) := by
  fun_cases execStageB6
  · exact h
  next st key drawn set reported =>
    have hset : Kept κ set := by
      refine ⟨h.form, h.counter.trans ?_, h.sources⟩
      show s.sec.antiRollback.toNat ≤ (if s.sec.antiRollback.toNat ≤ s.sec.svn.toNat then s.sec.svn else s.sec.antiRollback).toNat
      split
      · assumption
      · exact Nat.le_refl _
    exact sendReady_kept (Kept.ite hset hset)

theorem execStageBoundExpiry_kept {stage : Fin 7} {unit : Nat} (h : Kept κ s) : KeptNext κ (execStageBoundExpiry stage unit s) := by
  fun_cases execStageBoundExpiry
  · exact h
  · exact h
  · exact unitFailed_kept h
  · exact holdOut_kept h
  · exact h

/-! ### The mirror -/

theorem letGo_kept (h : Kept κ s) : Kept κ (s.letGo) := releaseHolds_kept h

theorem pairFail_kept (h : Kept κ s) : Kept κ (s.pairFail) := by
  fun_cases State.pairFail
  · exact finish_kept (unpair_kept h)
  · exact unpair_kept h

theorem judgeHello_kept (h : Kept κ s) : Kept κ (s.judgeHello) := by
  fun_cases State.judgeHello
  · exact h
  · exact pairFail_kept h
  · exact h

theorem copyCtx_kept {tag : Nat} (h : Kept κ s) : Kept κ (s.copyCtx tag) := by
  fun_cases State.copyCtx
  · exact Kept.foldl h (fun _ _ h => sendFrame_kept h)
  · exact h

theorem bindCtx_kept {tag peer : Nat} (h : Kept κ s) : Kept κ (s.bindCtx tag peer) := by
  fun_cases State.bindCtx
  · exact h
  · exact sendFrame_kept (setMirSt_kept h)
  · exact letGo_kept (copyCtx_kept (sendFrame_kept (setMirSt_kept h)))

theorem mirOp_kept {f : FnId} {r : RingId} {q : PktSeq} {op : Nat} {k : Pkt → State → State} (h : Kept κ s)
    (hk : ∀ {x s}, Kept κ s → Kept κ (k x s)) : KeptNext κ (s.mirOp f r q op k) :=
  packet_kept h hk

theorem execMirrorStatus_kept {f : FnId} {r : RingId} {q : PktSeq} (h : Kept κ s) : KeptNext κ (execMirrorStatus f r q s) :=
  mirOp_kept h finish_kept

theorem execPair_kept {f : FnId} {r : RingId} {q : PktSeq} (h : Kept κ s) : KeptNext κ (execPair f r q s) :=
  mirOp_kept h (fun h => Kept.ite h (Kept.ite (finish_kept h)
    (Kept.ite (finish_kept h) (Kept.ite (judgeHello_kept (setMirSt_kept h)) (Kept.ite (finish_kept h) (finish_kept (bindCtx_kept h)))))))

theorem freeHoldsOf_kept {tag : Nat} (h : Kept κ s) : Kept κ (s.freeHoldsOf tag) := by
  unfold State.freeHoldsOf
  refine Kept.foldl h (fun _ _ h => Kept.ite h ?_)
  split
  · exact produce_kept (carryAll_kept h)
  · exact carryAll_kept h

theorem execUnpair_kept {f : FnId} {r : RingId} {q : PktSeq} (h : Kept κ s) : KeptNext κ (execUnpair f r q s) :=
  mirOp_kept h (fun h => Kept.ite (finish_kept h) (Kept.ite (finish_kept (pairFail_kept h))
    (finish_kept (Kept.ite (unpair_kept (freeHoldsOf_kept h)) (freeHoldsOf_kept h)))))

theorem execSetMode_kept {f : FnId} {r : RingId} {q : PktSeq} (h : Kept κ s) : KeptNext κ (execSetMode f r q s) :=
  mirOp_kept h (fun h => finish_kept (letGo_kept h))

theorem execResync_kept {f : FnId} {r : RingId} {q : PktSeq} (h : Kept κ s) : KeptNext κ (execResync f r q s) :=
  mirOp_kept h (fun h => Kept.ite (finish_kept h) (finish_kept (letGo_kept (Kept.foldl (setMirSt_kept h) (fun _ _ h => copyCtx_kept h)))))

theorem execPromote_kept {f : FnId} {r : RingId} {q : PktSeq} (h : Kept κ s) : KeptNext κ (execPromote f r q s) :=
  mirOp_kept h (fun h => Kept.ite (finish_kept h) (finish_kept (setMirSt_kept (Kept.ite (sendFrame_kept h) h))))

theorem frame_kept {hdr : FrameHdr} {typ : Nat} {tagOk : Bool} {k : State → Option State} (h : Kept κ s)
    (hk : ∀ {s t}, k s = some t → Kept κ s → Kept κ t) : KeptNext κ (s.frame hdr typ tagOk k) := by
  fun_cases State.frame
  · exact h
  next e => exact hk e h
  · exact h

theorem applied_kept {hdr : FrameHdr} {typ : Nat} {tagOk : Bool} {k : Nat → State → Option State} (h : Kept κ s)
    (hk : ∀ {x s t}, k x s = some t → Kept κ s → Kept κ t) : KeptNext κ (s.applied hdr typ tagOk k) := by
  refine frame_kept h (fun {s t} e h => ?_)
  split at e
  · exact hk e h
  · cases e
    exact h

theorem execHello_kept {hdr : FrameHdr} {b : HelloBody} (h : Kept κ s) : KeptNext κ (execHello hdr b s) := by
  fun_cases execHello
  · exact h
  · exact Kept.ite (judgeHello_kept h) h

theorem execFinish_kept {hdr : FrameHdr} {sigOk : Bool} (h : Kept κ s) : KeptNext κ (execFinish hdr sigOk s) := by
  fun_cases execFinish
  · exact h
  · exact h
  · exact pairFail_kept h
  · exact pairFail_kept h
  · split
    · exact finish_kept (Kept.foldl (setMirSt_kept h) (fun _ _ h => bindCtx_kept h))
    · exact Kept.foldl (setMirSt_kept h) (fun _ _ h => bindCtx_kept h)

theorem execBind_kept {hdr : FrameHdr} {tagOk : Bool} {p : JPayload} (h : Kept κ s) : KeptNext κ (execBind hdr tagOk p s) := by
  refine frame_kept h (fun {s t} e h => ?_)
  split at e
  · dsimp only at e
    split at e <;> cases e
    · exact h
    · exact setMirSt_kept h
  · cases e
    exact h

theorem dropMirrored_kept {slot : Nat} (h : Kept κ s) : Kept κ (s.dropMirrored slot) := freePages_kept h

theorem mirrorSeq_kept {tag slot : Nat} {m : MirSeq} (h : Kept κ s) : Kept κ (s.mirrorSeq tag slot m) := by
  fun_cases State.mirrorSeq
  · exact dropMirrored_kept h
  · exact h
  · exact freePages_kept (Kept.ite h (dropMirrored_kept h))
  · exact Kept.ite h (dropMirrored_kept h)

/-- Taking places one after another, each from what the last has left. -/
theorem takePlaces_kept {ctx home len : Nat} {l : List Nat} {o : Option (List Nat × List Nat × State)}
    (ho : ∀ {t}, o = some t → Kept κ t.2.2) :
    ∀ {t}, l.foldl (fun (a : Option (List Nat × List Nat × State)) _ =>
        a.bind (fun a => (a.2.2.takePlace ctx home a.2.1 len).map (fun t => (a.1 ++ [t.1], t.2.1, t.2.2)))) o = some t →
      Kept κ t.2.2 := by
  refine Kept.foldl_option ho (fun ho t e => ?_)
  obtain ⟨a, ea, e⟩ := Option.bind_eq_some_iff.mp e
  obtain ⟨b, eb, rfl⟩ := Option.map_eq_some_iff.mp e
  exact takePlace_kept eb (ho ea)

theorem mirrorPlace_kept {slot : Nat} {ring : Bool} {page : Nat} {avail : List Nat} {res : Nat × Nat × State}
    (he : s.mirrorPlace slot ring page avail = some res) (h : Kept κ s) : Kept κ res.2.2 := by
  unfold State.mirrorPlace at he
  split at he
  · split at he
    · split at he
      · cases he
        exact h
      · obtain ⟨a, ea, rfl⟩ := Option.map_eq_some_iff.mp he
        exact putSeq_kept (takePlace_kept ea h)
    · obtain ⟨a, ea, rfl⟩ := Option.map_eq_some_iff.mp he
      have hgrown := takePlaces_kept (fun e => by cases e; exact h) ea
      exact putSeq_kept hgrown
  · cases he

theorem mirrorKv_kept {tag slot : Nat} {ring : Bool} {page off : Nat} {data : Bytes} {avail : List Nat} {res : State}
    (he : s.mirrorKv tag slot ring page off data avail = some res) (h : Kept κ s) : Kept κ res := by
  unfold State.mirrorKv at he
  split at he
  · cases he
    exact h
  · obtain ⟨a, ea, rfl⟩ := Option.map_eq_some_iff.mp he
    exact Kept.ite (mirrorPlace_kept ea h) (Kept.foldl (mirrorPlace_kept ea h) (fun _ _ h => storeLine_kept h))

theorem mirrorKey_kept {tag slot : Nat} {key : Bytes} (h : Kept κ s) : Kept κ (s.mirrorKey tag slot key) := by
  fun_cases State.mirrorKey <;> exact h

theorem mirrorSession_kept {tag : Nat} {p : JPayload} (h : Kept κ s) : Kept κ (s.mirrorSession tag p) := by
  fun_cases State.mirrorSession <;> exact h

theorem mirrorCommit_kept {tag : Nat} {l : List (BitVec 15 × List Nat)} (h : Kept κ s) : Kept κ (s.mirrorCommit tag l) := by
  unfold State.mirrorCommit
  refine Kept.foldl h (fun _ _ h => ?_)
  split
  · exact Kept.ite h h
  · exact h

theorem execCommandFrame_kept {hdr : FrameHdr} {tagOk : Bool} {p : JPayload} (h : Kept κ s) :
    KeptNext κ (execCommandFrame hdr tagOk p s) := by
  refine applied_kept h (fun {tag s t} e h => ?_)
  split at e
  · dsimp only at e
    split at e <;> cases e <;> exact h
  · cases e
    exact h

theorem execSequenceFrame_kept {hdr : FrameHdr} {tagOk : Bool} {p : JPayload} (h : Kept κ s) :
    KeptNext κ (execSequenceFrame hdr tagOk p s) := by
  refine applied_kept h (fun {tag s t} e h => ?_)
  split at e <;> cases e
  · exact mirrorSeq_kept h
  · exact h

theorem execKvFrame_kept {hdr : FrameHdr} {tagOk : Bool} {p : JPayload} {avail : List Nat} (h : Kept κ s) :
    KeptNext κ (execKvFrame hdr tagOk p avail s) := by
  refine applied_kept h (fun {tag s t} e h => ?_)
  split at e
  · exact mirrorKv_kept e h
  · cases e
    exact h

theorem execSamplerFrame_kept {hdr : FrameHdr} {tagOk : Bool} {p : JPayload} (h : Kept κ s) :
    KeptNext κ (execSamplerFrame hdr tagOk p s) := by
  refine applied_kept h (fun {tag s t} e h => ?_)
  split at e <;> cases e
  · exact mirrorKey_kept h
  · exact h

theorem execSessionFrame_kept {hdr : FrameHdr} {tagOk : Bool} {p : JPayload} (h : Kept κ s) :
    KeptNext κ (execSessionFrame hdr tagOk p s) := by
  refine applied_kept h (fun {tag s t} e h => ?_)
  cases e
  exact mirrorSession_kept h

theorem execCommitFrame_kept {hdr : FrameHdr} {tagOk : Bool} {p : JPayload} (h : Kept κ s) :
    KeptNext κ (execCommitFrame hdr tagOk p s) := by
  refine applied_kept h (fun {tag s t} e h => ?_)
  split at e <;> cases e
  · exact mirrorCommit_kept h
  · exact h

theorem execResyncFrame_kept {hdr : FrameHdr} {tagOk : Bool} {p : JPayload} {avail : List Nat} (h : Kept κ s) :
    KeptNext κ (execResyncFrame hdr tagOk p avail s) := by
  refine applied_kept h (fun {tag s t} e h => ?_)
  dsimp only at e
  split at e
  · cases e
    exact mirrorSeq_kept (setMirSt_kept h)
  · exact mirrorKv_kept e (setMirSt_kept h)
  · cases e
    exact mirrorKey_kept (setMirSt_kept h)
  · cases e
    exact mirrorSession_kept (setMirSt_kept h)

theorem execAck_kept {hdr : FrameHdr} {tagOk : Bool} {p : JPayload} (h : Kept κ s) : KeptNext κ (execAck hdr tagOk p s) := by
  refine frame_kept h (fun {s t} e h => ?_)
  split at e
  · split at e <;> cases e
    · exact h
    · exact letGo_kept (pushFrames_kept (with_mir_kept h))
  · cases e
    exact h

theorem execAckTimer_kept (h : Kept κ s) : KeptNext κ (execAckTimer s) := by
  fun_cases execAckTimer
  · exact h
  · exact sendFrame_kept h

theorem execJournalResend_kept (h : Kept κ s) : KeptNext κ (execJournalResend s) := by
  fun_cases execJournalResend <;> exact h

theorem execMirrorSilence_kept (h : Kept κ s) : KeptNext κ (execMirrorSilence s) := by
  fun_cases execMirrorSilence
  · exact letGo_kept (setMirSt_kept h)
  · exact h

theorem execResyncComplete_kept (h : Kept κ s) : KeptNext κ (execResyncComplete s) := by
  fun_cases execResyncComplete
  · exact letGo_kept (setMirSt_kept h)
  · exact h

theorem execReceiveWindowOverrun_kept (h : Kept κ s) : KeptNext κ (execReceiveWindowOverrun s) := by
  fun_cases execReceiveWindowOverrun <;> exact h

theorem execTakeover_kept {hdr : FrameHdr} {tagOk : Bool} {p : JPayload} (h : Kept κ s) :
    KeptNext κ (execTakeover hdr tagOk p s) := by
  refine frame_kept h (fun {s t} e h => ?_)
  split at e <;> cases e
  · exact h
  · exact Kept.foldl (unpair_kept (with_mir_kept h)) (fun _ _ h => Kept.ite (failSeq_kept h) h)

/-! ### Security -/

theorem execDoeRequest_kept {vendor : BitVec 16} {typ : BitVec 8} {len : Nat} (h : Kept κ s) :
    KeptNext κ (execDoeRequest vendor typ len s) :=
  cfgAccess_kept h id

theorem spdmAnswer_kept {m : SpdmMsg} (h : Kept κ s) : Kept κ (s.spdmAnswer m).2 := by
  fun_cases State.spdmAnswer <;> exact h

theorem execSpdmRequest_kept {m : SpdmMsg} (h : Kept κ s) : KeptNext κ (execSpdmRequest m s) :=
  cfgAccess_kept h spdmAnswer_kept

theorem execIdeKmRequest_kept {m : IdeMsg} (h : Kept κ s) : KeptNext κ (execIdeKmRequest m s) := by
  unfold execIdeKmRequest
  refine cfgAccess_kept h (fun h => Kept.ite h ?_)
  split
  · exact h
  · exact Kept.ite h h
  · exact h
  · exact h

theorem execLockInterfaceRequest_kept {f : FnId} {session : Option Nat} (h : Kept κ s) :
    KeptNext κ (execLockInterfaceRequest f session s) :=
  cfgAccess_kept h (fun h => Kept.ite h h)

theorem execTdispRequest_kept {f : FnId} {m : TdispMsg} (h : Kept κ s) : KeptNext κ (execTdispRequest f m s) := by
  unfold execTdispRequest
  refine cfgAccess_kept h (fun h => Kept.ite h ?_)
  split
  · exact h
  · exact h
  · exact h
  · exact h
  · exact Kept.ite h h
  · exact h
  · exact h

theorem execNewNonce_kept (h : Kept κ s) : KeptNext κ (execNewNonce s) := bar0Write_kept h id

theorem requestToken_kept (h : Kept κ s) : Kept κ (s.requestToken) := by
  fun_cases State.requestToken <;> exact h

theorem execDebugTokenRequest_kept (h : Kept κ s) : KeptNext κ (execDebugTokenRequest s) := bar0Write_kept h requestToken_kept

theorem endAll_kept (h : Kept κ s) : Kept κ (s.endAll).2 := Kept.foldl h (fun _ _ h => Kept.ite h (startDetach_kept h))

/-- The carve is made of whole granules. -/
theorem carvePa_granule (i : Nat) : carvePa (i * 2 ^ 21) % 2 ^ 21 = 0 := by
  have hstack : ∀ x : Nat, (x <<< 46) % 2 ^ 21 = 0 := fun x => by
    rw [Nat.shiftLeft_eq]
    omega
  have hoff : ∀ j : Nat, (2 ^ 36 - 2 ^ 21 * (j + 1) + 0) % 2 ^ 21 = 0 := fun j => by omega
  unfold carvePa hbmPa
  rw [Nat.mul_mod_left, Nat.mul_div_cancel _ (by decide)]
  dsimp only
  rw [Nat.or_mod_two_pow, hstack, hoff]
  rfl

theorem KeptOf.loseGranules {d : Nat} {l : List Nat} {m : Memory} {c : BitVec 32} {src : List FltSource}
    (h : KeptOf κ m c src) :
    KeptOf κ (l.foldl (fun m i => m.loseGranule (carvePa (i * 2 ^ 21)) (d + i)) m) c src :=
  KeptOf.foldl h (fun _ i h => h.mem (Memory.loseGranule_wf _ _ (carvePa_granule i)))

theorem loseCarve_kept (h : Kept κ s) : Kept κ s.loseCarve :=
  with_mem_kept (s := s.draw.2) (KeptOf.loseGranules h)

theorem openEyepiece_kept {scope : BitVec 8} (h : Kept κ s) : Kept κ (s.openEyepiece scope) := by
  unfold State.openEyepiece
  dsimp only
  exact loseCarve_kept (unpair_kept (dropImage_kept (Kept.foldl h (fun _ _ h => teardown_kept h))))

theorem execDebugTokenRead_kept {token : Option Bytes} {sigOk : Bool} (h : Kept κ s) :
    KeptNext κ (execDebugTokenRead token sigOk s) := by
  fun_cases execDebugTokenRead
  · exact h
  · exact Kept.ite (openEyepiece_kept (endAll_kept h)) (endAll_kept h)
  · exact h
  · exact Kept.ite (openEyepiece_kept (endAll_kept h)) (endAll_kept h)

theorem writeArith_kept {v : Nat} (h : Kept κ s) : Kept κ (s.writeArith v) := by
  fun_cases State.writeArith <;> exact h

theorem execDevArithWrite_kept {v : BitVec 32} (h : Kept κ s) : KeptNext κ (execDevArithWrite v s) :=
  bar0Write_kept h writeArith_kept

/-! ### Registers -/

theorem clearRc_kept {off : Nat} {lo hi : Bool} (hκ : κ.sources = none) (h : Kept κ s) : Kept κ (s.clearRc off lo hi) := by
  fun_cases State.clearRc <;> exact h.unwatched hκ

theorem execRegisterReadClear_kept {f : FnId} {bar : Bar} {off : BitVec 24} {size8 : Bool} (hκ : κ.sources = none) (h : Kept κ s) :
    KeptNext κ (execRegisterReadClear f bar off size8 s) := by
  fun_cases execRegisterReadClear
  · exact barAccess_kept h (fun h => Kept.ite h (Kept.ite (clearRc_kept hκ h) h))
  · exact barAccess_kept h (fun h => Kept.ite h (Kept.ite h h))
  · exact cfgAccess_kept h (fun h => Kept.ite h h)

theorem orElse_kept {r : Res} (hr : KeptNext κ r) (h : Kept κ s) : Kept κ (r.orElse s) := by
  unfold Res.orElse
  split
  · exact hr
  · exact h

theorem writeWkt_kept {v : Nat} {lo hi : Bool} (h : Kept κ s) : Kept κ (s.writeWkt v lo hi) := by
  fun_cases State.writeWkt
  · exact h
  · exact wktStart_kept h
  · exact h

theorem writeHst_kept {off v : Nat} (h : Kept κ s) : Kept κ (s.writeHst off v) := driveIntx_kept h

theorem writeSec_kept {off v : Nat} {lo hi : Bool} (h : Kept κ s) : Kept κ (s.writeSec off v lo hi) := by
  have hnonce : Kept κ (if bit v 0 then (execNewNonce s).orElse s else s) := Kept.ite (orElse_kept (execNewNonce_kept h) h) h
  fun_cases State.writeSec
  · exact h
  · exact requestToken_kept hnonce
  · exact hnonce
  · exact h
  · exact h

theorem writeFlt_kept {off v : Nat} {lo : Bool} (hκ : κ.sources = none) (h : Kept κ s) : Kept κ (s.writeFlt off v lo) := by
  fun_cases State.writeFlt
  · exact h
  · exact h.unwatched hκ
  · exact orElse_kept (execInject_kept hκ h) h
  · exact h
  · exact orElse_kept (execUnfreeze_kept h) h
  · exact h
  · exact orElse_kept (execFltSrcCfgWrite_kept hκ h) h
  · exact h

theorem writePwr_kept {off v : Nat} {lo hi : Bool} (h : Kept κ s) : Kept κ (s.writePwr off v lo hi) := by
  fun_cases State.writePwr
  · exact orElse_kept (execPwrCapWrite_kept h) h
  · exact h
  · exact orElse_kept (execPwrModeWrite_kept h) h
  · exact h
  · exact h
  · exact h
  · exact h

theorem writeMgmt_kept {off v : Nat} {lo hi : Bool} (hκ : κ.sources = none) (h : Kept κ s) : Kept κ (s.writeMgmt off v lo hi) := by
  fun_cases State.writeMgmt
  · exact writeArith_kept h
  · exact h
  · exact writeFlt_kept hκ h
  · exact h
  · exact writeHst_kept h
  · exact h
  · exact h
  · exact h
  · exact h
  · exact orElse_kept (execCohDcCfgWrite_kept h) h
  · exact orElse_kept (execCohHdmCfgWrite_kept h) h
  · exact h
  · exact h
  · exact writePwr_kept h
  · exact writeWkt_kept h
  · exact h
  · exact h
  · exact h
  · exact h
  · exact h
  · exact h
  · exact writeSec_kept h
  · exact h

theorem writeMsix_kept {f i w v : Nat} (h : Kept κ s) : Kept κ (s.writeMsix f i w v) := by
  fun_cases State.writeMsix
  · exact h
  · exact flushMsix_kept h

theorem writeBar0_kept {f off v : Nat} {lo hi : Bool} (hκ : κ.sources = none) (h : Kept κ s) : Kept κ (s.writeBar0 f off v lo hi) := by
  fun_cases State.writeBar0
  · exact writeMsix_kept (Kept.ite (writeMsix_kept h) h)
  · exact Kept.ite (writeMsix_kept h) h
  · exact h
  · exact writeMgmt_kept hκ h

theorem writeRing_kept {f : FnId} {r : RingId} {off v : Nat} (h : Kept κ s) : Kept κ (s.writeRing f r off v) := by
  have hcfg {p q : Prop} [Decidable p] [Decidable q] {y : Ring} :
      Kept κ (if p then s.tdiRingWrite f r else if q then s else s.setRing f r y) :=
    Kept.ite (tdiRingWrite_kept h) (Kept.ite h (setRing_kept h))
  have hable : Kept κ (if bit v 0 then (execRingEnable f r s).orElse s else (execRingDisable f r s).orElse s) :=
    Kept.ite (orElse_kept (execRingEnable_kept h) h) (orElse_kept (execRingDisable_kept h) h)
  fun_cases State.writeRing
  · exact orElse_kept (execSqDoorbell_kept h) h
  · exact orElse_kept (execCqDoorbell_kept h) h
  · exact hcfg
  · exact hcfg
  · exact hcfg
  · exact orElse_kept (execResume_kept hable) hable
  · exact hable
  · exact h

theorem writeCommand_kept {f v : Nat} (h : Kept κ s) : Kept κ (s.writeCommand f v) := by
  fun_cases State.writeCommand
  · exact driveIntx_kept (Kept.ite (bmeOn_kept (Kept.ite (setMse_kept h) h)) (bmeOff_kept (Kept.ite (setMse_kept h) h)))
  · exact Kept.ite (bmeOn_kept (Kept.ite (setMse_kept h) h)) (bmeOff_kept (Kept.ite (setMse_kept h) h))

theorem writeSriov_kept {v : Nat} (h : Kept κ s) : Kept κ (s.writeSriov v) := by
  unfold State.writeSriov
  extract_lets c set moved
  have hset : Kept κ set := h
  have hmoved : Kept κ moved := Kept.ite (setMse_kept hset) hset
  split
  · exact orElse_kept (execVfEnable_kept hmoved) hmoved
  · split
    · exact orElse_kept (execVfDisable_kept hmoved) hmoved
    · exact hmoved

theorem writePri_kept {f : FnId} {v : Nat} (h : Kept κ s) : Kept κ (s.writePri f v) := by
  unfold State.writePri
  extract_lets x cleared reset
  have hcleared : Kept κ cleared := Kept.ite h h
  have hreset : Kept κ reset := Kept.ite (orElse_kept (execAtsPriEnableClear_kept hcleared) hcleared) hcleared
  exact Kept.ite hreset (Kept.ite (orElse_kept (execAtsPriEnableClear_kept hreset) hreset) hreset)

theorem writeDvsec_kept {off v : Nat} (h : Kept κ s) : Kept κ (s.writeDvsec off v) := by
  have hcleared : Kept κ (if bit v 0 then (execPcClear s).orElse s else s) := Kept.ite (orElse_kept (execPcClear_kept h) h) h
  fun_cases State.writeDvsec
  · exact h
  · exact orElse_kept (execPcForce_kept hcleared) hcleared
  · exact hcleared
  next asked _ =>
    have hasked : Kept κ asked := Kept.ite h h
    exact orElse_kept (execRemoveRequest_kept hasked) hasked
  next asked _ =>
    have hasked : Kept κ asked := Kept.ite h h
    exact orElse_kept (execRemoveCancel_kept hasked) hasked
  · exact h

theorem writeCfg_kept {f : FnId} {off v : Nat} (h : Kept κ s) : Kept κ (s.writeCfg f off v) := by
  fun_cases State.writeCfg
  · exact writeCommand_kept h
  · exact h
  · exact orElse_kept (execD3hotEntry_kept h) h
  · exact orElse_kept (execD0Entry_kept h) h
  · exact h
  · exact orElse_kept (execInitiateFlr_kept (setCfg_kept h)) (setCfg_kept h)
  · exact h
  · exact h
  · exact flushMsix_kept (Kept.ite (driveIntx_kept (setFn_kept h)) (setFn_kept h))
  · exact h
  · exact h
  · exact writeSriov_kept h
  · exact h
  · exact h
  · exact h
  · exact h
  · exact orElse_kept (execAtsPriEnableClear_kept (setCfg_kept h)) (setCfg_kept h)
  · exact h
  · exact writePri_kept h
  · exact h
  next set _ =>
    have hset : Kept κ set := Kept.ite (setCfg_kept h) h
    exact orElse_kept (execCacheEnable_kept hset) hset
  · exact Kept.ite h h
  · exact orElse_kept (execCacheWbi_kept h) h
  · exact h
  · exact Kept.ite (writeDvsec_kept h) (Kept.ite h h)
  · exact Kept.ite (writeDvsec_kept h) (Kept.ite h h)
  · exact Kept.ite (writeDvsec_kept h) (Kept.ite h h)

theorem execRegisterWrite_kept {f : FnId} {bar : Bar} {off : BitVec 24} {size8 : Bool} {v : BitVec 64}
    (hκ : κ.sources = none) (h : Kept κ s) : KeptNext κ (execRegisterWrite f bar off size8 v s) := by
  fun_cases execRegisterWrite
  · exact barAccess_kept h (fun h => Kept.ite h (writeBar0_kept hκ h))
  · exact barAccess_kept h (fun h => Kept.ite h (writeRing_kept h))
  · exact cfgAccess_kept h (fun h => Kept.ite h (writeCfg_kept h))

/-! ### Every command -/

theorem exec_kept {i : Instr} (hκ : κ.sources = none) (h : Kept κ s) : KeptNext κ (exec i s) := by
  fun_cases exec
  · exact execLoad_kept h
  · exact execStore_kept h
  · exact execStoreBufferDrain_kept h
  · exact execAmo_kept h
  · exact execLr_kept h
  · exact execSc_kept h
  · exact h
  · exact execFence_kept h
  · exact execFenceI_kept h
  · exact execCsrAccess_kept h
  · exact execEbreak_kept h
  · exact execExit_kept h
  · exact execReport_kept h
  · exact execRendezvous_kept h
  · exact execRendezvousReturn_kept h
  · exact execTakeInterrupt_kept h
  · exact execWcyccmpMatch_kept h
  · exact execProgramEnd_kept h
  · exact execEdisp_kept h
  · exact execCommandStart_kept h
  · exact execOperandRelease_kept h
  · exact execCommandCompletion_kept h
  · exact execEwait_kept h
  · exact execEwaitReturn_kept h
  · exact execEqstat_kept h
  · exact execEclr_kept h
  · exact execSemsig_kept h
  · exact execSemwait_kept h
  · exact execSemwaitGrant_kept h
  · exact execSemtry_kept h
  · exact execSemrd_kept h
  · exact execSemset_kept h
  · exact execLbar_kept h
  · exact execSbar_kept h
  · exact execFbar_kept h
  · exact execBarrierMarkerComplete_kept h
  · exact execBarrierTimeout_kept h
  · exact execStoreTimeout_kept h
  · exact execAmofaddS_kept h
  · exact execAmofmaxS_kept h
  · exact execAmofaddBf_kept h
  · exact execAmofmaxBf_kept h
  · exact execMnop_kept h
  · exact execMmul_kept h
  · exact execMdrain_kept h
  · exact execMcbload_kept h
  · exact execVnop_kept h
  · exact execVadd_kept h
  · exact execVsub_kept h
  · exact execVmul_kept h
  · exact execVfma_kept h
  · exact execVmax_kept h
  · exact execVmin_kept h
  · exact execVcvt_kept h
  · exact execVsfu_kept h
  · exact execVgsilu_kept h
  · exact execVrope_kept h
  · exact execVrmax_kept h
  · exact execVrsum_kept h
  · exact execVrssq_kept h
  · exact execVsmax_kept h
  · exact execVtopk_kept h
  · exact execDnop_kept h
  · exact execCopy_kept h
  · exact execStrided_kept h
  · exact execGather_kept h
  · exact execScatter_kept h
  · exact execKvput_kept h
  · exact execKvget_kept h
  · exact execExchange_kept h
  · exact execCombine_kept h
  · exact execReduce_kept h
  · exact execCollectiveTimeout_kept h
  · exact execPrefetchLevel0_kept h
  · exact execPrefetchLevel1_kept h
  · exact execPrefetchLevel2_kept h
  · exact execPrefetchLevel3_kept h
  · exact execFinderRankTimeout_kept h
  · exact execFinderStagingDone_kept h
  · exact execTileStart_kept h
  · exact execTargetTimeout_kept h
  · exact execOwnershipEntryWrite_kept h
  · exact h
  · exact h
  · exact h
  · exact execPatrolScrub_kept h
  · exact execAtsCompletion_kept h
  · exact execPageRequest_kept h
  · exact execPageRequestResponse_kept h
  · exact execPageRequestOverdue_kept h
  · exact execInvalidationRequest_kept h
  · exact execInvalidationCompletion_kept h
  · exact execGets_kept h
  · exact execGetm_kept h
  · exact execPutm_kept h
  · exact h
  · exact execForward_kept h
  · exact execInvalidate_kept h
  · exact execInvalidateAck_kept h
  · exact execNackRetry_kept h
  · exact execHomeWaitTimeout_kept h
  · exact execBisnpResponse_kept h
  · exact execHostCxlMemRead_kept h
  · exact execHostCxlMemWrite_kept h
  · exact execSnpdata_kept h
  · exact execSnpinv_kept h
  · exact execSnpcur_kept h
  · exact execHostCacheResponse_kept h
  · exact execCacheEnable_kept h
  · exact execCacheWbi_kept h
  · exact execCacheWbiDone_kept h
  · exact h
  · exact execCohDcCfgWrite_kept h
  · exact execCohHdmCfgWrite_kept h
  · exact execCarveChangeDone_kept h
  · exact execDecoderCommit_kept h
  · exact execSqDoorbell_kept h
  · exact execCqDoorbell_kept h
  · exact execRingEnable_kept h
  · exact execRingDisable_kept h
  · exact execRingDrainDone_kept h
  · exact execResume_kept h
  · exact execPacketRead_kept h
  · exact execPhaseReread_kept h
  · exact execTornReread_kept h
  · exact execCompletionWrite_kept h
  · exact execMsixUnmask_kept h
  · exact execIdentify_kept h
  · exact execAttachContext_kept h
  · exact execDetachContext_kept h
  · exact execDetachComplete_kept h
  · exact execLoadModel_kept h
  · exact execLoadModelComplete_kept h
  · exact execUnloadModel_kept h
  · exact execOpenSequence_kept h
  · exact execAppendTokens_kept h
  · exact execGenerate_kept h
  · exact execCancelSequence_kept h
  · exact execCancelProgram_kept h
  · exact execCloseSequence_kept h
  · exact execForkSequence_kept h
  · exact execSnapshotSequence_kept h
  · exact execRestoreSequence_kept h
  · exact execRunProgram_kept h
  · exact execPrefetchTranslate_kept h
  · exact execPrefetchTranslateFaults_kept h
  · exact execPrefetchCopy_kept h
  · exact execAdviseAdd_kept h
  · exact execAdviseRemove_kept h
  · exact execAdviseClear_kept h
  · exact execFlush_kept h
  · exact execFenceRing_kept h
  · exact execFenceContext_kept h
  · exact execPowerHintHeavy_kept h
  · exact execPowerHintLight_kept h
  · exact execPowerHintClear_kept h
  · exact h
  · exact execSealSessionInstall_kept h
  · exact execSealSessionDestroy_kept h
  · exact execMirrorStatus_kept h
  · exact execPair_kept h
  · exact execUnpair_kept h
  · exact execSetMode_kept h
  · exact execResync_kept h
  · exact execPromote_kept h
  · exact execQuerySequenceCounts_kept h
  · exact execQuerySequences_kept h
  · exact execQueryFinder_kept h
  · exact execQueryRegulators_kept h
  · exact execQueryTranslationCaches_kept h
  · exact execQueryRingCounts_kept h
  · exact execDiagnoseEcho_kept h
  · exact execDiagnoseNightLog_kept h
  · exact execStepBoundary_kept h
  · exact execDraftSample_kept h
  · exact execSample_kept h
  · exact execVerifyDrafts_kept h
  · exact execStepCommit_kept h
  · exact execInitiateFlr_kept h
  · exact execFlrQuiesceDone_kept h
  · exact execVfEnable_kept h
  · exact execVfDisable_kept h
  · exact execD3hotEntry_kept h
  · exact execD0Entry_kept h
  · exact execBusMasterDisable_kept h
  · exact execHotReset_kept hκ h
  · exact execFundamentalReset_kept hκ h
  · exact execLinkUp_kept h
  · exact execLinkDown_kept hκ h
  · exact execHostLinkError_kept h
  · exact execPoisonedRequest_kept h
  · exact execPcForce_kept h
  · exact execPcClear_kept h
  · exact execRemoveRequest_kept h
  · exact execRemoveCancel_kept h
  · exact execRemoveReady_kept h
  · exact execCxlioCompletion_kept h
  · exact execCompletionTimeout_kept h
  · exact execDoeRequest_kept h
  · exact execSpdmRequest_kept h
  · exact execIdeKmRequest_kept h
  · exact execLockInterfaceRequest_kept h
  · exact execTdispRequest_kept h
  · exact execNewNonce_kept h
  · exact execDebugTokenRequest_kept h
  · exact execDebugTokenRead_kept h
  · exact execDevArithWrite_kept h
  · exact execRailReport_kept h
  · exact execTelemetryTimeout_kept h
  · exact execPwrCapWrite_kept h
  · exact execPwrModeWrite_kept h
  · exact execHeliostatPeriod_kept h
  · exact execRepeatableLouvreTick_kept h
  · exact execDieAgentTick_kept h
  · exact execVoltageReached_kept h
  · exact execDroopDetect_kept h
  · exact h
  · exact execSensorRead_kept h
  · exact execThermalTrip_kept h
  · exact execShutterWave_kept h
  · exact execRegFail_kept h
  · exact execRefclkLoss_kept h
  · exact execInputVoltageWarn_kept hκ h
  · exact execPowerRemoved_kept hκ h
  · exact execSetCap_kept h
  · exact execGetStatus_kept h
  · exact execReadNightLog_kept h
  · exact execGetThermal_kept h
  · exact execStageB0_kept h
  · exact execStageB1_kept h
  · exact execStageB2_kept h
  · exact execStageB3_kept h
  · exact execStageB4_kept h
  · exact execStageB5_kept h
  · exact execStageB6_kept h
  · exact execStageBoundExpiry_kept h
  · exact execFaultArrival_kept hκ h
  · exact execWindowRoll_kept hκ h
  · exact execReactionEnd_kept h
  · exact execReactionOverdue_kept hκ h
  · exact execFltSrcCfgWrite_kept hκ h
  · exact execInject_kept hκ h
  · exact execUnfreeze_kept h
  · exact execAlvToggle_kept h
  · exact execAlvRefresh_kept h
  · exact execDrain_kept h
  · exact execTest_kept h
  · exact execReturnUnit_kept h
  · exact execSpare_kept h
  · exact execRetireBank_kept h
  · exact execSparePc_kept h
  · exact execRetirePage_kept h
  · exact execRepairLink_kept h
  · exact execWicketOperationDone_kept h
  · exact execTestTimeout_kept h
  · exact execHello_kept h
  · exact execFinish_kept h
  · exact execBind_kept h
  · exact execCommandFrame_kept h
  · exact execSequenceFrame_kept h
  · exact execKvFrame_kept h
  · exact execSamplerFrame_kept h
  · exact execSessionFrame_kept h
  · exact execCommitFrame_kept h
  · exact execResyncFrame_kept h
  · exact execAck_kept h
  · exact execTakeover_kept h
  · exact execAckTimer_kept h
  · exact execJournalResend_kept h
  · exact execMirrorSilence_kept h
  · exact h
  · exact execRegisterWrite_kept hκ h
  · exact execRegisterReadClear_kept hκ h
  · exact execBusMasterEnable_kept h
  · exact execMemorySpaceEnableClear_kept h
  · exact execAtsPriEnableClear_kept h
  · exact execPhaseMark_kept h
  · exact execResyncComplete_kept h
  · exact execHotResetReadiness_kept h
  · exact h
  · exact execReceiveWindowOverrun_kept h
  · exact execEcallOtherFunction_kept h

end

end Sys2Proof.Proofs
end

section
/-! PROOFS. The canonical form of memory (log entry 6) is kept by every step. -/

namespace Sys2Proof.Proofs

open Sys2Proof Sys2Proof.Machine

theorem step_kept (s : State) : KeptNext (Watch.step s) (step s) := by
  have h : Kept (Watch.step s) s := Kept.step s
  unfold step
  split
  · exact h
  · exact exec_kept rfl h

/-- Settles O60: each function that the commands are made of keeps the form (log entry 6), so each command does. -/
theorem memoryFormKept : Obligations.MemoryFormKept := by
  unfold Obligations.MemoryFormKept
  refine ⟨State.reset_mem_wf, fun s t hform hstep => ?_⟩
  have h : KeptNext (Watch.step s) (step s) := step_kept s
  rw [hstep] at h
  exact h.form hform

end Sys2Proof.Proofs
end

section
/-! PROOFS. Bring-up (R370 to R373, R419, R423 to R432, R449): what the completion of each stage leaves, and the anti-rollback counter. -/

namespace Sys2Proof.Proofs

open Sys2Proof Sys2Proof.Machine

/-! ### Lists of units -/

theorem contains_setAdd (m : List Nat) (k n : Nat) : (setAdd m k).contains n = (m.contains n || decide (n = k)) := by
  induction m with
  | nil => simp [setAdd]
  | cons x m ih =>
    unfold setAdd
    split
    · simp [Bool.or_comm]
    · split
      · next h => simp [h, Bool.or_comm]
      · rw [List.contains_cons, ih, List.contains_cons, Bool.or_assoc]

theorem contains_setAdd_self (m : List Nat) (k : Nat) : (setAdd m k).contains k = true := by
  rw [contains_setAdd, decide_eq_true rfl, Bool.or_true]

theorem contains_foldl_setAdd (l m : List Nat) (n : Nat) : (l.foldl setAdd m).contains n = (m.contains n || l.contains n) := by
  induction l generalizing m with
  | nil => simp
  | cons x l ih => rw [List.foldl_cons, ih, contains_setAdd, List.contains_cons, Bool.or_assoc, beq_eq_decide]

/-- A map whose entries of distinct keys are rewritten one after another. -/
theorem mapGet_foldl_rewrite {α : Type} [DecidableEq α] {d : α} (g : Nat → α → α) {l : List Nat} (hl : l.Nodup) (m : List (Nat × α))
    (k : Nat) : mapGet d (l.foldl (fun m n => mapSet d m n (g n (mapGet d m n))) m) k =
      if k ∈ l then g k (mapGet d m k) else mapGet d m k := by
  induction l generalizing m with
  | nil => simp
  | cons x l ih =>
    obtain ⟨hx, hl⟩ := List.nodup_cons.mp hl
    rw [List.foldl_cons, ih hl]
    by_cases hk : k = x
    · subst hk
      simp [hx]
    · simp [mapGet_mapSet, hk]

/-! ### Caps (R399, R401) -/

section

variable {γ : Type} (view : State → γ) (hport : ∀ (s : State) (p : Port) (o : List OutMsg), view { s with port := p, out := o } = view s)
  (hfn : ∀ s f x, view (State.setFn s f x) = view s) (hpwr : ∀ (s : State) (p : Pwr), view { s with pwr := p } = view s)

include hport hfn hpwr

/-- A changed cap changes the power manager and interrupts the host, and nothing else (R401). -/
theorem capChanged_keeps (s : State) (old : Nat) : view (s.capChanged old) = view s := by
  unfold State.capChanged
  dsimp only
  split
  · rfl
  · exact (hostInt_keeps view hport hfn _ 4).trans (hpwr ..)

theorem setPackageCap_keeps (s : State) (w : Nat) : view (s.setPackageCap w) = view s := by
  unfold State.setPackageCap
  dsimp only
  split
  · rfl
  · exact (capChanged_keeps view hport hfn hpwr _ _).trans (hpwr ..)

end

theorem capChanged_heldCap (s : State) (old : Nat) : (s.capChanged old).pwr.heldCap = s.pwr.heldCap := by
  unfold State.capChanged
  dsimp only
  split
  · rfl
  · exact hostInt_keeps (fun s => s.pwr.heldCap) (fun _ _ _ => rfl) (fun _ _ _ => rfl) _ 4

theorem setPackageCap_heldCap (s : State) (w : Nat) : (s.setPackageCap w).pwr.heldCap = s.pwr.heldCap := by
  unfold State.setPackageCap
  dsimp only
  split
  · rfl
  · exact capChanged_heldCap ..

/-! ### Stages B0 to B2 (R423, R424, R426) -/

section

variable {s : State}

theorem exec_stageB0_of_turn (h : s.atStage 0 = true) : exec .stageB0 s =
    .next (({ s with boot := { s.boot with islandsOpen := setAdd s.boot.islandsOpen 84 } } : State).nextStage 1 hubOrder) :=
  if_neg (by simp [h])

theorem exec_stageB1_of_turn (h : s.atStage 1 = true) (hopen : hubOrder.all s.open = true) :
    exec .stageB1 s = .next (({ s with port := { s.port with linkUp := true } } : State).nextStage 2 []) :=
  if_neg (by rw [h, hopen]; decide)

theorem exec_stageB2_of_turn (h : s.atStage 2 = true) (ok : Bool) (ids : List (BitVec 32)) : exec (.stageB2 ok ids) s =
    if ok && decide (ids.length = 12) && (ids.zip ((List.range 4).flatMap hubPeers)).all (fun x => identityOk x.1 2 x.2)
    then .next (s.nextStage 3 []) else .next s.romStop :=
  if_neg (by simp [h])

/-! ### Stage B3 (R370, R372, R373, R402, R427) -/

/-- Firmware starts from bundle b. -/
def firmwareStarted (rec : BootRecord) (b : Bundle) (s : State) : State :=
  let slots := List.range 576
  let bad := slots.filter (fun i => !rec.good.getD i false || decide (rec.steps.getD i 0 < 80))
  { s with
    sec := { s.sec with keysReady := true, devPriv := derivedKey 1, sealPriv := derivedKey 2, romDigest := rec.romDigest,
                        fwDigest := b.digest, svn := b.svn }
    boot := { s.boot with fwRunning := true, fwVersion := b.version }
    flt := { s.flt with alvState := 1, alvLevel := true, alvRefreshed := false }
    wkt := { s.wkt with pages := retiredOf rec.pages, pcs := retiredOf rec.pcs, unusable := bad,
                        failed := slots.filter (fun i => !rec.good.getD i false),
                        steps := slots.map (fun i => (i, min 96 (rec.steps.getD i 0))) }
    out := s.out ++ [OutMsg.alv true] }

/-- The cap that the boot ROM held is applied (R402). -/
def heldCapApplied (s : State) : State :=
  match s.pwr.heldCap with
  | some w => ({ s with pwr := { s.pwr with heldCap := none } } : State).setPackageCap w
  | none => s

theorem heldCapApplied_heldCap (s : State) : (heldCapApplied s).pwr.heldCap = none := by
  unfold heldCapApplied
  split
  · exact setPackageCap_heldCap ..
  · assumption

theorem heldCapApplied_keeps {γ : Type} (view : State → γ)
    (hport : ∀ (s : State) (p : Port) (o : List OutMsg), view { s with port := p, out := o } = view s)
    (hfn : ∀ s f x, view (State.setFn s f x) = view s) (hpwr : ∀ (s : State) (p : Pwr), view { s with pwr := p } = view s)
    (s : State) : view (heldCapApplied s) = view s := by
  unfold heldCapApplied
  split
  · exact (setPackageCap_keeps view hport hfn hpwr _ _).trans (hpwr ..)
  · rfl

theorem exec_stageB3_of_bundle (h : s.atStage 3 = true) {rec : BootRecord} {b : Bundle} (hsecrets : rec.secretsOk = true)
    (hrecord : rec.recordOk = true) (hb : bootBundle s rec = some b) :
    exec (.stageB3 rec) s = .next ((heldCapApplied (firmwareStarted rec b s)).nextStage 4 []) := by
  change execStageB3 rec s = _
  unfold execStageB3
  rw [if_neg (by simp [h]), if_neg (by simp [hsecrets, hrecord]), hb]
  rfl

theorem exec_stageB3_of_refused (h : s.atStage 3 = true) {rec : BootRecord}
    (hno : rec.secretsOk = false ∨ rec.recordOk = false ∨ bootBundle s rec = none) : exec (.stageB3 rec) s = .next s.romStop := by
  change execStageB3 rec s = _
  unfold execStageB3
  rw [if_neg (by simp [h])]
  split
  · rfl
  next hok =>
    obtain hsecrets | hrecord | hnone := hno
    · exact absurd (by simp [hsecrets]) hok
    · exact absurd (by simp [hrecord]) hok
    · rw [hnone]

/-- No bundle boots whose SVN is below the counter (R372, R373). -/
theorem bootBundle_svn {rec : BootRecord} {b : Bundle} (h : bootBundle s rec = some b) : s.sec.antiRollback.toNat ≤ b.svn.toNat := by
  unfold bootBundle at h
  dsimp only at h
  split at h
  · cases h
    simp_all
  · split at h
    · cases h
      simp_all
    · cases h

/-! ### Stage B4 (R423, R427, R430, R449) -/

/-- What unit failures change. -/
theorem unitFailed_keeps {γ : Type} (view : State → γ)
    (h : ∀ (s : State) (x : BitVec 3) (u : BitVec 8), view { s with boot := { s.boot with failStage := x, failUnit := u } } = view s)
    (s : State) (stage unit : Nat) : view (s.unitFailed stage unit) = view s := by
  unfold State.unitFailed
  split
  · rfl
  · exact h ..

/-- The pseudo-channels of stack n that are gone once B4 has tested it. -/
def gonePcs (res : B4Result) (n : Nat) (pcs : List Nat) : List Nat :=
  (pcs ++ (res.lost.filter (fun p => p.1 = n)).map (·.2)).eraseDups

/-- The record of lost pseudo-channels after B4. -/
def pcsAfter (res : B4Result) (s : State) : List (Nat × List Nat) :=
  (List.range 12).foldl (fun m n => mapSet [] m n (gonePcs res n (mapGet [] m n))) s.wkt.pcs

theorem mapGet_pcsAfter (res : B4Result) (s : State) {n : Nat} (hn : n < 12) :
    mapGet [] (pcsAfter res s) n = gonePcs res n (mapGet [] s.wkt.pcs n) := by
  rw [pcsAfter, mapGet_foldl_rewrite (gonePcs res) List.nodup_range, if_pos (List.mem_range.mpr hn)]

/-- The stacks that B4 finds failed. -/
def failedStacks (res : B4Result) (s : State) : List Nat :=
  (List.range 12).filter (fun n => res.failed.contains n || decide (4 < (mapGet [] (pcsAfter res s) n).length))

theorem contains_failedStacks (res : B4Result) (s : State) {n : Nat} (hn : n < 12) : (failedStacks res s).contains n =
    (res.failed.contains n || decide (4 < (gonePcs res n (mapGet [] s.wkt.pcs n)).length)) := by
  rw [failedStacks, List.contains_eq_mem, ← mapGet_pcsAfter res s hn]
  simp [List.mem_filter, hn]

theorem nextStage_wkt (s : State) (n : Nat) (l : List Nat) : (s.nextStage n l).wkt = s.wkt := rfl

theorem nextStage_stackFailed (s : State) (n : Nat) (l : List Nat) : (s.nextStage n l).boot.stackFailed = s.boot.stackFailed := rfl

/-- B4 records what is lost and what has failed. -/
def b4Recorded (pcs : List (Nat × List Nat)) (failed : List Nat) (s : State) : State :=
  { s with wkt := { s.wkt with pcs := pcs }, boot := { s.boot with stackFailed := failed.foldl setAdd s.boot.stackFailed } }

theorem b4Recorded_pcs (pcs : List (Nat × List Nat)) (failed : List Nat) (s : State) : (b4Recorded pcs failed s).wkt.pcs = pcs := rfl

theorem b4Recorded_stackFailed (pcs : List (Nat × List Nat)) (failed : List Nat) (s : State) :
    (b4Recorded pcs failed s).boot.stackFailed = failed.foldl setAdd s.boot.stackFailed := rfl

/-- The first of the failed stacks is kept in DEV_BRINGUP (R430). -/
def stacksFailed (l : List Nat) (s : State) : State := l.foldl (fun (s : State) n => s.unitFailed 4 (0x20 + n)) s

theorem stacksFailed_wkt (l : List Nat) (s : State) : (stacksFailed l s).wkt = s.wkt :=
  foldl_keeps State.wkt (fun _ _ => unitFailed_keeps State.wkt (fun _ _ _ => rfl) ..) l s

theorem stacksFailed_stackFailed (l : List Nat) (s : State) : (stacksFailed l s).boot.stackFailed = s.boot.stackFailed :=
  foldl_keeps (fun s => s.boot.stackFailed) (fun _ _ => unitFailed_keeps (fun s => s.boot.stackFailed) (fun _ _ _ => rfl) ..) l s

theorem exec_stageB4_of_turn (h : s.atStage 4 = true) (res : B4Result) :
    exec (.stageB4 res) s = .next ((stacksFailed (failedStacks res s)
      (b4Recorded (pcsAfter res s) (failedStacks res s) s)).nextStage 5 computeOrder) :=
  if_neg (by simp [h])

/-! ### Stage B5 (R425 to R429) -/

/-- What holding a die out never touches. -/
def spared (s : State) : Mir × Bool := (s.mir, s.boot.fwRunning)

theorem closeIsland_spared (s : State) (i : Nat) : spared (s.closeIsland i) = spared s := by
  unfold State.closeIsland
  dsimp only
  split
  · rfl
  · split <;> rfl

theorem closeIsland_wkt (s : State) (i : Nat) : (s.closeIsland i).wkt = s.wkt := by
  unfold State.closeIsland
  dsimp only
  split
  · rfl
  · split <;> rfl

theorem holdOut_spared (s : State) (d : Nat) : spared (s.holdOut d) = spared s := by
  unfold State.holdOut
  split
  · rfl
  · exact (foldl_keeps spared closeIsland_spared _ _).trans (unitFailed_keeps spared (fun _ _ _ => rfl) _ _ _)

theorem holdOut_wkt (s : State) (d : Nat) : (s.holdOut d).wkt = if s.wkt.heldOut.contains d then s.wkt
    else { s.wkt with heldOut := setAdd s.wkt.heldOut d, dieOut := setAdd s.wkt.dieOut d } := by
  unfold State.holdOut
  split
  · rfl
  · exact (foldl_keeps State.wkt closeIsland_wkt _ _).trans (unitFailed_keeps State.wkt (fun _ _ _ => rfl) _ _ _)

/-- The dies' results are recorded (R425 to R429). -/
def b5Recorded (res : B5Result) (s : State) : State :=
  { s with
    wkt := { s.wkt with unusable := res.slotFail.foldl setAdd s.wkt.unusable, failed := res.slotFail.foldl setAdd s.wkt.failed,
                        banks := (List.range 16).foldl (fun m d => mapSet [] m d (List.range (res.banks.getD d 0))) [] }
    boot := { s.boot with dieIds := (List.range 16).map (fun d => (d, res.ids.getD d 0)) } }

/-- Each slot that failed BIST is reported (R425). -/
def slotsReported (s : State) : State :=
  ((List.range 576).filter s.wkt.unusable.contains).foldl (fun s i =>
    s.report (event 29 (unitSlot (i / 36) (i / 9 % 4) (i % 9)) 5)) s

/-- The dies that fail are held out (R425 to R429). -/
def diesHeldOut (res : B5Result) (s : State) : State :=
  ((List.range 16).filter (fun d => s.b5Fails res d)).foldl (fun s d => s.holdOut d) s

/-- The harvest maps of the dies in service (R428). -/
def harvested (s : State) : State :=
  (((List.range 16).filter (fun d => !s.wkt.dieOut.contains d)).flatMap (fun d => (List.range 4).map (4 * d + ·))).foldl
    (fun s cl => s.setSlots cl (s.harvest cl)) s

theorem exec_stageB5_of_turn (h : s.atStage 5 = true) (hq : s.boot.shutterQueue = []) (res : B5Result) : exec (.stageB5 res) s =
    .next ((harvested (diesHeldOut res (slotsReported (b5Recorded res s)))).nextStage 6 []) :=
  if_neg (by simp [h, hq])

theorem slotsReported_spared (s : State) : spared (slotsReported s) = spared s := by
  unfold slotsReported
  generalize (List.range 576).filter s.wkt.unusable.contains = slots
  exact foldl_keeps spared (f := fun (s : State) i => s.report (event 29 (unitSlot (i / 36) (i / 9 % 4) (i % 9)) 5)) (fun _ _ => rfl) _ _

theorem diesHeldOut_spared (res : B5Result) (s : State) : spared (diesHeldOut res s) = spared s := by
  unfold diesHeldOut
  exact foldl_keeps spared holdOut_spared _ _

theorem harvested_spared (s : State) : spared (harvested s) = spared s := by
  unfold harvested
  exact foldl_keeps spared (f := fun (s : State) cl => s.setSlots cl (s.harvest cl)) (fun _ _ => rfl) _ _

theorem b5_spared (res : B5Result) (s : State) : spared (harvested (diesHeldOut res (slotsReported (b5Recorded res s)))) = spared s :=
  ((harvested_spared _).trans (diesHeldOut_spared _ _)).trans (slotsReported_spared (b5Recorded res s))

/-! ### Stage B6 (R373, R430, R431) -/

/-- The device becomes ready (log entry 80: the counter rises for every outcome). -/
def readied (ms : Nat) (s : State) : State :=
  { s.draw.2 with
    boot := { s.boot with next := 7, state := BitVec.ofNat 2 s.outcome, stage := 6, timeMs := BitVec.ofNat 16 (min 65535 ms) }
    coh := { s.coh with memoryActive := decide (s.outcome ≠ 3), memInfoValid := true }
    sec := { s.sec with antiRollback := if s.sec.antiRollback.toNat ≤ s.sec.svn.toNat then s.sec.svn else s.sec.antiRollback,
                        partKeys := mapPut s.sec.partKeys 0 s.draw.1 }
    port := { s.port with ready := true } }

theorem exec_stageB6_of_turn (h : s.atStage 6 = true) (ms : Nat) : exec (.stageB6 ms) s =
    .next ((if s.outcome = 3 then (readied ms s).report (event 29 unitNone 6) else readied ms s).sendReady none) :=
  if_neg (by simp [h])

theorem readied_antiRollback (ms : Nat) (s : State) :
    (readied ms s).sec.antiRollback.toNat = max s.sec.antiRollback.toNat s.sec.svn.toNat := by
  change (if s.sec.antiRollback.toNat ≤ s.sec.svn.toNat then s.sec.svn else s.sec.antiRollback).toNat = _
  split <;> omega

theorem sendReady_ready (s : State) (f : Option Nat) : (s.sendReady f).port.ready = s.port.ready := by
  unfold State.sendReady
  split
  · rfl
  · split <;> rfl

/-- What readiness and the report of a failure leave to the state that is ready. -/
theorem readied_keeps {γ : Type} (view : State → γ)
    (hport : ∀ (s : State) (p : Port) (o : List OutMsg), view { s with port := p, out := o } = view s)
    (hflt : ∀ (s : State) (e : FaultEvent), view (s.report e) = view s) (s t : State) (f : Option Nat) :
    view ((if s.outcome = 3 then t.report (event 29 unitNone 6) else t).sendReady f) = view t := by
  rw [sendReady_keeps view hport]
  split
  · exact hflt ..
  · rfl

theorem exec_stageB6_leaves (h : s.atStage 6 = true) (ms : Nat) : ∃ t, exec (.stageB6 ms) s = .next t ∧ t.boot.next = 7 ∧
    t.boot.stage = 6 ∧ t.boot.state = BitVec.ofNat 2 s.outcome ∧ t.coh.memoryActive = decide (s.outcome ≠ 3) ∧ t.port.ready = true ∧
    t.boot.timeMs = BitVec.ofNat 16 (min 65535 ms) ∧ t.sec.antiRollback.toNat = max s.sec.antiRollback.toNat s.sec.svn.toNat ∧
    t.mem = s.mem ∧ t.cores = s.cores := by
  have hkeep {γ : Type} (view : State → γ)
      (hport : ∀ (s : State) (p : Port) (o : List OutMsg), view { s with port := p, out := o } = view s)
      (hflt : ∀ (s : State) (e : FaultEvent), view (s.report e) = view s) :=
    readied_keeps view hport hflt s (readied ms s) none
  have hboot := hkeep State.boot (fun _ _ _ => rfl) (fun _ _ => rfl)
  have hcoh := hkeep State.coh (fun _ _ _ => rfl) (fun _ _ => rfl)
  have hsec := hkeep State.sec (fun _ _ _ => rfl) (fun _ _ => rfl)
  refine ⟨_, exec_stageB6_of_turn h ms, by rw [hboot]; rfl, by rw [hboot]; rfl, by rw [hboot]; rfl, by rw [hcoh]; rfl, ?_,
    by rw [hboot]; rfl, by rw [hsec]; exact readied_antiRollback ms s, hkeep State.mem (fun _ _ _ => rfl) (fun _ _ => rfl),
    hkeep State.cores (fun _ _ _ => rfl) (fun _ _ => rfl)⟩
  rw [sendReady_ready]
  split <;> rfl

/-! ### A unit that misses its stage's bound (R423, R431, R432) -/

theorem exec_stageBoundExpiry_of_rom {stage : Fin 7} (h : s.atStage stage.val = true) (hrom : stage.val < 4) (unit : Nat) :
    exec (.stageBoundExpiry stage unit) s = .next s.romStop := by
  change execStageBoundExpiry stage unit s = _
  unfold execStageBoundExpiry
  rw [if_neg (by simp [h]), if_pos hrom]

theorem exec_stageBoundExpiry_of_stack {stage : Fin 7} (h : s.atStage stage.val = true) {unit : Nat}
    (hs : stage.val = 4 ∧ 0x20 ≤ unit ∧ unit < 0x2C) : exec (.stageBoundExpiry stage unit) s =
      .next (({ s with boot := { s.boot with stackFailed := setAdd s.boot.stackFailed (unit - 0x20) } } : State).unitFailed 4 unit) := by
  change execStageBoundExpiry stage unit s = _
  unfold execStageBoundExpiry
  rw [if_neg (by simp [h]), if_neg (by omega), if_pos hs]

theorem exec_stageBoundExpiry_of_die {stage : Fin 7} (h : s.atStage stage.val = true) {unit : Nat}
    (hd : stage.val = 5 ∧ unit < 16) : exec (.stageBoundExpiry stage unit) s = .next (s.holdOut unit) := by
  change execStageBoundExpiry stage unit s = _
  unfold execStageBoundExpiry
  rw [if_neg (by simp [h]), if_neg (by omega), if_neg (by omega), if_pos hd]

end

/-- Settles O47, stage by stage; that B6 raises the counter for every outcome is log entry 80. -/
theorem bringUpStages : Obligations.BringUpStages := by
  unfold Obligations.BringUpStages
  intro s
  refine ⟨fun h => ⟨_, exec_stageB0_of_turn h, ?_, rfl⟩, fun h hopen => ⟨_, exec_stageB1_of_turn h hopen, rfl, rfl⟩, ?b2, ?b3, ?b4,
    ?b5, fun ms h => exec_stageB6_leaves h ms, ?bound⟩
  · change (setAdd s.boot.islandsOpen 84).contains 84 = true
    exact contains_setAdd_self ..
  case b2 =>
    intro ok ids h
    refine ⟨fun hsound => ⟨_, (exec_stageB2_of_turn h ok ids).trans (if_pos hsound), rfl, ?_⟩,
      fun hsound => (exec_stageB2_of_turn h ok ids).trans (if_neg (by rw [hsound]; decide))⟩
    have hturn := h
    simp only [State.atStage, Bool.and_eq_true, Bool.not_eq_true'] at hturn
    exact hturn.1.1.2
  case b3 =>
    intro rec h
    refine ⟨fun b hsecrets hrecord hb => ⟨_, exec_stageB3_of_bundle h hsecrets hrecord hb, ?_⟩, exec_stageB3_of_refused h⟩
    have hkeep {γ : Type} (view : State → γ)
        (hport : ∀ (s : State) (p : Port) (o : List OutMsg), view { s with port := p, out := o } = view s)
        (hfn : ∀ s f x, view (State.setFn s f x) = view s) (hpwr : ∀ (s : State) (p : Pwr), view { s with pwr := p } = view s) :=
      heldCapApplied_keeps view hport hfn hpwr (firmwareStarted rec b s)
    have hboot := hkeep State.boot (fun _ _ _ => rfl) (fun _ _ _ => rfl) (fun _ _ => rfl)
    have hsec := hkeep State.sec (fun _ _ _ => rfl) (fun _ _ _ => rfl) (fun _ _ => rfl)
    have hflt := hkeep State.flt (fun _ _ _ => rfl) (fun _ _ _ => rfl) (fun _ _ => rfl)
    exact ⟨congrArg Boot.fwRunning hboot, congrArg Boot.fwVersion hboot, congrArg Sec.fwDigest hsec, congrArg Sec.svn hsec,
      congrArg Sec.keysReady hsec, congrArg Flt.alvState hflt, congrArg Flt.alvLevel hflt, heldCapApplied_heldCap _, rfl⟩
  case b4 =>
    intro failed lost h
    refine ⟨_, exec_stageB4_of_turn h ⟨failed, lost⟩, rfl, fun n hn => ⟨?_, ?_⟩⟩
    · rw [nextStage_wkt, stacksFailed_wkt, b4Recorded_pcs]
      exact mapGet_pcsAfter ⟨failed, lost⟩ s hn
    · rw [nextStage_stackFailed, stacksFailed_stackFailed, b4Recorded_stackFailed, contains_foldl_setAdd,
        contains_failedStacks _ _ hn, Bool.or_assoc]
      rfl
  case b5 =>
    intro res h hq
    have hspared := b5_spared res s
    exact ⟨_, exec_stageB5_of_turn h hq res, rfl, congrArg Prod.snd hspared, congrArg Prod.fst hspared⟩
  case bound =>
    intro stage unit h
    refine ⟨fun hrom => exec_stageBoundExpiry_of_rom h hrom unit,
      fun h4 hlo hhi => ⟨_, exec_stageBoundExpiry_of_stack h ⟨h4, hlo, hhi⟩, ?_⟩,
      fun h5 hd => ⟨_, exec_stageBoundExpiry_of_die h ⟨h5, hd⟩, ?_, fun hnot => ?_⟩⟩
    · rw [unitFailed_keeps (fun s => s.boot.stackFailed) (fun _ _ _ => rfl)]
      exact contains_setAdd_self ..
    · rw [holdOut_wkt]
      split
      · assumption
      · exact contains_setAdd_self ..
    · rw [holdOut_wkt, if_neg (by rw [hnot]; decide)]
      exact contains_setAdd_self ..

/-- Settles O48: a step keeps what Kept says; the rest is what B3 and B6 do. -/
theorem antiRollbackNeverFalls : Obligations.AntiRollbackNeverFalls := by
  unfold Obligations.AntiRollbackNeverFalls
  refine ⟨fun s t hstep => ?_, fun s ms h _ => ?_, fun s t rec hoff hexec hon => ?_⟩
  · have h : KeptNext (Watch.step s) (step s) := step_kept s
    rw [hstep] at h
    exact h.counter
  · obtain ⟨t, ht, -, -, -, -, hready, -, hcounter, -⟩ := exec_stageB6_leaves h ms
    exact ⟨t, ht, hready, hcounter⟩
  · by_cases h : s.atStage 3 = true
    · by_cases hb : rec.secretsOk = false ∨ rec.recordOk = false ∨ bootBundle s rec = none
      · rw [exec_stageB3_of_refused h hb] at hexec
        cases hexec
        exact absurd (hon.symm.trans hoff) (by decide)
      · simp only [not_or, Bool.not_eq_false] at hb
        obtain ⟨hsecrets, hrecord, hb⟩ := hb
        obtain ⟨b, hb⟩ := Option.ne_none_iff_exists'.mp hb
        rw [exec_stageB3_of_bundle h hsecrets hrecord hb] at hexec
        cases hexec
        have hsec := heldCapApplied_keeps State.sec (fun _ _ _ => rfl) (fun _ _ _ => rfl) (fun _ _ => rfl) (firmwareStarted rec b s)
        exact (bootBundle_svn hb).trans_eq (congrArg (fun x : Sec => x.svn.toNat) hsec).symm
    · have hsame : exec (.stageB3 rec) s = .next s := if_pos (by simpa using h)
      rw [hsame] at hexec
      cases hexec
      exact absurd (hon.symm.trans hoff) (by decide)

end Sys2Proof.Proofs
end

section
/-! PROOFS. A step (log entry 11), and what reset leaves (R56, R280, R430, R464, R471; log entries 1 and 6). -/

namespace Sys2Proof.Proofs

open Sys2Proof Sys2Proof.Machine

/-- Settles O1: step is a match on the queue (log entry 11). -/
theorem stepRunsFront : Obligations.StepRunsFront := by
  unfold Obligations.StepRunsFront
  refine fun c s => ⟨rfl, fun hidle => ?_⟩
  unfold step
  rw [hidle]

/-- Settles O3, by evaluation of the reset state: the registers as R471 gives them, the rest as log entries 1 and 6 choose. -/
theorem resetState : Obligations.ResetState := by
  unfold Obligations.ResetState
  exact ⟨rfl, rfl, by decide, by decide, by decide, by decide, by decide, by decide, by decide, by decide, by decide, by decide,
    fun _ => rfl, by decide, by decide, by decide, by decide⟩

end Sys2Proof.Proofs
end

section
/-! PROOFS. Requests at a home (R350 to R352): what is granted at once, what turns the line transient, and what a write-back leaves. -/

namespace Sys2Proof.Proofs

open Sys2Proof Sys2Proof.Machine

section

variable {s : State} {a line : Nat} {excl : Bool}

/-! ### A request that the home takes (R351, R352) -/

theorem agentReq_of_untracked (hturn : s.coh.turn (streamOf a) line = true) (hnone : s.coh.entry line = none)
    (hroom : (s.coh.setOf line).length < 16) : s.agentReq a line excl = s.grantAgent a line excl [] := by
  unfold State.agentReq
  dsimp only
  rw [if_neg (by simp [hturn]), hnone]
  exact if_pos hroom

theorem agentReq_of_shared (hturn : s.coh.turn (streamOf a) line = true) {e : DirEntry} {gs : List Nat}
    (he : s.coh.entry line = some e) (hstable : e.trans = none) (hst : e.st = .shared gs) (hnow : s.coh.atOnce e excl = true) :
    s.agentReq a line excl = s.grantAgent a line excl gs := by
  unfold State.agentReq
  dsimp only
  rw [if_neg (by simp [hturn]), he]
  simp only [hstable, hnow, hst, Option.isSome_none, Bool.false_eq_true, if_false, if_true]

theorem agentReq_of_asked (hturn : s.coh.turn (streamOf a) line = true) {e : DirEntry} (he : s.coh.entry line = some e)
    (hstable : e.trans = none) (hask : s.coh.atOnce e excl = false) (hpend : s.coh.reqs.any (fun r => r.1 = a && r.2.1 = line) = true)
    (hhost : e.hostHolds (!excl) = false ∨ s.snoops = true) :
    s.agentReq a line excl = s.begin line e (.agent a excl) excl := by
  have hsnoop : ¬ (e.hostHolds (!excl) && !s.snoops) = true := by rcases hhost with h | h <;> simp [h]
  unfold State.agentReq
  dsimp only
  rw [if_neg (by simp [hturn]), he]
  simp only [hstable, hask, hpend, Option.isSome_none, Bool.false_eq_true, if_false, if_true]
  exact if_neg hsnoop

/-- The two rows that bring a request to the home. -/
theorem exec_request {n : AgentId} {l : BitVec 52} (hok : s.agentOk n.toNat l.toNat = true)
    (hissued : s.issued n.toNat l.toNat excl = true) :
    exec (if excl then Instr.getm n l else .gets n l) s = .next (s.agentReq n.toNat l.toNat excl) := by
  cases excl <;> exact if_pos (by rw [hok, hissued]; rfl)

/-! ### What a grant leaves (R352) -/

theorem holds_hold (c : Coh) (a line : Nat) (excl : Bool) : (c.hold a line excl).holds a line excl = true := by
  unfold Coh.holds Coh.hold Coh.lines
  cases excl <;> simp [mapGet]

theorem cacheFill_of_room (h : s.coh.cacheVictim a line = none) :
    (s.cacheFill a line excl).mem = s.mem ∧ (s.cacheFill a line excl).cores = s.cores := by
  unfold State.cacheFill
  rw [h]
  exact ⟨rfl, rfl⟩

theorem grantAgent_holds (keep : List Nat) : (s.grantAgent a line excl keep).coh.holds a line excl = true :=
  holds_hold ..

/-- Nothing gives way to the line, so memory and the cores stay. -/
theorem grantAgent_of_room (h : s.coh.cacheVictim a line = none) (keep : List Nat) :
    (s.grantAgent a line excl keep).mem = s.mem ∧ (s.grantAgent a line excl keep).cores = s.cores :=
  cacheFill_of_room (excl := excl)
    (s := { s with coh := s.coh.put line (if excl then .owned a else .shared (setAdd keep (groupOf a))) none }) h

end

/-- Settles O27, by what agentReq and putM do with the entry. -/
theorem homesGrant : Obligations.HomesGrant := by
  unfold Obligations.HomesGrant
  intro a line excl s
  refine ⟨fun hok hissued hturn => ⟨fun hnone hroom => ?_, fun e gs he hstable hst hnow => ?_, fun e he hstable hask hpend hhost => ?_⟩,
    ⟨grantAgent_holds [], fun h => grantAgent_of_room h []⟩, fun e hholds he hstable hst => ?_, rfl⟩
  · exact (exec_request hok hissued).trans (congrArg _ (agentReq_of_untracked hturn hnone hroom))
  · exact (exec_request hok hissued).trans (congrArg _ (agentReq_of_shared hturn he hstable hst hnow))
  · exact (exec_request hok hissued).trans (congrArg _ (agentReq_of_asked hturn he hstable hask hpend hhost))
  · refine (if_pos hholds).trans (congrArg _ ?_)
    have he' : ({ s.coh.drop a.toNat line.toNat with wbuf := s.coh.wbuf ++ [(a.toNat, line.toNat)] } : Coh).entry line.toNat = some e := he
    unfold State.putM
    simp only [Coh.drop] at he' ⊢
    rw [he']
    simp [hstable, hst]

end Sys2Proof.Proofs
end

section
/-! PROOFS. The ways of the device cache, the carve, and the decoders (R363 to R366, R369). -/

namespace Sys2Proof.Proofs

open Sys2Proof Sys2Proof.Machine

/-- What a change of the carve needs (R369). -/
theorem carveChange_allowed {s : State} {n : Nat} (hidle : s.coh.hdmBusy = false) (h0 : s.coh.dec0.committed = false)
    (h1 : s.coh.dec1.committed = false) (hmain : s.srv.main = none) (hdraft : s.srv.draft = none) (hload : s.srv.loading = none)
    (hctxs : ∀ x ∈ s.ctxs, x.2.valid = false)
    (hrings : ∀ r ∈ s.rings, r.2.st = .disabled ∨ (r.2.sqHdm = false ∧ r.2.cqHdm = false)) (hlo : 1 ≤ n) (hhi : n ≤ 256)
    (hfree : s.carveFree n = true) :
    (!s.coh.hdmBusy && !s.coh.dec0.committed && !s.coh.dec1.committed && s.srv.main.isNone && s.srv.draft.isNone &&
      s.srv.loading.isNone && s.ctxs.all (fun x => !x.2.valid) &&
      s.rings.all (fun r => decide (r.2.st = .disabled) || (!r.2.sqHdm && !r.2.cqHdm)) && decide (1 ≤ n) && decide (n ≤ 256) &&
      s.carveFree n) = true := by
  have hctxs' : s.ctxs.all (fun x => !x.2.valid) = true := List.all_eq_true.mpr (fun x hx => by simp [hctxs x hx])
  have hrings' : s.rings.all (fun r => decide (r.2.st = .disabled) || (!r.2.sqHdm && !r.2.cqHdm)) = true :=
    List.all_eq_true.mpr (fun r hr => by rcases hrings r hr with h | ⟨h, h'⟩ <;> simp [*])
  rw [hidle, h0, h1, hmain, hdraft, hload, hctxs', hrings', decide_eq_true hlo, decide_eq_true hhi, hfree]
  rfl

/-- Settles O30, register by register. -/
theorem carveAndDecoders : Obligations.CarveAndDecoders := by
  unfold Obligations.CarveAndDecoders
  intro s hl ho hboot
  have hbar (k : State → State) : (.next (s.bar0Write false k) : Res) = .next (k s) :=
    congrArg Host.Outcome.next (bar0Write_of_open hl ho hboot k)
  refine ⟨fun v hkeep hlo hhi hne => ?_, fun v => ?_, fun hbusy => if_neg (by simp [hbusy]), fun base size hidle hcoh hsize => ?_,
    fun base size bi hsize => ?_⟩
  · refine (hbar _).trans (congrArg _ ?_)
    dsimp only
    rw [hkeep, if_neg Bool.false_ne_true, if_neg (by omega)]
    split <;> rfl
  · intro co bu hkeep hne hidle h0 h1 hmain hdraft hload hctxs hrings hlo hhi hfree
    refine (hbar _).trans (congrArg _ ?_)
    dsimp only
    rw [hkeep, if_neg Bool.false_ne_true, if_neg (not_and_or.mpr hne),
      if_pos (carveChange_allowed hidle h0 h1 hmain hdraft hload hctxs hrings hlo hhi hfree)]
  · refine (hbar _).trans (congrArg _ ?_)
    have hpos : s.coh.cohGib.toNat ≠ 0 := fun h => hcoh (BitVec.eq_of_toNat_eq h)
    simp [hidle, hsize, hpos]
  · refine (hbar _).trans (congrArg _ ?_)
    have hwindow : ¬ size.toNat = s.coh.bulkGib.toNat * 1073741824 := hsize
    simp [hwindow]

end Sys2Proof.Proofs
end

section
/-! PROOFS. Transient lines (R351 to R356, R358): what each answer leaves, and the owner that never answers. -/

namespace Sys2Proof.Proofs

open Sys2Proof Sys2Proof.Machine

section

variable {line : BitVec 52} {s : State} {e : DirEntry} {t : DirTrans}

/-! ### Answers (R352 to R356) -/

/-- An owner that answers a forward for req keeps the line in S. -/
def staysShared : DirReq → Bool
  | .agent _ excl => !excl
  | .host want data => decide (want = .shared) && data.isNone
  | _ => false

theorem exec_forward_of_owned (he : s.coh.entry line.toNat = some e) (ht : e.trans = some t) {o : Nat} (ho : e.st = .owned o)
    (hfwd : t.fwd = true) (halive : s.coh.dead.contains o = false) (hup : s.agentUp o = true) :
    exec (.forward line) s =
      .next ((s.surrender o line.toNat (staysShared t.req)).progress line.toNat e { t with fwd := false }
        (if staysShared t.req && (s.surrender o line.toNat (staysShared t.req)).coh.holds o line.toNat false then [groupOf o] else [])) := by
  change execForward line s = _
  unfold execForward
  simp only [he, ht, ho, hfwd, halive, hup, Bool.not_true, Bool.or_self, Bool.false_eq_true, if_false]
  rfl

theorem exec_invalidate_of_asked (he : s.coh.entry line.toNat = some e) (ht : e.trans = some t) {grp : GroupId}
    (hasked : t.acks.contains grp.val = true) : exec (.invalidate grp line) s =
      .next (((agentsOf grp.val).filter s.agentUp).foldl (fun s a => s.surrender a line.toNat false) s) := by
  change execInvalidate grp line s = _
  unfold execInvalidate
  dsimp only
  rw [he, Option.bind_some, ht]
  exact if_pos hasked

theorem exec_invalidateAck_of_gone (he : s.coh.entry line.toNat = some e) (ht : e.trans = some t) {grp : GroupId}
    (hasked : t.acks.contains grp.val = true) (hup : (agentsOf grp.val).any s.agentUp = true)
    (hgone : ∀ a ∈ agentsOf grp.val, s.coh.holds a line.toNat false = false) :
    exec (.invalidateAck grp line) s = .next (s.progress line.toNat e { t with acks := setDel t.acks grp.val } []) := by
  have hall : (agentsOf grp.val).all (fun a => s.coh.dead.contains a || !s.coh.holds a line.toNat false) = true :=
    List.all_eq_true.mpr (fun a ha => by rw [hgone a ha, Bool.not_false, Bool.or_true])
  change execInvalidateAck grp line s = _
  unfold execInvalidateAck
  simp only [he, ht, hasked, hup, hall, Bool.and_self, if_true]

theorem exec_bisnpResponse_of_clean (he : s.coh.entry line.toNat = some e) (ht : e.trans = some t) (hsnoop : t.snoop = true) :
    exec (.bisnpResponse line none) s = .next (s.progress line.toNat e { t with snoop := false }
      (if (match t.req with
        | .agent _ excl => !excl
        | .engine inval => !inval
        | _ => false) && e.hostHolds true then [hostGroup] else [])) := by
  change execBisnpResponse line none s = _
  unfold execBisnpResponse
  simp only [he, ht, hsnoop, Bool.not_true, Bool.false_eq_true, if_false] <;> rfl

theorem exec_nackRetry_of_request {st : StreamId} {r : Nat × Nat × Bool} (hcount : s.coh.nackCount st.val line.toNat ≠ 0)
    (hreq : s.coh.reqs.find? (fun r => decide (streamOf r.1 = st.val) && decide (r.2.1 = line.toNat)) = some r) :
    exec (.nackRetry st line) s = .next (s.agentReq r.1 line.toNat r.2.2) := by
  change execNackRetry st line s = _
  unfold execNackRetry
  simp only [if_neg hcount, hreq]

/-! ### An owner that never answers (R358) -/

theorem mem_setAdd {k n : Nat} {m : List Nat} : n ∈ setAdd m k ↔ n ∈ m ∨ n = k := by
  have h := contains_setAdd m k n
  simp only [List.contains_eq_mem, ← Bool.decide_or] at h
  exact decide_eq_decide.mp h

/-- Poison is only added (R194). -/
theorem mem_poisonLine {m : Memory} {k w : Nat} (h : w ∈ m.poison) : w ∈ (m.poisonLine k).poison :=
  List.foldlRecOn (motive := fun p => w ∈ p) _ _ h (fun _ hp _ _ => mem_setAdd.mpr (Or.inl hp))

theorem mem_poisonLine_self (m : Memory) (k : Nat) : k / 8 ∈ (m.poisonLine k).poison := by
  unfold Memory.poisonLine
  simp [List.range_succ, mem_setAdd]

theorem poisoned_of_mem {m : Memory} {k : Nat} (h : k / 8 ∈ m.poison) : m.poisoned k 1 = true := by
  simp only [Memory.poisoned, Nat.add_sub_cancel, Bool.and_eq_true]
  exact ⟨by decide, List.any_eq_true.mpr ⟨k / 8, h, by simp⟩⟩

/-- The lines that a dead agent owned are lost (R358). -/
def linesLost (own : List (Nat × DirEntry)) (s : State) : State :=
  own.foldl (fun s e => { s with mem := s.mem.poisonLine e.1, coh := { s.coh with dir := mapDel s.coh.dir e.1 } }) s

theorem linesLost_dead (own : List (Nat × DirEntry)) (s : State) : (linesLost own s).coh.dead = s.coh.dead :=
  List.foldlRecOn (motive := fun t : State => t.coh.dead = s.coh.dead) own _ rfl (fun _ h _ _ => h)

theorem linesLost_poison {own : List (Nat × DirEntry)} {s : State} {w : Nat} (h : w ∈ s.mem.poison) :
    w ∈ (linesLost own s).mem.poison :=
  List.foldlRecOn (motive := fun t : State => w ∈ t.mem.poison) own _ h (fun _ ht _ _ => mem_poisonLine ht)

/-- A death changes what is recorded of the dead, of the lines that the agent owned, and of the fault that reports it. -/
theorem killAgent_of_alive {a : Nat} (h : s.coh.dead.contains a = false) : ∃ own c, c.dead = setAdd s.coh.dead a ∧
    (s.killAgent a).coh = (linesLost own { s with coh := c }).coh ∧ (s.killAgent a).mem = (linesLost own { s with coh := c }).mem := by
  unfold State.killAgent
  rw [if_neg (by rw [h]; exact Bool.false_ne_true)]
  split <;> exact ⟨_, _, rfl, rfl, rfl⟩

theorem killAgent_poison {a w : Nat} (h : w ∈ s.mem.poison) : w ∈ (s.killAgent a).mem.poison := by
  by_cases hdead : s.coh.dead.contains a = true
  · rwa [State.killAgent, if_pos hdead]
  · obtain ⟨own, c, -, -, hmem⟩ := killAgent_of_alive (Bool.eq_false_of_not_eq_true hdead)
    rw [hmem]
    exact linesLost_poison (s := { s with coh := c }) h

theorem killAgent_dead (a : Nat) : (s.killAgent a).coh.dead.contains a = true := by
  by_cases hdead : s.coh.dead.contains a = true
  · rwa [State.killAgent, if_pos hdead]
  · obtain ⟨own, c, hc, hcoh, -⟩ := killAgent_of_alive (Bool.eq_false_of_not_eq_true hdead)
    rw [hcoh, linesLost_dead]
    change c.dead.contains a = true
    rw [hc]
    exact contains_setAdd_self ..

theorem exec_homeWaitTimeout_of_owner (he : s.coh.entry line.toNat = some e) (ht : e.trans = some t) {o : Nat} (ho : e.st = .owned o)
    (hfwd : t.fwd = true) (hsnoop : t.snoop = false) (hacks : t.acks = []) :
    exec (.homeWaitTimeout line) s = .next ((({ s with
      coh := { s.coh with timeouts := BitVec.ofNat 16 (satAdd 0xFFFF s.coh.timeouts.toNat 1) },
      mem := s.mem.poisonLine line.toNat } : State).killAgent o).completeReq line.toNat { e with trans := none } t.req []) := by
  change execHomeWaitTimeout line s = _
  unfold execHomeWaitTimeout
  simp only [he, ht, ho, hfwd, hsnoop, hacks, List.foldl_nil, Bool.false_eq_true, if_false, if_true]

end

/-- Settles O28, answer by answer. -/
theorem transactionsAdvance : Obligations.TransactionsAdvance := by
  unfold Obligations.TransactionsAdvance
  refine ⟨fun line s e t he ht => ⟨fun o ho hfwd halive hup => ?_, fun grp hasked => ⟨exec_invalidate_of_asked he ht hasked,
    exec_invalidateAck_of_gone he ht hasked⟩, exec_bisnpResponse_of_clean he ht, fun st a excl => exec_nackRetry_of_request⟩,
    fun line s e t o he ht ho hfwd hsnoop hacks _ => ⟨exec_homeWaitTimeout_of_owner he ht ho hfwd hsnoop hacks, killAgent_dead o,
      poisoned_of_mem (killAgent_poison (mem_poisonLine_self ..))⟩⟩
  exact exec_forward_of_owned he ht ho hfwd halive hup

end Sys2Proof.Proofs
end

section
/-! PROOFS. Host requests to HDM (R354, R366, R367), and the device cache (R360, R361, R363). -/

namespace Sys2Proof.Proofs

open Sys2Proof Sys2Proof.Machine

section

variable {s : State} {hpa : BitVec 64}

/-! ### Host requests (R354, R366, R367) -/

/-- The line that a host request names, where a decoder answers (R366). -/
def hdmPlace (s : State) (h : Nat) : Option Nat := if s.coh.memoryActive then s.coh.hdmOff h else none

theorem hdmPlace_of_none {h : Nat} (hno : s.coh.memoryActive = false ∨ s.coh.hdmOff h = none) : hdmPlace s h = none := by
  unfold hdmPlace
  rcases hno with hno | hno
  · rw [hno]
    rfl
  · rw [hno, ite_self]

theorem hdmPlace_of_some {h o : Nat} (hactive : s.coh.memoryActive = true) (ho : s.coh.hdmOff h = some o) : hdmPlace s h = some o := by
  rw [hdmPlace, hactive, ho]
  rfl

/-- A request to the coherent window goes to the home: it is served, or it waits (R354, R355). -/
def homeAnswers (s : State) (line : Nat) (want : HostWant) (data : Option Bytes) : Res :=
  match s.hostReq line want data with
  | (true, s) => .next { s with coh := { s.coh with hostWaits := s.coh.hostWaits ++ [(line, want, data)] } }
  | (false, s) => .next s

theorem homeAnswers_of_served {line : Nat} {want : HostWant} {data : Option Bytes} (h : (s.hostReq line want data).1 = false) :
    homeAnswers s line want data = .next (s.hostReq line want data).2 := by
  unfold homeAnswers
  split
  next t e => exact absurd (h.symm.trans (congrArg Prod.fst e)) Bool.false_ne_true
  next t e => exact congrArg Host.Outcome.next (congrArg Prod.snd e).symm

theorem exec_hostCxlMemRead_of_none (hl : s.port.linkUp = true) (hno : hdmPlace s (hpa.toNat / 64 * 64) = none) (want : HostWant) :
    exec (.hostCxlMemRead hpa want) s = .next (s.noHdm (hpa.toNat / 64 * 64) true) := by
  change execHostCxlMemRead hpa want s = _
  unfold execHostCxlMemRead
  dsimp only
  rw [if_neg (by simp [hl])]
  change (match hdmPlace s (hpa.toNat / 64 * 64) with | none => _ | some _ => _) = _
  rw [hno]

theorem exec_hostCxlMemWrite_of_none (hl : s.port.linkUp = true) (hno : hdmPlace s (hpa.toNat / 64 * 64) = none) (data : Bytes)
    (want : HostWant) : exec (.hostCxlMemWrite hpa data want) s = .next (s.noHdm (hpa.toNat / 64 * 64) false) := by
  change execHostCxlMemWrite hpa data want s = _
  unfold execHostCxlMemWrite
  dsimp only
  rw [if_neg (by simp [hl])]
  change (match hdmPlace s (hpa.toNat / 64 * 64) with | none => _ | some _ => _) = _
  rw [hno]

section

variable (hl : s.port.linkUp = true) {o : Nat} (ho : hdmPlace s (hpa.toNat / 64 * 64) = some o) (hopen : s.port.frozen = false)

include hl ho hopen

/-- A read that the granule allows. -/
theorem exec_hostCxlMemRead_of_place (hallow : s.allowed (carvePa o) false true 0 false = true) (want : HostWant) :
    exec (.hostCxlMemRead hpa want) s =
      if !s.answers (carvePa o) then
        .next ((s.send (.cxlRead (hpa.toNat / 64 * 64) (List.replicate 64 0) true)).report (event 15 unitHost (carvePa o)))
      else if !s.coh.coherent o then .next (s.hostData (carvePa o))
      else homeAnswers s (carvePa o) want none := by
  change execHostCxlMemRead hpa want s = _
  unfold execHostCxlMemRead
  dsimp only
  rw [if_neg (by simp [hl])]
  change (match hdmPlace s (hpa.toNat / 64 * 64) with | none => _ | some _ => _) = _
  rw [ho]
  dsimp only
  rw [if_neg (by simp [hopen]), if_neg (by simp [hallow])]
  rfl

theorem exec_hostCxlMemWrite_of_place (hallow : s.allowed (carvePa o) false true 0 true = true) (data : Bytes) (want : HostWant) :
    exec (.hostCxlMemWrite hpa data want) s =
      if !s.answers (carvePa o) then .next ((s.send (.cxlDone (hpa.toNat / 64 * 64))).report (event 15 unitHost (carvePa o)))
      else if !s.coh.coherent o then
        .next ((s.storeLine (carvePa o) (sliceBytes data 0 64) none).send (.cxlDone (hpa.toNat / 64 * 64)))
      else homeAnswers s (carvePa o) want (some data) := by
  change execHostCxlMemWrite hpa data want s = _
  unfold execHostCxlMemWrite
  dsimp only
  rw [if_neg (by simp [hl])]
  change (match hdmPlace s (hpa.toNat / 64 * 64) with | none => _ | some _ => _) = _
  rw [ho]
  dsimp only
  rw [if_neg (by simp [hopen]), if_neg (by simp [hallow])]
  rfl

end

/-- What the host reads of a line that holds no poison, and of one that does (R194). -/
theorem hostData_of_clean {line : Nat} (hopen : s.port.frozen = false) (h : s.mem.poisoned line 64 = false) :
    s.hostData line = s.send (.cxlRead line (s.mem.read line 64) false) := by
  unfold State.hostData
  dsimp only
  rw [h, hopen]
  rfl

theorem hostData_of_poisoned {line : Nat} (h : s.mem.poisoned line 64 = true) : s.hostData line =
    (s.send (.cxlRead line (s.mem.read line 64) true)).report (event 8 unitHost (s.mem.firstPoison line 64)) := by
  unfold State.hostData
  dsimp only
  rw [h]
  rfl

/-! ### Snoops of the device cache (R361) -/

theorem snoop_of_held (hl : s.port.linkUp = true) (hopen : s.port.frozen = false) {st : DcSt}
    (hst : mapFind s.coh.dc (hpa.toNat / 64 * 64) = some st) (cur inval : Bool) : s.snoop hpa cur inval =
      let l := hpa.toNat / 64 * 64
      let t := s.send (.snoopAnswer l (if decide (st = .m) || cur then some (s.mem.read (hostKey l) 64) else none)
        (s.mem.poisoned (hostKey l) 64))
      if inval then
        ({ t with coh := { t.coh with dc := mapDel t.coh.dc l, dcUsed := mapDel t.coh.dcUsed l } } : State).loseResv (hostKey l) 512
      else if cur then t
      else { t with coh := { t.coh with dc := mapPut t.coh.dc l .s } } := by
  unfold State.snoop
  dsimp only
  rw [if_neg (by simp [hl]), hst]
  dsimp only
  have hsent : ∀ m, (s.send m).port.frozen = false := fun _ => hopen
  simp only [hopen, hsent, Bool.and_false, Bool.or_false]

/-! ### Responses of the host (R361) -/

theorem hostGave_coh (l : Nat) (bs : Bytes) : (s.hostGave l bs).coh = s.coh := by
  unfold State.hostGave
  split <;> rfl

theorem evictLine_d2h (l : Nat) : (s.evictLine l).coh.d2h = s.coh.d2h := by
  unfold State.evictLine
  split <;> rfl

theorem dcFill_d2h (l : Nat) (st : DcSt) : (s.dcFill l st).coh.d2h = s.coh.d2h := by
  unfold State.dcFill
  dsimp only
  split
  · exact evictLine_d2h _
  · rfl

theorem dcFill_of_room {l : Nat} (h : s.coh.dcVictim l = none) (st : DcSt) : (s.dcFill l st).mem = s.mem ∧
    (s.dcFill l st).out = s.out ∧ (s.dcFill l st).coh.dc = mapPut s.coh.dc l st := by
  unfold State.dcFill
  rw [h]
  exact ⟨rfl, rfl, rfl⟩

theorem exec_hostCacheResponse_of_request (hl : s.port.linkUp = true) (hopen : s.port.frozen = false) {r : Nat × Bool}
    (hr : s.coh.d2h.find? (fun r => r.1 = hpa.toNat / 64 * 64) = some r) {excl : Bool} (hgrant : r.2 = false ∨ excl = true) (bs : Bytes) :
    exec (.hostCacheResponse hpa excl bs) s =
      .next (let t := (s.hostGave (hpa.toNat / 64 * 64) bs).dcFill (hpa.toNat / 64 * 64) (if excl then .e else .s)
        { t with coh := { t.coh with d2h := s.coh.d2h.erase r, cacheInvalid := false } }) := by
  have hnot : ¬ (!s.port.linkUp || s.port.frozen || (r.2 && !excl)) = true := by
    rcases hgrant with h | h <;> simp [hl, hopen, h]
  have hd2h : ((s.hostGave (hpa.toNat / 64 * 64) bs).dcFill (hpa.toNat / 64 * 64) (if excl then .e else .s)).coh.d2h = s.coh.d2h := by
    rw [dcFill_d2h, hostGave_coh]
  change execHostCacheResponse hpa excl bs s = _
  unfold execHostCacheResponse
  dsimp only
  rw [hr]
  dsimp only
  rw [if_neg hnot, hd2h]

theorem exec_hostCacheResponse_of_curr (hl : s.port.linkUp = true) (hopen : s.port.frozen = false) {x : Nat × Nat × Bool}
    (hr : s.coh.d2h.find? (fun r => r.1 = hpa.toNat / 64 * 64) = none)
    (hx : s.coh.curr.find? (fun x => x.2.1 = hpa.toNat / 64 * 64 && !x.2.2) = some x) (excl : Bool) (bs : Bytes) :
    exec (.hostCacheResponse hpa excl bs) s =
      .next (let t := s.hostGave (hpa.toNat / 64 * 64) bs
        { t with coh := { t.coh with curr := s.coh.curr.map (fun y => if y = x then (x.1, hpa.toNat / 64 * 64, true) else y) } }) := by
  change execHostCacheResponse hpa excl bs s = _
  unfold execHostCacheResponse
  dsimp only
  rw [hr]
  dsimp only
  rw [hx]
  dsimp only
  rw [if_neg (by simp [hl, hopen]), hostGave_coh]

/-! ### Write-back of the whole cache (R361, R363) -/

theorem mapDel_of_notFound {α : Type} {m : List (Nat × α)} {k : Nat} (h : mapFind m k = none) : mapDel m k = m := by
  induction m with
  | nil => rfl
  | cons p m ih =>
    rw [mapFind] at h
    split at h
    · cases h
    next hk => rw [mapDel, List.filter_cons_of_pos (by simpa using Ne.symm hk), ← mapDel, ih h]

theorem evictLine_dc (l : Nat) : (s.evictLine l).coh.dc = mapDel s.coh.dc l := by
  unfold State.evictLine
  split
  next h => exact (mapDel_of_notFound h).symm
  · rfl

/-- Evicting every line that is listed leaves none of them. -/
theorem mem_dc_evictLines {l : List (Nat × DcSt)} {s : State} {p : Nat × DcSt}
    (h : p ∈ (l.foldl (fun (s : State) p => s.evictLine p.1) s).coh.dc) : p ∈ s.coh.dc ∧ ∀ q ∈ l, p.1 ≠ q.1 := by
  induction l generalizing s with
  | nil => exact ⟨h, fun _ hq => absurd hq (List.not_mem_nil)⟩
  | cons x l ih =>
    obtain ⟨hp, hl⟩ := ih h
    rw [evictLine_dc, mapDel, List.mem_filter] at hp
    exact ⟨hp.1, fun q hq => (List.mem_cons.mp hq).elim (fun e => e ▸ by simpa using hp.2) (hl q)⟩

theorem emptyCache_dc (s : State) : s.emptyCache.coh.dc = [] :=
  List.eq_nil_iff_forall_not_mem.mpr (fun p hp => (mem_dc_evictLines hp).2 p (mem_dc_evictLines hp).1 rfl)

/-- What the eviction of a line never touches. -/
def besideCache (s : State) : Memory × List (Nat × DirEntry) × Bool × Bool :=
  (s.mem, s.coh.dir, s.coh.cacheEnable, s.coh.disableAfterWbi)

theorem evictLine_besideCache (l : Nat) : besideCache (s.evictLine l) = besideCache s := by
  unfold State.evictLine
  split <;> rfl

theorem emptyCache_besideCache (s : State) : besideCache s.emptyCache = besideCache s :=
  foldl_keeps besideCache (fun _ _ => evictLine_besideCache _) _ _

theorem evictLine_registers (l g : Nat) : registers ((s.evictLine l).core g) = registers (s.core g) := by
  unfold State.evictLine
  split
  · rfl
  · exact loseResv_registers ..

theorem emptyCache_registers (s : State) (g : Nat) : registers (s.emptyCache.core g) = registers (s.core g) :=
  foldl_keeps (fun s : State => registers (s.core g)) (fun _ _ => evictLine_registers _ _) _ _

theorem exec_cacheWbiDone_of_turn (hwbi : s.coh.wbi = true) (hasks : s.coh.asks = false) (hopen : s.port.frozen = false)
    (hl : s.port.linkUp = true) : exec .cacheWbiDone s = .next { s.emptyCache with coh := { s.emptyCache.coh with
      wbi := false, cacheInvalid := true, disableAfterWbi := false,
      cacheEnable := s.emptyCache.coh.cacheEnable && !s.emptyCache.coh.disableAfterWbi } } :=
  if_neg (by simp [hwbi, hasks, hopen, hl])

/-- The end of a write-back (R361, R363). -/
theorem exec_cacheWbiDone_leaves (hwbi : s.coh.wbi = true) (hasks : s.coh.asks = false) (hopen : s.port.frozen = false)
    (hl : s.port.linkUp = true) : ∃ t, exec .cacheWbiDone s = .next t ∧ t.coh.dc = [] ∧ t.coh.wbi = false ∧
      t.coh.cacheInvalid = true ∧ t.coh.cacheEnable = (s.coh.cacheEnable && !s.coh.disableAfterWbi) ∧ t.mem = s.mem ∧
      t.coh.dir = s.coh.dir ∧ ∀ g, (t.core g).x = (s.core g).x ∧ (t.core g).pc = (s.core g).pc := by
  obtain ⟨hmem, h⟩ := Prod.mk.inj (emptyCache_besideCache s)
  obtain ⟨hdir, h⟩ := Prod.mk.inj h
  obtain ⟨henable, hdisable⟩ := Prod.mk.inj h
  refine ⟨_, exec_cacheWbiDone_of_turn hwbi hasks hopen hl, emptyCache_dc s, rfl, rfl, ?_, hmem, hdir, fun g => ?_⟩
  · rw [← henable, ← hdisable]
  · exact ⟨congrArg Prod.fst (emptyCache_registers s g), congrArg (fun r => r.2.1) (emptyCache_registers s g)⟩

/-! ### Cache_Enable (R363) -/

theorem exec_cacheEnable_of_answered (hl : s.port.linkUp = true) (hready : s.port.ready = true) (hserves : (s.fn 0).quiescing = false)
    (hstays : s.removing = false) (hthere : (s.fn 0).enabled = true) (on : Bool) : exec (.cacheEnable on) s =
      .next (if on then { s with coh := { s.coh with cacheEnable := true } }
        else if s.coh.dc.isEmpty && !s.coh.asks then { s with coh := { s.coh with cacheEnable := false } }
        else s.startWbi true) :=
  next_cfgAccess_of_answered hl (Or.inl hready) hserves hstays hthere _

end

/-- Settles O29, access by access; what an unanswered stack gives is log entry 115. -/
theorem hostRequestsAndDeviceCache : Obligations.HostRequestsAndDeviceCache := by
  unfold Obligations.HostRequestsAndDeviceCache
  refine ⟨fun hpa want data s hl => ⟨fun hno => ?none, fun o hactive ho hopen => ⟨fun hallow => ?read, fun hallow => ?write⟩⟩,
    fun hpa s st => ⟨fun hl hopen hst => ?snoop, fun excl bs hl hopen => ⟨fun r hr hgrant => ?fill,
      fun hroom st' => ?room, fun x hr hx => ?curr⟩,
      fun hl hready hserves hstays hthere => ?enable, rfl, exec_cacheWbiDone_leaves⟩⟩
  case none =>
    exact ⟨exec_hostCxlMemRead_of_none hl (hdmPlace_of_none hno) want,
      exec_hostCxlMemWrite_of_none hl (hdmPlace_of_none hno) data want⟩
  case read =>
    have hexec := exec_hostCxlMemRead_of_place hl (hdmPlace_of_some hactive ho) hopen hallow want
    refine ⟨fun hsilent => ?_, fun hstack hbulk hclean => ?_, fun hstack hbulk hbad => ?_, fun hstack hcoh hserved => ?_⟩ <;> rw [hexec]
    · exact if_pos (by rw [hsilent]; rfl)
    · rw [hstack, hbulk, hostData_of_clean hopen hclean]
      rfl
    · rw [hstack, hbulk, hostData_of_poisoned hbad]
      rfl
    · rw [hstack, hcoh]
      exact homeAnswers_of_served hserved
  case write =>
    have hexec := exec_hostCxlMemWrite_of_place hl (hdmPlace_of_some hactive ho) hopen hallow data want
    refine ⟨fun hsilent => ?_, fun hstack hbulk => ?_, fun hstack hcoh hserved => ?_⟩ <;> rw [hexec]
    · exact if_pos (by rw [hsilent]; rfl)
    · rw [hstack, hbulk]
      rfl
    · rw [hstack, hcoh]
      exact homeAnswers_of_served hserved
  case snoop =>
    have hsnoop := snoop_of_held hl hopen hst
    refine ⟨congrArg Host.Outcome.next ((hsnoop false false).trans ?_), congrArg Host.Outcome.next ((hsnoop false true).trans ?_),
      congrArg Host.Outcome.next ((hsnoop true false).trans ?_)⟩
    · simp
    · simp
    · simp
  case fill => exact exec_hostCacheResponse_of_request hl hopen hr hgrant bs
  case room =>
    obtain ⟨hmem, hout, hdc⟩ := dcFill_of_room (s := s.hostGave (hpa.toNat / 64 * 64) bs) hroom st'
    exact ⟨hmem, hout, hdc.trans (congrArg (fun c : Coh => mapPut c.dc (hpa.toNat / 64 * 64) st') (hostGave_coh ..))⟩
  case curr => exact exec_hostCacheResponse_of_curr hl hopen hr hx excl bs
  case enable =>
    have henable := exec_cacheEnable_of_answered hl hready hserves hstays hthere
    refine ⟨henable true, fun hdc hasks => (henable false).trans ?_, fun hbusy => (henable false).trans ?_,
      next_cfgAccess_of_answered hl (Or.inl hready) hserves hstays hthere _⟩
    · rw [hdc, hasks]
      rfl
    · have hnot : ¬ (s.coh.dc.isEmpty && !s.coh.asks) = true := by rcases hbusy with h | h <;> simp [h]
      exact congrArg Host.Outcome.next ((if_neg Bool.false_ne_true).trans (if_neg hnot))

end Sys2Proof.Proofs
end

section
/-! PROOFS. Events at the fault collector (R433 to R444): how an arrival is counted, entered in the log and reacted to. -/

namespace Sys2Proof.Proofs

open Sys2Proof Sys2Proof.Machine

/-! ### Sources (R437) -/

theorem source_set_self {f : Flt} {i : Nat} (hi : i < f.sources.length) (x : FltSource) :
    ({ f with sources := f.sources.set i x } : Flt).source i = x := by
  simp [Flt.source, hi]

/-- A source with an event counted, where e is its number of events and esc says that its threshold was reached (R437). -/
def countSource (x : FltSource) (e : Nat) (esc first : Bool) : FltSource :=
  { x with total := satAdd (2 ^ 32 - 1) x.total e, count := if esc then 0 else min (x.count + e) 255,
           escalations := if esc && first then satAdd 255 x.escalations 1 else x.escalations }

/-- That the threshold of an event's source is reached. -/
def escalates (f : Flt) (e : FaultEvent) : Bool :=
  bit (f.source e.src.val).cfg.toNat 14 && decide ((f.source e.src.val).n ≤ min ((f.source e.src.val).count + e.events) 255)

theorem escalates_of_disabled {f : Flt} {e : FaultEvent} (h : bit (f.source e.src.val).cfg.toNat 14 = false) :
    escalates f e = false := by
  simp [escalates, h]

/-- The state with an arrival counted. -/
def counted (s : State) (e : FaultEvent) : State :=
  let x := countSource (s.flt.source e.src.val) e.events (escalates s.flt e) s.flt.reaction.isNone
  { s with flt := { s.flt with sources := s.flt.sources.set e.src.val x } }

theorem arrivalAt_of_idle {s : State} (h : s.flt.reaction = none) (e : FaultEvent) : s.arrivalAt e false =
    (counted s e).record e (s.classOf e) (escalates s.flt e) false := by
  unfold State.arrivalAt
  dsimp only
  split
  next r hr => rw [h] at hr; cases hr
  · rfl

theorem arrivalAt_of_reaction {s : State} {r : Reaction} (h : s.flt.reaction = some r) (e : FaultEvent) : s.arrivalAt e false =
    (counted s e).mergeEvent r e (s.classOf e) := by
  unfold State.arrivalAt
  dsimp only
  split
  next r' hr => rw [h] at hr; cases hr; rfl
  next hr => rw [h] at hr; cases hr

theorem arrivalAt_sources (s : State) (e : FaultEvent) : (s.arrivalAt e false).flt.sources = (counted s e).flt.sources := by
  have h := Kept.sourcesOf (counted s e)
  cases hr : s.flt.reaction with
  | none =>
    rw [arrivalAt_of_idle hr]
    exact (record_kept h).sources _ rfl
  | some r =>
    rw [arrivalAt_of_reaction hr]
    exact (mergeEvent_kept h).sources _ rfl

theorem arrivalAt_source {s : State} {e : FaultEvent} (h : e.src.val < s.flt.sources.length) : (s.arrivalAt e false).flt.source e.src.val =
    countSource (s.flt.source e.src.val) e.events (escalates s.flt e) s.flt.reaction.isNone := by
  rw [Flt.source, arrivalAt_sources, ← Flt.source]
  exact source_set_self h _

/-! ### The fatal and the severe reaction (R435) -/

/-- What a fatal reaction is known by. -/
def fatalRegs (s : State) : Bool × Option Reaction × BitVec 2 × Bool :=
  (s.flt.frozen, s.flt.reaction, s.flt.alvState, s.boot.noShutters)

theorem enterPc_fatalRegs (s : State) (cause : Nat) : fatalRegs (s.enterPc cause) = fatalRegs s := by
  cases h : s.port.frozen with
  | true => rw [enterPc_of_frozen h]; rfl
  | false => exact enterPc_keeps fatalRegs (fun _ _ _ => rfl) (fun _ _ => rfl) h cause

theorem fatal_leaves (s : State) : s.fatal.flt.frozen = true ∧ s.fatal.boot.noShutters = true ∧ s.fatal.port.frozen = true ∧
    s.fatal.flt.alvState ≠ 1 ∧ s.fatal.flt.reaction = s.flt.reaction := by
  have hstop : ∀ s : State, (s.stopAlv 2).flt.frozen = s.flt.frozen ∧ (s.stopAlv 2).boot = s.boot ∧
      (s.stopAlv 2).flt.alvState ≠ 1 ∧ (s.stopAlv 2).flt.reaction = s.flt.reaction := by
    intro s
    unfold State.stopAlv
    dsimp only
    split
    next h => exact ⟨rfl, rfl, h, rfl⟩
    · split <;> exact ⟨rfl, rfl, (by decide : (2 : BitVec 2) ≠ 1), rfl⟩
  unfold State.fatal
  obtain ⟨hfrozen, hboot, halv, hreaction⟩ :=
    hstop { s with flt := { s.flt with frozen := true }, boot := { s.boot with noShutters := true } }
  have hregs := enterPc_fatalRegs
    (State.stopAlv { s with flt := { s.flt with frozen := true }, boot := { s.boot with noShutters := true } } 2) 4
  simp only [fatalRegs, Prod.mk.injEq] at hregs
  obtain ⟨h1, h2, h3, h4⟩ := hregs
  exact ⟨h1.trans hfrozen, h4.trans (congrArg Boot.noShutters hboot), enterPc_frozen _ 4, h3 ▸ halv, h2.trans hreaction⟩

/-- The reaction that an event begins. -/
def reactionTo (e : FaultEvent) (fatal : Bool) (seqno : BitVec 32) (slot : Option Nat) (began : Nat) : Reaction :=
  { fatal := fatal, source := BitVec.ofNat 5 e.src.val, seqno := seqno, slot := slot, unit := e.unit, began := began }

theorem severe_of_isolated {s : State} {e : FaultEvent} {o : WktOp} (ho : severeOp e.unit = some o) (hin : s.unitOut o.unit = false)
    (seqno : BitVec 32) (slot : Option Nat) : s.severe e seqno slot = { s with
      flt := { s.flt with reaction := some (reactionTo e false seqno slot s.flt.time) }
      wkt := { s.wkt with waiting := s.wkt.waiting ++ [o] } } := by
  unfold State.severe
  rw [ho]
  exact if_neg (by simp [hin])

/-! ### Records (R442, R443) -/

/-- The log has, at the slot where the next entry of f goes, an entry of class own for e; the entry after it is the next. -/
structure Entered (f : Flt) (e : FaultEvent) (own : Nat) (g : Flt) : Prop where
  next : g.next = (f.next + 1) % 64
  seqno : g.seqno = f.seqno + 1
  reaction : g.reaction = f.reaction
  entry : ∃ n, mapFind g.log f.next = some n ∧ n.source.toNat = e.src.val ∧ n.cls = BitVec.ofNat 2 own ∧ n.unit = e.unit ∧
    n.detail = e.detail ∧ n.seqno = f.seqno

/-- An event of class 1 (without a context), 2 or 3 is entered where the log is not frozen; then its reaction begins. -/
theorem record_of_open {s : State} {e : FaultEvent} {own : Nat} (hfrozen : s.flt.frozen = false) (hown : 1 ≤ own)
    (hctx : own = 1 → e.ctx = none) (logged : Bool) : ∃ u : State, Entered s.flt e own u.flt ∧ u.wkt = s.wkt ∧
      (∀ o, u.unitOut o = s.unitOut o) ∧ s.record e own false logged =
        if own = 2 then u.severe e s.flt.seqno (some s.flt.next)
        else if own = 3 then State.fatal { u with flt := { u.flt with
          reaction := some (reactionTo e true s.flt.seqno (some s.flt.next) u.flt.time) } }
        else u := by
  unfold State.record
  extract_lets cls f due written n slot seqno kept first entered corrected told ended r
  have hwritten : written = true := by simp [written, due, cls, f, hfrozen, hown]
  have hentered : Entered s.flt e own entered.flt := by
    have hkept : Entered s.flt e own kept := by
      rw [show kept = f.write n from if_pos hwritten]
      refine ⟨rfl, rfl, rfl, n, ?_, ?_, rfl, rfl, rfl, if_pos hwritten⟩
      · simp [Flt.write, f]
      · simp [n]
    show Entered s.flt e own first
    dsimp only [first]
    split
    · exact ⟨hkept.next, hkept.seqno, hkept.reaction, hkept.entry⟩
    · exact hkept
  have htold : told = entered.hostInt 1 := by
    have hcorrected : corrected = entered := if_neg (by omega)
    rw [← hcorrected]
    exact if_pos (by simpa [cls] using hown)
  have hended : ended = told := by
    dsimp only [ended]
    split
    next h =>
      rw [hctx h]
    · rfl
  refine ⟨ended, ?_, ?_, fun o => ?_, ?_⟩
  · rw [hended, htold, hostInt_keeps State.flt (fun _ _ _ => rfl) (fun _ _ _ => rfl)]
    exact hentered
  · rw [hended, htold, hostInt_keeps State.wkt (fun _ _ _ => rfl) (fun _ _ _ => rfl)]
  · rw [hended, htold, hostInt_keeps (fun s => s.unitOut o) (fun _ _ _ => rfl) (fun _ _ _ => rfl)]
    rfl
  · have hslot : slot = some s.flt.next := if_pos hwritten
    have hseqno : seqno = s.flt.seqno := if_pos hwritten
    dsimp only [r]
    rw [hslot, hseqno]
    rfl

/-- Settles O57. An event that begins a severe reaction is queued for the Wicket (log entry 85), and one that hardware reports of a
double-bit error has made its word poison (log entry 117). -/
theorem faultArrivals : Obligations.FaultArrivals := by
  unfold Obligations.FaultArrivals
  intro s p e q l cycles hon hagent s1 t x
  refine ⟨?_, fun hsrc => ?_, fun hidle hfrozen hno => ?_, fun r hr hown => ?_, fun y hy hd => ?_⟩
  · change execFaultArrival p none cycles s = _
    have hget : mapGet { queue := [], pending := [] } (s.flt.advance cycles).agents p.val = { queue := e :: q, pending := l } := by
      show (mapFind s.flt.agents p.val).getD _ = _
      rw [hagent]
      rfl
    unfold execFaultArrival
    rw [if_neg (by simp [hon])]
    dsimp only
    rw [hget]
    rfl
  · have hlen : e.src.val < s1.flt.sources.length := by
      show _ < (s.flt.sources.map _).length
      rwa [List.length_map]
    rw [show t.flt.source e.src.val = _ from arrivalAt_source hlen]
    refine ⟨rfl, fun hno => ?_⟩
    rw [escalates_of_disabled hno]
    rfl
  · have ht : t = (counted s1 e).record e (s1.classOf e) false false :=
      (arrivalAt_of_idle (s := s1) hidle e).trans (by rw [escalates_of_disabled hno])
    have hrecord := fun own => record_of_open (s := counted s1 e) (e := e) (own := own) hfrozen
    refine ⟨fun hown hctx => ?_, fun hown o ho hin => ?_, fun hown => ?_⟩
    · obtain ⟨u, hentered, -, -, hu⟩ := hrecord 1 (Nat.le_refl 1) (fun _ => hctx) false
      rw [ht, hown, hu]
      obtain ⟨hnext, hseqno, hreaction, hentry⟩ := hentered
      exact ⟨hnext, hseqno, hreaction.trans hidle, hentry⟩
    · obtain ⟨u, -, hwkt, hout, hu⟩ := hrecord 2 (by decide) (fun h => by cases h) false
      rw [ht, hown, hu, if_pos rfl, severe_of_isolated ho ((hout _).trans hin)]
      refine ⟨congrArg (fun w : Wkt => w.waiting ++ [o]) hwkt, _, rfl, rfl, ?_, rfl, rfl⟩
      exact Nat.mod_eq_of_lt e.src.isLt
    · obtain ⟨u, -, -, -, hu⟩ := hrecord 3 (by decide) (fun h => by cases h) false
      rw [ht, hown, hu, if_neg (by decide), if_pos rfl]
      obtain ⟨hlog, hshut, hport, halv, hreaction⟩ := fatal_leaves { u with flt := { u.flt with
        reaction := some (reactionTo e true (counted s1 e).flt.seqno (some (counted s1 e).flt.next) u.flt.time) } }
      exact ⟨hlog, hshut, hport, halv, _, hreaction, rfl⟩
  · rw [show t = _ from arrivalAt_of_reaction (s := s1) hr e]
    unfold State.mergeEvent
    rw [if_neg (by simp [hown])]
    exact ⟨rfl, rfl, rfl, hr⟩
  · unfold State.spoil
    rw [if_neg (by rw [List.contains_iff_mem.mpr hy]; decide), if_pos hd]
    exact ⟨poisoned_of_mem (mem_setAdd.mpr (Or.inr rfl)), rfl⟩

end Sys2Proof.Proofs
end

section
/-! PROOFS. The collector's own commands (R436 to R438, R442, R445, R447, R448). -/

namespace Sys2Proof.Proofs

open Sys2Proof Sys2Proof.Machine

/-- Time that passes until a source's window ends clears its count (R437). -/
theorem advance_to_window (x : FltSource) :
    x.advance (2 ^ x.w - x.timer % 2 ^ x.w) = { x with timer := 0, count := 0 } := by
  have hpos : 0 < 2 ^ x.w := Nat.two_pow_pos _
  have hlt : x.timer % 2 ^ x.w < 2 ^ x.w := Nat.mod_lt _ hpos
  have hle : x.timer % 2 ^ x.w ≤ x.timer := Nat.mod_le _ _
  have hend : (x.timer + (2 ^ x.w - x.timer % 2 ^ x.w)) % 2 ^ x.w = 0 := by
    rw [show x.timer + (2 ^ x.w - x.timer % 2 ^ x.w) = (x.timer - x.timer % 2 ^ x.w) + 2 ^ x.w by omega, Nat.add_mod_right]
    exact Nat.sub_mod_eq_zero_of_mod_eq (Nat.mod_mod _ _).symm
  rw [FltSource.advance, if_neg (by omega), hend]

theorem source_advance {f : Flt} {i : Nat} (hi : i < f.sources.length) (n : Nat) : (f.advance n).source i = (f.source i).advance n := by
  simp [Flt.source, Flt.advance, hi]

/-- A configuration without ESC_EN is one of 16 bits. -/
theorem putBits_zero_lt {n w i : Nat} (hn : n < 2 ^ w) (hi : i < w) : putBits n i i 0 < 2 ^ w := by
  refine Nat.lt_pow_two_of_testBit _ fun j hj => ?_
  rw [testBit_putBits _ _ _ (Nat.le_refl i), if_pos (Or.inr (by omega))]
  exact Nat.testBit_lt_two_pow (hn.trans_le (Nat.pow_le_pow_right (by decide) hj))

theorem exec_windowRoll {s : State} {src : Fin 32} (hon : s.collects = true) (hlen : s.flt.sources.length = 32) :
    ∃ t, exec (.windowRoll src) s = .next t ∧ t.flt.source src.val = { s.flt.source src.val with timer := 0, count := 0 } := by
  refine ⟨_, if_neg (by simp [hon]), ?_⟩
  exact (source_advance (by rw [hlen]; exact src.isLt) _).trans (advance_to_window _)

theorem exec_reactionEnd_of_idle {s : State} {r : Reaction} (hr : s.flt.reaction = some r) (hsevere : r.fatal = false)
    (hwait : s.wkt.waiting = []) (hbusy : s.wkt.busy = none) :
    exec .reactionEnd s = .next { s with flt := { s.flt with reaction := none, firstOpen := false } } := by
  change execReactionEnd s = _
  unfold execReactionEnd
  rw [hr]
  exact if_neg (by simp [hsevere, hwait, hbusy])

theorem exec_reactionEnd_of_waiting {s : State} {r : Reaction} (hr : s.flt.reaction = some r) (hwait : s.wkt.waiting ≠ []) :
    exec .reactionEnd s = .next s := by
  change execReactionEnd s = _
  unfold execReactionEnd
  rw [hr]
  exact if_pos (by simp [hwait])

/-- Before its bound a reaction goes on (R436). -/
theorem exec_reactionOverdue_of_early {s : State} {r : Reaction} {cycles : Nat} (hr : s.flt.reaction = some r) (hon : s.collects = true)
    (htime : s.flt.time + cycles < r.began + 2 ^ 28) :
    exec (.reactionOverdue cycles) s = .next { s with flt := s.flt.advance cycles } := by
  change execReactionOverdue cycles s = _
  unfold execReactionOverdue
  rw [if_neg (by simp [hon])]
  dsimp only
  rw [show (s.flt.advance cycles).reaction = some r from hr]
  exact if_pos (by rw [Bool.or_eq_true]; exact Or.inr (decide_eq_true htime))

/-- A fatal event raises a severe reaction (R444). -/
theorem arrivalAt_of_watchdog {s : State} {r : Reaction} (hr : s.flt.reaction = some r) (hsevere : r.fatal = false) (unit : BitVec 16) :
    ∃ u : State, s.arrivalAt (event 24 unit 0) false = u.fatal := by
  rw [arrivalAt_of_reaction hr]
  unfold State.mergeEvent
  exact ⟨_, if_pos (by simp [hsevere, State.classOf, event])⟩

/-- At its bound a severe reaction becomes fatal (R436). -/
theorem exec_reactionOverdue_of_late {s : State} {r : Reaction} {cycles : Nat} (hr : s.flt.reaction = some r) (hsevere : r.fatal = false)
    (hon : s.collects = true) (htime : r.began + 2 ^ 28 ≤ s.flt.time + cycles) :
    ∃ u : State, exec (.reactionOverdue cycles) s = .next u.fatal := by
  change ∃ u : State, execReactionOverdue cycles s = _
  unfold execReactionOverdue
  rw [if_neg (by simp [hon])]
  dsimp only
  rw [show (s.flt.advance cycles).reaction = some r from hr]
  dsimp only
  have hlate : ¬ (s.flt.advance cycles).time < r.began + 2 ^ 28 := Nat.not_lt.mpr htime
  rw [if_neg (by rw [hsevere, decide_eq_false hlate]; decide)]
  obtain ⟨u, hu⟩ := arrivalAt_of_watchdog (s := { s with flt := s.flt.advance cycles }) hr hsevere (unitHub 4 0)
  exact ⟨u, congrArg Host.Outcome.next hu⟩

section
variable {s : State} (hl : s.port.linkUp = true) (ho : s.barOpen 0 = true)
include hl ho

theorem bar0Write_flt_of_open (k : State → State) : s.bar0Write true k = k s := by
  rw [State.bar0Write, barAccess_of_open hl ho]
  exact if_neg (by simp)

theorem exec_fltSrcCfgWrite {src : Fin 32} (v : BitVec 64) (hlen : s.flt.sources.length = 32) :
    ∃ t, exec (.fltSrcCfgWrite src v) s = .next t ∧ t.mem = s.mem ∧ t.flt.source src.val = { s.flt.source src.val with
      cfg := BitVec.ofNat 16 (if noEscalation.contains src.val then putBits (v.toNat % 2 ^ 16) 14 14 0 else v.toNat % 2 ^ 16)
      timer := 0
      count := 0 } :=
  ⟨_, congrArg Host.Outcome.next (bar0Write_flt_of_open hl ho _), rfl, source_set_self (by rw [hlen]; exact src.isLt) _⟩

theorem exec_inject (hon : s.collects = true) :
    exec .inject s = .next (s.arrivalAt (event (Fin.ofNat 32 s.flt.injectSrc.toNat) unitNone 0) true) :=
  congrArg Host.Outcome.next ((bar0Write_flt_of_open hl ho _).trans (if_neg (by simp [hon])))

theorem exec_unfreeze_of_severe (h : s.flt.reaction.any (·.fatal) = false) :
    exec .unfreeze s = .next { s with flt := { s.flt with frozen := false } } :=
  congrArg Host.Outcome.next ((bar0Write_flt_of_open hl ho _).trans (if_neg (by simp [h])))

theorem exec_unfreeze_of_fatal (h : s.flt.reaction.any (·.fatal) = true) : exec .unfreeze s = .next s :=
  congrArg Host.Outcome.next ((bar0Write_flt_of_open hl ho _).trans (if_pos h))

end

section
variable {s : State} (halv : s.flt.alvState = 1)
include halv

theorem exec_alvToggle_of_refreshed (hon : s.collects = true) (h : s.flt.alvRefreshed = true) :
    exec .alvToggle s = .next { s with
      flt := { s.flt with alvLevel := !s.flt.alvLevel, alvRefreshed := false,
                          alvToggles := BitVec.ofNat 32 (satAdd (2 ^ 32 - 1) s.flt.alvToggles.toNat 1) }
      out := s.out ++ [.alv !s.flt.alvLevel] } := by
  change execAlvToggle s = _
  unfold execAlvToggle
  dsimp only
  rw [if_neg (by simp [halv, hon]), if_pos h]
  rfl

theorem exec_alvToggle_of_missed (hon : s.collects = true) (h : s.flt.alvRefreshed = false) :
    exec .alvToggle s = .next ((s.stopAlv 3).report (event 24 (unitHub 4 0) 0)) := by
  change execAlvToggle s = _
  unfold execAlvToggle
  dsimp only
  rw [if_neg (by simp [halv, hon]), if_neg (by simp [h])]

theorem stopAlv_leaves (why : BitVec 2) : (s.stopAlv why).flt.alvState = why ∧ (s.stopAlv why).flt.alvLevel = false := by
  unfold State.stopAlv
  dsimp only
  rw [if_neg (by simp [halv])]
  split <;> exact ⟨rfl, rfl⟩

end

/-- Settles O58. While the Wicket works on the unit, or has an operation of the reaction queued (log entry 85), REACTION_END is an event
that cannot happen and changes nothing (log entry 20). -/
theorem collectorControls : Obligations.CollectorControls := by
  unfold Obligations.CollectorControls
  intro s src
  refine ⟨fun hon hlen => ?_, fun r hr hsevere => ⟨exec_reactionEnd_of_idle hr hsevere, exec_reactionEnd_of_waiting hr, fun cycles hon =>
    ⟨exec_reactionOverdue_of_early hr hon, fun htime => ?_⟩⟩, fun hl ho => ⟨fun v hlen => ?_, exec_inject hl ho,
    exec_unfreeze_of_severe hl ho, exec_unfreeze_of_fatal hl ho⟩, fun halv hon => ⟨fun h => ?_, fun h => ?_⟩, fun halv hfw => ?_⟩
  · obtain ⟨t, ht, hx⟩ := exec_windowRoll hon hlen
    rw [ht]
    exact ⟨t, rfl, by rw [hx], by rw [hx], by rw [hx]⟩
  · obtain ⟨u, hu⟩ := exec_reactionOverdue_of_late hr hsevere hon htime
    obtain ⟨hlog, hshut, hport, -⟩ := fatal_leaves u
    exact ⟨_, hu, hlog, hport, hshut⟩
  · obtain ⟨t, ht, hmem, hx⟩ := exec_fltSrcCfgWrite (src := src) hl ho v hlen
    refine ⟨t, ht, ?_, by rw [hx], by rw [hx], by rw [hx], hmem⟩
    have hv : v.toNat % 2 ^ 16 < 2 ^ 16 := Nat.mod_lt _ (by decide)
    rw [hx, BitVec.toNat_ofNat]
    simp only [noEscalation, List.contains_iff_mem]
    refine Nat.mod_eq_of_lt ?_
    split
    · exact putBits_zero_lt hv (by decide)
    · exact hv
  · refine ⟨_, exec_alvToggle_of_refreshed halv hon h, rfl, rfl, rfl, ?_⟩
    show (BitVec.ofNat 32 (satAdd (2 ^ 32 - 1) s.flt.alvToggles.toNat 1)).toNat = _
    rw [BitVec.toNat_ofNat]
    exact Nat.mod_eq_of_lt (by unfold satAdd; omega)
  · obtain ⟨hstate, hlevel⟩ := stopAlv_leaves halv 3
    exact ⟨_, exec_alvToggle_of_missed halv hon h, hstate, hlevel⟩
  · exact if_pos (by simp [halv, hfw])

end Sys2Proof.Proofs
end

section
/-! PROOFS. The Wicket's commands (R449 to R451, R454 to R456, R497): how they start and how they end. -/

namespace Sys2Proof.Proofs

open Sys2Proof Sys2Proof.Machine

/-! ### How a command starts -/

/-- The rows of the Wicket, with the operation that each starts. -/
theorem exec_wicketRow {u : BitVec 16} {arg : BitVec 32} {fw : Bool} {i : Instr} {op : BitVec 4}
    (h : (i, op) ∈ ([(.drain u arg fw, 1), (.test u arg fw, 2), (.returnUnit u arg fw, 3), (.spare u arg fw, 4), (.retireBank u arg fw, 5),
      (.sparePc u arg fw, 6), (.retirePage u arg fw, 7), (.repairLink u arg fw, 8)] : List (Instr × BitVec 4))) (s : State) :
    exec i s = .next (s.wicket op u arg fw) := by
  simp only [List.mem_cons, Prod.mk.injEq, List.not_mem_nil, or_false] at h
  rcases h with ⟨rfl, rfl⟩ | ⟨rfl, rfl⟩ | ⟨rfl, rfl⟩ | ⟨rfl, rfl⟩ | ⟨rfl, rfl⟩ | ⟨rfl, rfl⟩ | ⟨rfl, rfl⟩ | ⟨rfl, rfl⟩ <;> rfl

/-- WKT_CMD as an operation leaves it. -/
def wktCommand (s : State) (o : WktOp) : State :=
  { s with wkt := { s.wkt with cmdOp := o.op, cmdUnit := o.unit, cmdArg := o.arg } }

/-- The state in which an operation runs. -/
def wktRunning (s : State) (o : WktOp) : State :=
  { s with wkt := { s.wkt with
      busy := some o
      lastOp := o.op
      lastUnit := o.unit
      tested := if o.op = 1 ∨ o.op = 2 ∨ o.op = 4 then setDel s.wkt.tested o.unit.toNat else s.wkt.tested } }

theorem wktStart_of_refused {s : State} {o : WktOp} {res : Nat} (h : s.wktRefused o = some res) (hhost : o.fw = false) :
    s.wktStart o = s.wktEnd o res 0 := by
  unfold State.wktStart
  rw [h]
  exact if_neg (by simp [hhost])

theorem wktStart_of_allowed {s : State} {o : WktOp} (h : s.wktRefused o = none) (hhost : o.fw = false) :
    s.wktStart o = if o.op = 2 then (wktRunning s o).askOpen (unitIslands o.unit) else wktRunning s o := by
  unfold State.wktStart
  rw [h]
  extract_lets was noted marked running
  have hrunning : running = wktRunning s o := by
    dsimp only [running, marked, noted, was, wktRunning]
    split <;> rfl
  rw [hrunning]
  dsimp only
  rw [if_neg (c := (decide (o.op = 1) && o.fw) = true) (by simp [hhost])]

section
variable {s : State} (hl : s.port.linkUp = true) (ho : s.barOpen 0 = true) (hboot : s.boot.state ≠ 3)
include hl ho hboot

theorem wicket_of_busy (h : s.wkt.isBusy = true) (op : BitVec 4) (u : BitVec 16) (arg : BitVec 32) :
    s.wicket op u arg false = { s with wkt := { s.wkt with ignored := true } } := by
  unfold State.wicket
  dsimp only
  rw [if_pos (by decide), bar0Write_of_open hl ho hboot]
  exact if_pos h

theorem wicket_of_idle (h : s.wkt.isBusy = false) (op : BitVec 4) (u : BitVec 16) (arg : BitVec 32) :
    s.wicket op u arg false = (wktCommand s { op := op, unit := u, arg := arg, fw := false }).wktStart
      { op := op, unit := u, arg := arg, fw := false } := by
  unfold State.wicket
  dsimp only
  rw [if_pos (by decide), bar0Write_of_open hl ho hboot]
  exact if_neg (by simp [h])

end

/-- Firmware starts the severe reaction that waits first (R435, R456). -/
theorem wicket_of_waiting {s : State} {o : WktOp} {rest : List WktOp} (hbusy : s.wkt.busy = none) (hwait : s.wkt.waiting = o :: rest) :
    s.wicket o.op o.unit o.arg true = ({ s with wkt := { s.wkt with waiting := rest } } : State).wktStart o := by
  unfold State.wicket
  dsimp only
  rw [if_neg (by decide), hwait]
  exact if_neg (by simp [hbusy])

/-! ### How an operation ends -/

theorem execWicketOperationDone_of_idle {s : State} (h : s.wkt.busy = none) (pass : Bool) (us : Nat) :
    execWicketOperationDone pass us s = .next s := by
  unfold execWicketOperationDone
  rw [h]

theorem execTestTimeout_of_idle {s : State} (h : s.wkt.busy = none) : execTestTimeout s = .next s := by
  unfold execTestTimeout
  rw [h]

theorem wktEnd_leaves (s : State) (o : WktOp) (res us : Nat) : (s.wktEnd o res us).wkt.busy = none ∧
    (s.wktEnd o res us).wkt.result = BitVec.ofNat 4 res ∧ (s.wktEnd o res us).wkt.lastOp = o.op ∧
    (s.wktEnd o res us).wkt.lastUnit = o.unit ∧ (s.wktEnd o res us).wkt.durationUs.toNat = min us (2 ^ 32 - 1) := by
  refine ⟨rfl, rfl, rfl, rfl, ?_⟩
  show (BitVec.ofNat 32 (min us (2 ^ 32 - 1))).toNat = _
  rw [BitVec.toNat_ofNat]
  exact Nat.mod_eq_of_lt (by omega)

section
variable {s : State} {o : WktOp} (hbusy : s.wkt.busy = some o)
include hbusy

theorem execWicketOperationDone_of_waiting (h : s.wktReady o = false) (pass : Bool) (us : Nat) :
    execWicketOperationDone pass us s = .next s := by
  unfold execWicketOperationDone
  rw [hbusy]
  exact if_pos (by simp [h])

/-- A drain (1), a return (3) and a spare (4) take effect. -/
theorem execWicketOperationDone_of_units (h : s.wktReady o = true) (pass : Bool) (us : Nat) :
    (o.op = 1 → execWicketOperationDone pass us s = .next ((s.doDrain o.unit).wktEnd o 0 us)) ∧
    (o.op = 3 → execWicketOperationDone pass us s = .next (((s.doReturn o.unit).wktEnd o 0 us).boundaryPrograms)) ∧
    (o.op = 4 → execWicketOperationDone pass us s =
      .next ((s.doSpare (slotUnit o.unit).1 (slotUnit o.unit).2).wktEnd o 0 us)) := by
  unfold execWicketOperationDone
  rw [hbusy]
  dsimp only
  rw [if_neg (by simp [h])]
  exact ⟨fun hop => by rw [hop]; rfl, fun hop => by rw [hop]; rfl, fun hop => by rw [hop]; rfl⟩

/-- A test (2) marks a unit that has passed and keeps the slot's result (R497). -/
theorem execWicketOperationDone_of_test (h : s.wktReady o = true) (hop : o.op = 2) (pass : Bool) (us : Nat) :
    execWicketOperationDone pass us s = .next (((if pass then { s with wkt := { s.wkt with
      tested := setAdd s.wkt.tested o.unit.toNat } } else s).slotTested o.unit pass).wktEnd o (if pass then 0 else 1) us) := by
  unfold execWicketOperationDone
  rw [hbusy]
  dsimp only
  rw [if_neg (by simp [h]), hop]
  rfl

/-- A bank (5), a pseudo-channel (6) or a page (7) is used up (R455). -/
theorem execWicketOperationDone_of_memory (h : s.wktReady o = true) (pass : Bool) (us : Nat) : let n := unitIdx o.unit
    (o.op = 5 → execWicketOperationDone pass us s = .next (({ s with wkt := { s.wkt with
      banks := mapPut s.wkt.banks (n / 64) (mapGet [] s.wkt.banks (n / 64) ++ [n % 64]) } } : State).wktEnd o 0 us)) ∧
    (o.op = 6 → execWicketOperationDone pass us s = .next (({ s with wkt := { s.wkt with
      pcs := mapPut s.wkt.pcs (n / 64) (mapGet [] s.wkt.pcs (n / 64) ++ [n % 64]) } } : State).wktEnd o 0 us)) ∧
    (o.op = 7 → execWicketOperationDone pass us s = .next (({ s with wkt := { s.wkt with
      pages := mapPut s.wkt.pages (n / 64) (mapGet [] s.wkt.pages (n / 64) ++ [o.arg.toNat]) } } : State).wktEnd o 0 us)) := by
  unfold execWicketOperationDone
  rw [hbusy]
  dsimp only
  rw [if_neg (by simp [h])]
  exact ⟨fun hop => by rw [hop]; rfl, fun hop => by rw [hop]; rfl, fun hop => by rw [hop]; rfl⟩

/-- A link that trains (8) is repaired; another is down, and is reported (R455). -/
theorem execWicketOperationDone_of_link (h : s.wktReady o = true) (hop : o.op = 8) (us : Nat) : let n := unitIdx o.unit
    execWicketOperationDone true us s = .next (({ s with wkt := { s.wkt with
      repaired := setAdd s.wkt.repaired n } } : State).wktEnd o 0 us) ∧
    execWicketOperationDone false us s = .next ((({ s with wkt := { s.wkt with
      linksDown := setAdd s.wkt.linksDown n } } : State).wktEnd o 5 us).report (event 11 o.unit (Config.unstated 455 n))) := by
  unfold execWicketOperationDone
  rw [hbusy]
  dsimp only
  rw [h, hop]
  exact ⟨rfl, rfl⟩

theorem execTestTimeout_of_test (hop : o.op = 2) : execTestTimeout s = .next (s.wktEnd o 1 2147483) := by
  unfold execTestTimeout
  rw [hbusy]
  exact if_pos hop

theorem execTestTimeout_of_other (hop : o.op ≠ 2) : execTestTimeout s = .next s := by
  unfold execTestTimeout
  rw [hbusy]
  exact if_neg hop

end

/-- Settles O59. The severe reaction that waits first starts when firmware's row names its operation (log entry 85). -/
theorem wicketCommands : Obligations.WicketCommands := by
  unfold Obligations.WicketCommands
  intro s u arg us rows
  refine ⟨fun i op hi hl ho hboot => ?_, fun i op rest hi hbusy hwait => ?_, fun o hbusy pass => ?_, fun o res => wktEnd_leaves s o res us,
    fun hbusy => ⟨fun pass => execWicketOperationDone_of_idle hbusy pass us, execTestTimeout_of_idle hbusy⟩⟩
  · intro o
    rw [exec_wicketRow hi]
    refine ⟨fun h => congrArg Host.Outcome.next (wicket_of_busy hl ho hboot h op u arg), fun h => ?_⟩
    rw [wicket_of_idle hl ho hboot h]
    exact ⟨fun res hres => congrArg Host.Outcome.next (wktStart_of_refused hres rfl),
      fun hres => congrArg Host.Outcome.next (wktStart_of_allowed hres rfl)⟩
  · rw [exec_wicketRow hi]
    have hstart := wicket_of_waiting hbusy hwait
    dsimp only at hstart
    rw [hstart]
  · refine ⟨fun h => execWicketOperationDone_of_waiting hbusy h pass us, fun h => ?_, execTestTimeout_of_test hbusy,
      execTestTimeout_of_other hbusy⟩
    obtain ⟨hdrain, hreturn, hspare⟩ := execWicketOperationDone_of_units hbusy h pass us
    obtain ⟨hbank, hpc, hpage⟩ := execWicketOperationDone_of_memory hbusy h pass us
    refine ⟨hdrain, fun hop => execWicketOperationDone_of_test hbusy h hop pass us, hreturn, hspare, hbank, hpc, hpage,
      fun hop hpass => ?_, fun hop hpass => ?_⟩
    · subst hpass
      exact (execWicketOperationDone_of_link hbusy h hop us).1
    · subst hpass
      exact ⟨_, (execWicketOperationDone_of_link hbusy h hop us).2⟩

end Sys2Proof.Proofs
end

section
/-! PROOFS. The steering of power (R398, R402 to R410, R414, R415, R417): shares, Louvres, hints and phase marks. -/

namespace Sys2Proof.Proofs

open Sys2Proof Sys2Proof.Machine

/-! ### The power records of the dies -/

theorem diePwr_setDie (s : State) (d e : Nat) (x : DiePwr) : (s.setDie d x).diePwr e = if e = d then x else s.diePwr e :=
  mapGet_mapSet ..

theorem diePwr_setDie_self (s : State) (d : Nat) (x : DiePwr) : (s.setDie d x).diePwr d = x := by
  rw [diePwr_setDie, if_pos rfl]

theorem diePwr_setDie_other {d e : Nat} (h : e ≠ d) (s : State) (x : DiePwr) : (s.setDie d x).diePwr e = s.diePwr e := by
  rw [diePwr_setDie, if_neg h]

/-- What a step for each die of a list gives the die's record, where it changes no other. -/
theorem diePwr_foldl {f : State → Nat → State} {P : Nat → DiePwr → Prop} (hset : ∀ s d, P d ((f s d).diePwr d))
    (hother : ∀ s d e, e ≠ d → (f s d).diePwr e = s.diePwr e) {l : List Nat} {e : Nat} (he : e ∈ l) (s : State) :
    P e ((l.foldl f s).diePwr e) := by
  induction l using List.reverseRecOn with
  | nil => cases he
  | append_singleton l d ih =>
    rw [List.foldl_append]
    by_cases h : e = d
    · subst h
      exact hset _ _
    · rw [List.foldl_cons, List.foldl_nil, hother _ _ _ h]
      exact ih (by simpa [h] using he)

/-- What the steering of power leaves alone: the settings and what they have put in force, memory, cores, units and islands. -/
def powerFrame (s : State) : Pwr × Memory × List (Nat × Core) × Wkt × Boot :=
  ({ s.pwr with dies := [], throttleEntries := 0 }, s.mem, s.cores, s.wkt, s.boot)

theorem frame_fields {s t : State} (h : powerFrame t = powerFrame s) : t.pwr.variableActive = s.pwr.variableActive ∧
    t.pwr.repStepActive = s.pwr.repStepActive ∧ t.pwr.fixedMw = s.pwr.fixedMw ∧ t.mem = s.mem ∧ t.cores = s.cores ∧
    t.pwr.cap = s.pwr.cap ∧ t.pwr.margin = s.pwr.margin ∧ t.pwr.floor = s.pwr.floor ∧ t.pwr.ceil = s.pwr.ceil := by
  obtain ⟨hpwr, hrest⟩ := Prod.mk.inj h
  obtain ⟨hmem, hrest⟩ := Prod.mk.inj hrest
  exact ⟨(congrArg Pwr.variableActive hpwr :), (congrArg Pwr.repStepActive hpwr :), (congrArg Pwr.fixedMw hpwr :), hmem,
    (Prod.mk.inj hrest).1, (congrArg Pwr.cap hpwr :), (congrArg Pwr.margin hpwr :), (congrArg Pwr.floor hpwr :),
    (congrArg Pwr.ceil hpwr :)⟩

theorem diesIn_congr {s t : State} (hwkt : t.wkt = s.wkt) (hboot : t.boot = s.boot) : t.diesIn = s.diesIn := by
  have hin : t.dieIn = s.dieIn := by
    funext d
    simp only [State.dieIn, State.dieUp, State.clusterUp, State.slots, State.open, hwkt, hboot] <;> rfl
  rw [State.diesIn, State.diesIn, hin]

theorem diesIn_of_frame {s t : State} (h : powerFrame t = powerFrame s) : t.diesIn = s.diesIn :=
  diesIn_congr (congrArg (fun x => x.2.2.2.1) h) (congrArg (fun x => x.2.2.2.2) h)

theorem lt_of_mem_diesIn {s : State} {d : Nat} (h : d ∈ s.diesIn) : d < 16 :=
  List.mem_range.mp (List.mem_filter.mp h).1

theorem thermDie_frame (s : State) (d : Nat) : powerFrame (s.thermDie d) = powerFrame s := by
  fun_cases State.thermDie
  · rfl
  · exact hostInt_keeps powerFrame (fun _ _ _ => rfl) (fun _ _ _ => rfl) _ 4
  · rfl
  · rfl

theorem dieClocks_frame (s : State) (d : Nat) (held : Bool) : powerFrame (s.dieClocks d held) = powerFrame s := by
  fun_cases State.dieClocks <;> rfl

theorem dieClocks_share (s : State) (d e : Nat) (held : Bool) : ((s.dieClocks d held).diePwr e).share = (s.diePwr e).share := by
  by_cases h : e = d
  · subst h
    fun_cases State.dieClocks <;> rw [diePwr_setDie_self] <;> rfl
  · fun_cases State.dieClocks <;> rw [diePwr_setDie_other h]

/-! ### Shares (R409) -/

theorem floor_le_ceil (p : Pwr) : p.floor ≤ p.ceil := by
  unfold Pwr.floor Pwr.ceil clampNat
  omega

theorem scaleShares_of_short {s : State} {ds : List Nat} {b : Rat} (h : b < s.pwr.floor * (ds.length : Rat)) (share : Nat → Rat) (d : Nat) :
    s.scaleShares ds b share d = max b 0 / max 1 (ds.length : Rat) := by
  unfold State.scaleShares
  dsimp only
  rw [if_pos h]

theorem scaleShares_within {s : State} {ds : List Nat} {b : Rat} (h : ¬ b < s.pwr.floor * (ds.length : Rat)) (share : Nat → Rat) (d : Nat) :
    (s.pwr.floor : Rat) ≤ s.scaleShares ds b share d ∧ s.scaleShares ds b share d ≤ s.pwr.ceil := by
  unfold State.scaleShares
  dsimp only
  rw [if_neg h]
  have hceil : s.dieCeil d ≤ (s.pwr.ceil : Rat) := min_le_left _ _
  exact ⟨le_max_left _ _, max_le (Nat.cast_le.mpr (floor_le_ceil s.pwr)) ((min_le_right _ _).trans hceil)⟩

/-- A period begins: the mode and the clock of PWR_MODE are in force, and fixed power is taken. -/
def beginPeriod (s : State) : State :=
  let p := s.pwr
  let rep := if p.repAuto then repStepOf p.cap else p.repStep
  let low := p.louvreSeen || s.louvreLow
  { s with
    fresh := s.fresh + 1
    pwr := { p with
      variableActive := p.varMode, repStep := rep, repStepActive := min 80 rep, fixedMw := s.fixedNow, louvreEngaged := low
      louvreSeen := false
      louvrePeriods := if low then BitVec.ofNat 16 (satAdd 0xFFFF p.louvrePeriods.toNat 1) else p.louvrePeriods } }

/-- A die in service gets its share, and another one none. -/
def shareStep (ds : List Nat) (final : Nat → Rat) (s : State) (d : Nat) : State :=
  s.setDie d { s.diePwr d with share := if ds.contains d then final d else 0 }

/-- A period gives each die in service its scaled share, under the settings that were in force when it began. -/
theorem exec_heliostatPeriod {s : State} (h : s.steers = true) (waits : List (Nat × Nat)) : ∃ (t u : State) (moved : Nat → Rat),
    exec (.heliostatPeriod waits) s = .next t ∧ powerFrame u = powerFrame (beginPeriod s) ∧ powerFrame t = powerFrame u ∧
    ∀ d ∈ s.diesIn, (t.diePwr d).share = u.scaleShares s.diesIn (u.pwr.budget u.pwr.cap) moved d := by
  change ∃ (t u : State) (moved : Nat → Rat), execHeliostatPeriod waits s = .next t ∧ _
  unfold execHeliostatPeriod
  rw [if_neg (by simp [h])]
  generalize hdies : List.range 16 = dies
  extract_lets p rep low begun thermed p' ds w b share moved final held shared
  have hthermed : powerFrame thermed = powerFrame (beginPeriod s) :=
    foldl_keeps powerFrame (fun s d => by
      split
      · exact thermDie_frame s d
      · rfl) _ _
  have hds : ds = s.diesIn := diesIn_of_frame (s := beginPeriod s) hthermed
  refine ⟨_, thermed, moved, rfl, hthermed, ?_, fun d hd => ?_⟩
  · exact (foldl_keeps powerFrame (fun s d => dieClocks_frame s d held) _ _).trans
      (foldl_keeps powerFrame (f := shareStep ds final) (fun _ _ => rfl) _ _)
  · rw [foldl_keeps (fun s => (s.diePwr d).share) (fun s e => dieClocks_share s e d held)]
    have hin : ds.contains d = true := by
      rw [hds]
      exact List.contains_iff_mem.mpr hd
    have hshare := diePwr_foldl (f := shareStep ds final)
      (P := fun d x => ds.contains d = true → x.share = final d) (fun s d hin => by
        rw [shareStep, diePwr_setDie_self]
        exact if_pos hin)
      (fun s d e he => diePwr_setDie_other he s _) (hdies ▸ List.mem_range.mpr (lt_of_mem_diesIn hd)) thermed hin
    rw [← hds]
    exact hshare

/-! ### Louvres (R404, R410, R417) -/

/-- The common Louvre's next setting (R404). -/
def nextCommonLouvre (s : State) : Nat :=
  if (s.pwr.cap - s.pwr.margin) * 1000 < s.deviceMw then max 4 (s.pwr.commonLouvre - 1)
  else if s.deviceMw < (s.pwr.cap - s.pwr.margin) * 1000 then min 32 (s.pwr.commonLouvre + 1)
  else s.pwr.commonLouvre

/-- A die's Louvre settings under the common one. -/
def commonLouvreStep (l : Nat) (s : State) (d : Nat) : State :=
  s.setDie d { s.thermStep d with louvre := List.replicate 4 (min l (s.thermStep d).thermLouvre) }

theorem commonLouvreStep_louvre (l : Nat) (s : State) (d : Nat) : ∀ x ∈ ((commonLouvreStep l s d).diePwr d).louvre, x ≤ l := by
  intro x hx
  rw [commonLouvreStep, diePwr_setDie_self] at hx
  rw [(List.mem_replicate.mp hx).2]
  exact min_le_left _ _

theorem exec_repeatableLouvreTick {s : State} (h : s.steers = true) (hrep : s.pwr.variableActive = false) : ∃ t,
    exec .repeatableLouvreTick s = .next t ∧ t.pwr.commonLouvre = nextCommonLouvre s ∧ t.mem = s.mem ∧
    ∀ d ∈ s.diesIn, ∀ x ∈ (t.diePwr d).louvre, x ≤ nextCommonLouvre s := by
  change ∃ t, execRepeatableLouvreTick s = .next t ∧ _
  unfold execRepeatableLouvreTick
  extract_lets p lim now l begun louvred
  rw [if_neg (by simp [p, h, hrep])]
  have hl : begun.pwr.commonLouvre = nextCommonLouvre s := by
    simp only [begun, l, lim, now, p, nextCommonLouvre]
  have hlouvred : louvred = s.diesIn.foldl (commonLouvreStep (nextCommonLouvre s)) begun := by
    rw [← diesIn_congr (s := s) (t := begun) rfl rfl]
    rfl
  refine ⟨_, rfl, ?_, ?_, fun d hd => ?_⟩
  · show louvred.pwr.commonLouvre = _
    rw [hlouvred]
    exact (foldl_keeps (f := commonLouvreStep (nextCommonLouvre s)) (fun s => s.pwr.commonLouvre) (fun _ _ => rfl) s.diesIn begun).trans hl
  · show louvred.mem = _
    rw [hlouvred]
    exact foldl_keeps (f := commonLouvreStep (nextCommonLouvre s)) State.mem (fun _ _ => rfl) s.diesIn begun
  · show ∀ x ∈ (louvred.diePwr d).louvre, _
    rw [hlouvred]
    exact diePwr_foldl (f := commonLouvreStep (nextCommonLouvre s)) (P := fun _ y => ∀ x ∈ y.louvre, x ≤ nextCommonLouvre s)
      (commonLouvreStep_louvre _) (fun s d e he => diePwr_setDie_other he s _) hd _

/-- A die agent's tick moves the die's Louvre settings one by one and leaves its share. -/
theorem exec_dieAgentTick {s : State} {d : DieId} (h : s.steers = true) (hvar : s.pwr.variableActive = true) (hin : s.dieIn d = true) :
    ∃ (t : State) (steps : Nat), exec (.dieAgentTick d) s = .next t ∧ t.mem = s.mem ∧ (t.diePwr d).share = (s.diePwr d).share ∧
    (t.diePwr d).louvre = (s.diePwr d).louvre.map (fun l =>
      min (if (s.diePwr d).share * 1000 < (s.dieMw d : Rat) then max 4 (l - steps)
        else if (s.dieMw d : Rat) < (s.diePwr d).share * 1000 then min 32 (l + 1) else l) (s.thermStep d).thermLouvre) := by
  change ∃ (t : State) (steps : Nat), execDieAgentTick d s = .next t ∧ _
  unfold execDieAgentTick
  rw [if_neg (by simp [h, hvar, hin])]
  extract_lets x mw share steps move ticked
  have hticked : ticked.diePwr d = { x with louvre := x.louvre.map (fun l => min (move l) x.thermLouvre) } := diePwr_setDie_self ..
  exact ⟨_, steps, rfl, rfl, (congrArg DiePwr.share hticked :), (congrArg DiePwr.louvre hticked :)⟩

/-! ### Hints (R415) -/

/-- The hint that a POWER_HINT packet gives. -/
def hostHint (kind : Nat) (p : Pkt) : Option Hint :=
  if kind = 2 then none else some { kind := kind, lead := min 1000 (p.field 20 4), dur := max 1 (min 100000 (p.field 24 4)) }

section
variable {f : FnId} {r : RingId} {q : PktSeq} {p : Pkt} {s : State} {kind : Nat}
  (hready : s.ready f r q 0x50 (fun p => decide (p.byte 16 = kind)) p = true)
include hready

theorem powerHint_of_acting (hvar : (s.begun f r q p).pwr.variableActive = true) (hhost : (s.begun f r q p).pwr.hostHints = true) :
    s.powerHint f r q kind = .next (({ s.begun f r q p with pwr := { (s.begun f r q p).pwr with hint := hostHint kind p } } :
      State).finish f r q 0 []) := by
  refine (carried_of_ready rfl hready).trans ?_
  dsimp only
  rw [if_pos (by simp [hvar, hhost])]
  rfl

theorem powerHint_of_idle (h : (s.begun f r q p).pwr.variableActive = false ∨ (s.begun f r q p).pwr.hostHints = false) :
    s.powerHint f r q kind = .next ((s.begun f r q p).finish f r q 0 []) := by
  refine (carried_of_ready rfl hready).trans ?_
  dsimp only
  rw [if_neg (by rcases h with h | h <;> simp [h])]
  rfl

end

theorem exec_powerHint {f : FnId} {r : RingId} {q : PktSeq} {i : Instr} {kind : Nat}
    (h : (i, kind) ∈ [(Instr.powerHintHeavy f r q, 0), (.powerHintLight f r q, 1), (.powerHintClear f r q, 2)]) (s : State) :
    exec i s = s.powerHint f r q kind := by
  simp only [List.mem_cons, Prod.mk.injEq, List.not_mem_nil, or_false] at h
  rcases h with ⟨rfl, rfl⟩ | ⟨rfl, rfl⟩ | ⟨rfl, rfl⟩ <;> rfl

/-- Settles O46. The thermal Louvre moves by one step (log entry 48), fixed and die power are those of the latest reports (entry 47), and
the common clock's step is taken at the period (entry 81). -/
theorem powerSteering : Obligations.PowerSteering := by
  unfold Obligations.PowerSteering
  intro s
  refine ⟨fun waits h => ?_, fun h hrep => exec_repeatableLouvreTick h hrep, fun d h hvar hin => ?_, fun f r q p i kind hi hready => ?_,
    rfl, fun heavy => ⟨fun hvar himage hstep => ?_, fun h => ?_⟩⟩
  · obtain ⟨t, u, moved, ht, hu, htu, hshare⟩ := exec_heliostatPeriod h waits
    obtain ⟨hvariable, hclock, hfixed, hmem, hcores, -⟩ := frame_fields (htu.trans hu)
    obtain ⟨-, -, hufixed, -, -, hcap, hmargin, hfloor, hceil⟩ := frame_fields hu
    refine ⟨t, ht, hvariable, hclock, hfixed, hmem, hcores, fun d hd => ?_⟩
    intro b n
    have hb : u.pwr.budget u.pwr.cap = b := by
      unfold Pwr.budget
      rw [hufixed, hcap, hmargin]
      rfl
    have hn : max 1 n = n := max_eq_right (Nat.one_le_cast.mpr (List.length_pos_of_mem hd))
    rw [hshare d hd, hb, ← show u.pwr.floor = s.pwr.floor from hfloor, ← show u.pwr.ceil = s.pwr.ceil from hceil]
    exact ⟨fun hlow => (scaleShares_of_short hlow moved d).trans (congrArg _ hn), fun hhigh => scaleShares_within hhigh moved d⟩
  · obtain ⟨t, steps, ht, hmem, hshare, hlouvre⟩ := exec_dieAgentTick h hvar hin
    refine ⟨t, ht, hmem, hshare, fun hbelow x hx _ => ?_, fun habove y hy => ?_⟩
    · refine ⟨_, hlouvre ▸ List.mem_map_of_mem hx, ?_⟩
      rw [if_neg hbelow.le.not_gt, if_pos hbelow]
    · rw [hlouvre] at hy
      obtain ⟨x, hx, rfl⟩ := List.mem_map.mp hy
      refine ⟨x, hx, (min_le_left _ _).trans ?_⟩
      rw [if_pos habove]
      exact max_le_max_left 4 (Nat.sub_le _ _)
  · rw [exec_powerHint hi]
    exact ⟨powerHint_of_acting hready, powerHint_of_idle hready⟩
  · exact if_pos (by simp [hvar, himage, Option.isSome_iff_ne_none, hstep])
  · refine if_neg ?_
    rcases h with h | h | h <;> simp [h]

end Sys2Proof.Proofs
end

section
/-! PROOFS. What the power manager makes of reports (R397, R403, R413, R416 to R419, R480, R483, R486), of PWR_CAP and PWR_MODE (R399,
R401, R408) and of the sideband (R488 to R490). -/

namespace Sys2Proof.Proofs

open Sys2Proof Sys2Proof.Machine

/-! ### Rails (R397) -/

section
variable {s : State} {rail : RailId}

theorem exec_railReport_of_off (h : s.railOn rail = false) (mw : Nat) : exec (.railReport rail mw) s = .next s :=
  if_pos (by simp [h])

theorem exec_railReport_of_on (h : s.railOn rail = true) (mw : Nat) : exec (.railReport rail mw) s = .next (s.setRail rail
    (if (s.pwr.rail rail).lost = true ∧ (s.pwr.rail rail).good = 0 then { mw := mw, lost := true, good := 1 }
      else { mw := mw, lost := false, good := 0 })) := by
  change execRailReport rail mw s = _
  unfold execRailReport
  dsimp only
  rw [if_neg (by simp [h])]
  by_cases hlost : (s.pwr.rail rail).lost = true ∧ (s.pwr.rail rail).good = 0
  · rw [if_pos (by simpa using hlost), if_pos hlost, hlost.1]
  · rw [if_neg (by simpa using hlost), if_neg hlost]

theorem exec_telemetryTimeout_of_off (h : s.railOn rail = false) : exec (.telemetryTimeout rail) s = .next s :=
  if_pos (by simp [h])

theorem exec_telemetryTimeout_of_lost (h : s.railOn rail = true) (hlost : (s.pwr.rail rail).lost = true) :
    exec (.telemetryTimeout rail) s = .next (s.setRail rail { mw := (s.pwr.rail rail).mw, lost := true, good := 0 }) := by
  change execTelemetryTimeout rail s = _
  unfold execTelemetryTimeout
  dsimp only
  rw [if_neg (by simp [h]), if_pos hlost, hlost]

theorem exec_telemetryTimeout_of_counted (h : s.railOn rail = true) (hlost : (s.pwr.rail rail).lost = false) :
    exec (.telemetryTimeout rail) s = .next ((s.setRail rail { mw := (s.pwr.rail rail).mw, lost := true, good := 0 }).report
      (event 21 (if rail.val < 100 then unitIsland rail else unitNone) 0)) := by
  change execTelemetryTimeout rail s = _
  unfold execTelemetryTimeout
  dsimp only
  rw [if_neg (by simp [h]), if_neg (by simp [hlost])]

/-- A lost rail counts at its rated maximum. -/
theorem railMw_of_lost (h : s.railOn rail = true) (m g : Nat) :
    (s.setRail rail { mw := m, lost := true, good := g }).railMw rail = ratedMw rail := by
  have hon : (s.setRail rail { mw := m, lost := true, good := g }).railOn rail = true := h
  have hrail : (s.setRail rail { mw := m, lost := true, good := g }).pwr.rail rail = { mw := m, lost := true, good := g } := by
    simp [State.setRail, Pwr.rail, mapGet]
  rw [State.railMw, hon, hrail]
  rfl

end

/-! ### Sensors (R416, R417) -/

/-- A reading of the sensors of rail r is kept. -/
def sensed (s : State) (r : RailId) (temp : Int) (alert : Bool) : State :=
  { s with pwr := { s.pwr with
      sensors := mapPut s.pwr.sensors r temp
      alerts := if 100 ≤ r.val then (if alert then setAdd s.pwr.alerts (r - 100) else setDel s.pwr.alerts (r - 100)) else s.pwr.alerts } }

section
variable {s : State} {r : RailId} {temp : Int}

theorem exec_sensorRead_of_off (h : s.railOn r = false) (alert : Bool) : exec (.sensorRead r temp alert) s = .next s :=
  if_pos (by simp [h])

theorem exec_sensorRead_of_cool (h : s.railOn r = true) (hcool : 80 ≤ r.val ∨ temp < s.pwr.throttleAt + 5) (alert : Bool) :
    exec (.sensorRead r temp alert) s = .next (sensed s r temp alert) := by
  have hno : ¬ (r.val < 80 ∧ s.pwr.throttleAt + 5 ≤ temp) := by omega
  change execSensorRead r temp alert s = _
  unfold execSensorRead
  rw [if_neg (by simp [h])]
  exact if_neg hno

theorem exec_sensorRead_of_hot (h : s.railOn r = true) (hr : r.val < 80) (hhot : s.pwr.throttleAt + 5 ≤ temp) (alert : Bool) :
    let d := if r.val < 64 then r.val / 4 else r.val - 64
    ∃ u, exec (.sensorRead r temp alert) s = .next u ∧
      u.diePwr d = { s.diePwr d with louvre := (s.diePwr d).louvre.map (min 8), thermLouvre := min 8 (s.diePwr d).thermLouvre } ∧
      u.pwr.sensors = (sensed s r temp alert).pwr.sensors ∧ u.pwr.alerts = (sensed s r temp alert).pwr.alerts ∧
      u.pwr.louvreSeen = true ∧ u.mem = s.mem ∧ u.cores = s.cores := by
  intro d
  let x : DiePwr := { s.diePwr d with louvre := (s.diePwr d).louvre.map (min 8), thermLouvre := min 8 (s.diePwr d).thermLouvre }
  let t := (sensed s r temp alert).setDie d x
  refine ⟨{ t with pwr := { t.pwr with louvreSeen := true } }, ?_, ?_, rfl, rfl, rfl, rfl, rfl⟩
  · change execSensorRead r temp alert s = _
    unfold execSensorRead
    rw [if_neg (by simp [h])]
    exact if_pos ⟨hr, hhot⟩
  · exact (diePwr_setDie_self (sensed s r temp alert) d x :)

end

/-! ### Trips (R418) -/

theorem contains_setDel_self (l : List Nat) (i : Nat) : (setDel l i).contains i = false := by
  simp [setDel]

theorem closeIsland_boot (s : State) (i : Nat) :
    (s.closeIsland i).boot = { s.boot with islandsOpen := setDel s.boot.islandsOpen i } := by
  unfold State.closeIsland
  dsimp only
  split
  · rfl
  · split <;> rfl

theorem closeIsland_open (s : State) (i : Nat) : (s.closeIsland i).open i = false := by
  rw [State.open, closeIsland_boot]
  exact contains_setDel_self _ i

theorem enterPc_boot (s : State) (cause : Nat) : (s.enterPc cause).boot = s.boot := by
  cases h : s.port.frozen with
  | true => rw [enterPc_of_frozen h]
  | false => exact enterPc_keeps State.boot (fun _ _ _ => rfl) (fun _ _ => rfl) h cause

theorem stopAlv_wkt (s : State) (why : BitVec 2) : (s.stopAlv why).wkt = s.wkt := by
  unfold State.stopAlv
  dsimp only
  split
  · rfl
  · split <;> rfl

/-- The die of an island that trips is marked. -/
def tripMarked (s : State) (i : IslandId) : State :=
  if i.val < 80 then s.setDie (if i.val < 64 then i.val / 4 else i.val - 64)
    { s.diePwr (if i.val < 64 then i.val / 4 else i.val - 64) with tripped := true } else s

/-- The Shutter of an island that trips is closed, and source 19 has the reading. -/
def tripClosed (s : State) (i : IslandId) (temp : Int) : State :=
  ((if i.val = 84 then (tripMarked s i).stopAlv 2 else tripMarked s i).closeIsland i).report
    { event 19 (unitIsland i) 0 with detail := BitVec.ofInt 64 temp }

theorem tripClosed_wkt (s : State) (i : IslandId) (temp : Int) : (tripClosed s i temp).wkt = s.wkt := by
  have hmarked : (tripMarked s i).wkt = s.wkt := by
    unfold tripMarked
    split <;> rfl
  refine (closeIsland_wkt _ _).trans ?_
  split
  · exact (stopAlv_wkt _ _).trans hmarked
  · exact hmarked

theorem tripClosed_open (s : State) (i : IslandId) (temp : Int) : (tripClosed s i temp).open i = false :=
  closeIsland_open _ _

/-- The Portcullis is entered with cause 4, and no Shutter opens any more. -/
def tripFatal (s : State) : State := State.enterPc { s with boot := { s.boot with noShutters := true } } 4

section
variable {s : State} {i : IslandId}

theorem exec_thermalTrip_of_closed (h : s.open i = false) (temp : Int) : exec (.thermalTrip i temp) s = .next s :=
  if_pos (by simp [h])

theorem exec_thermalTrip_of_open (h : s.open i = true) (temp : Int) : ∃ u : State, exec (.thermalTrip i temp) s =
    (if s.islandOut i = true then .next u else .next (tripFatal u)) ∧ u.boot = (tripClosed s i temp).boot ∧
    (s.wkt.busy = none → u = tripClosed s i temp) := by
  change ∃ u : State, execThermalTrip i temp s = _ ∧ _
  unfold execThermalTrip
  rw [if_neg (by simp [h])]
  refine ⟨_, rfl, ?_, fun hbusy => ?_⟩
  · split
    · split <;> rfl
    · rfl
  · have hidle : (tripClosed s i temp).wkt.busy = none := by rw [tripClosed_wkt, hbusy]
    split
    next o ho => exact absurd (ho.symm.trans hidle) (by simp)
    · rfl

end

/-! ### Voltages, droops and Shutters (R403, R413, R419) -/

section
variable {s : State} {d : DieId} {k : Fin 4}

theorem exec_voltageReached_of_idle (h : mapFind (s.diePwr d).wants k = none) : exec (.voltageReached d k) s = .next s := by
  change execVoltageReached d k s = _
  unfold execVoltageReached
  dsimp only
  rw [h]

theorem exec_voltageReached_of_rise {n : Nat} (h : mapFind (s.diePwr d).wants k = some n) : exec (.voltageReached d k) s =
    .next (s.setDie d { s.diePwr d with steps := (s.diePwr d).steps.set k n, wants := mapDel (s.diePwr d).wants k }) := by
  change execVoltageReached d k s = _
  unfold execVoltageReached
  dsimp only
  rw [h]

theorem exec_droopDetect_of_ignored (h : s.open (4 * d.val + k.val) = false ∨ s.pwr.stretched.contains (4 * d.val + k.val) = true) :
    exec (.droopDetect d k) s = .next s :=
  if_pos (by rcases h with h | h <;> rw [h] <;> simp)

theorem exec_droopDetect_of_new (hopen : s.open (4 * d.val + k.val) = true) (hnew : s.pwr.stretched.contains (4 * d.val + k.val) = false) :
    exec (.droopDetect d k) s = .next (State.report { s with pwr := { s.pwr with
      stretched := setAdd s.pwr.stretched (4 * d.val + k.val)
      droop := BitVec.ofNat 16 (min 0xFFFF (s.pwr.droop.toNat + 1)) } } (event 20 (unitCluster d k) 0)) :=
  if_neg (by rw [hopen, hnew]; decide)

theorem exec_shutterWave_of_open (hpower : s.boot.powered = true) (hshut : s.boot.noShutters = false) (hopen : s.open 84 = true) :
    exec .shutterWave s = .next { s with boot := { s.boot with
      islandsOpen := (s.boot.shutterQueue.take 8).foldl setAdd s.boot.islandsOpen
      shutterQueue := s.boot.shutterQueue.drop 8 } } :=
  if_neg (by simp [hpower, hshut, hopen])

theorem exec_shutterWave_of_closed (h : s.boot.powered = false ∨ s.boot.noShutters = true ∨ s.open 84 = false) :
    exec .shutterWave s = .next s :=
  if_pos (by rcases h with h | h | h <;> simp [h])

end

/-! ### Regulators, the reference clock and the input (R480, R483, R486) -/

/-- REG_FAIL is reported with the rail's island, without one for a stack. -/
def railReported (s : State) (rail : RailId) (word : BitVec 32) : State :=
  s.report (event 22 (if rail.val < 100 then unitIsland rail.val else unitNone) word.toNat)

section
variable {s : State} {rail : RailId} {word : BitVec 32}

theorem exec_regFail_of_off (h : s.railOn rail = false) : exec (.regFail rail word) s = .next s :=
  if_pos (by simp [h])

theorem exec_regFail_of_mild (h : s.railOn rail = true) (hmild : bits word.toNat 2 0 = 0) :
    exec (.regFail rail word) s = .next (railReported s rail word) := by
  change execRegFail rail word s = _
  unfold execRegFail
  rw [if_neg (by simp [h])]
  exact if_pos (by simp [hmild])

variable (h : s.railOn rail = true) (hoff : bits word.toNat 2 0 ≠ 0)
include h hoff

theorem exec_regFail_of_island (hr : rail.val < 100) : exec (.regFail rail word) s =
    .next ((if rail.val = 84 then (railReported s rail word).stopAlv 2 else railReported s rail word).closeIsland rail.val) := by
  change execRegFail rail word s = _
  unfold execRegFail
  dsimp only
  rw [if_neg (by simp [h]), if_neg (by simp [hoff]), if_pos hr]
  rfl

theorem exec_regFail_of_stack (hr : 100 ≤ rail.val) : exec (.regFail rail word) s = .next { railReported s rail word with
    mem := (railReported s rail word).mem.zero (hbmPa (rail.val - 100) 0) (2 ^ 36)
    boot := { (railReported s rail word).boot with
      stackFailed := setAdd (railReported s rail word).boot.stackFailed (rail.val - 100) } } := by
  change execRegFail rail word s = _
  unfold execRegFail
  dsimp only
  rw [if_neg (by simp [h]), if_neg (by simp [hoff]), if_neg (by omega)]
  rfl

/-- UV, OV or OC leaves the rail without power (R483). -/
theorem railOn_regFail {t : State} (ht : exec (.regFail rail word) s = .next t) : t.railOn rail = false := by
  by_cases hr : rail.val < 100
  · rw [exec_regFail_of_island h hoff hr] at ht
    cases ht
    rw [State.railOn, if_pos hr]
    exact closeIsland_open _ _
  · rw [exec_regFail_of_stack h hoff (by omega)] at ht
    cases ht
    rw [State.railOn, if_neg hr]
    exact Bool.and_eq_false_imp.mpr (fun _ => by rw [contains_setAdd_self]; rfl)

end

theorem exec_refclkLoss_of_closed {s : State} (h : s.open 84 = false) : exec .refclkLoss s = .next s :=
  if_pos (by simp [h])

theorem exec_refclkLoss_of_rom {s : State} (h : s.open 84 = true) (hrom : s.boot.fwRunning = false) :
    exec .refclkLoss s = .next { s with boot := { s.boot with romStopped := true } } :=
  (if_neg (by simp [h])).trans (if_pos (by simp [hrom]))

theorem exec_refclkLoss_of_firmware {s : State} (h : s.open 84 = true) (hfw : s.boot.fwRunning = true) :
    exec .refclkLoss s = .next (s.report (event 22 (unitIsland 84) 16)) :=
  (if_neg (by simp [h])).trans (if_neg (by simp [hfw]))

theorem exec_inputVoltageWarn_of_warned {s : State} {mv : Nat} (h : 36000 ≤ mv ∧ mv < 40000 ∨ 60000 < mv ∧ mv ≤ 64000) :
    exec (.inputVoltageWarn mv) s = if s.open 84 = true then .next (s.report (event 21 unitNone mv)) else .next s := by
  change execInputVoltageWarn mv s = _
  unfold execInputVoltageWarn
  rw [if_neg (by omega), if_neg (by omega)]
  cases s.open 84 <;> rfl

/-! ### Caps and modes (R399, R401, R408) -/

theorem bar0Write_of_failed {s : State} (hl : s.port.linkUp = true) (ho : s.barOpen 0 = true) (hfailed : s.boot.state = 3)
    (k : State → State) : s.bar0Write false k = s := by
  rw [State.bar0Write, barAccess_of_open hl ho]
  exact if_pos (by simp [hfailed])

theorem capChanged_of_same {s : State} {old : Nat} (h : s.pwr.cap = old) : s.capChanged old = s := if_pos h

/-- What the power manager holds after a change of the effective cap; the shares follow a reduction. -/
theorem capChanged_pwr {s : State} {old : Nat} (h : s.pwr.cap ≠ old) : ∃ dies, (s.capChanged old).pwr = { s.pwr with
    updated := true, capChanges := BitVec.ofNat 16 (satAdd 0xFFFF s.pwr.capChanges.toNat 1)
    repStep := if s.pwr.repAuto then repStepOf s.pwr.cap else s.pwr.repStep, dies := dies } := by
  unfold State.capChanged
  dsimp only
  rw [if_neg h, hostInt_keeps State.pwr (fun _ _ _ => rfl) (fun _ _ _ => rfl)]
  exact ⟨_, rfl⟩

theorem capChanged_counts {s : State} {old : Nat} (h : s.pwr.cap ≠ old) : (s.capChanged old).pwr.updated = true ∧
    (s.capChanged old).pwr.capChanges.toNat = min 0xFFFF (s.pwr.capChanges.toNat + 1) ∧
    (s.capChanged old).pwr.repStep = (if s.pwr.repAuto then repStepOf s.pwr.cap else s.pwr.repStep) := by
  obtain ⟨dies, hpwr⟩ := capChanged_pwr h
  rw [hpwr]
  refine ⟨rfl, ?_, rfl⟩
  rw [BitVec.toNat_ofNat, satAdd]
  omega

theorem capChanged_caps (s : State) (old : Nat) : (s.capChanged old).pwr.hostW = s.pwr.hostW ∧
    (s.capChanged old).pwr.packageW = s.pwr.packageW ∧ (s.capChanged old).pwr.clamped = s.pwr.clamped := by
  by_cases h : s.pwr.cap = old
  · rw [capChanged_of_same h]
    exact ⟨rfl, rfl, rfl⟩
  · obtain ⟨dies, hpwr⟩ := capChanged_pwr h
    rw [hpwr]
    exact ⟨rfl, rfl, rfl⟩

theorem setPackageCap_leaves {s : State} {w : Nat} (h : w ≠ 0) : (s.setPackageCap w).pwr.packageW = max 1200 (min 3300 w) ∧
    (s.setPackageCap w).pwr.clamped = (s.pwr.clamped || decide (w < 1200 ∨ 3300 < w)) := by
  have hclamped : decide (clampNat 1200 3300 w ≠ w) = decide (w < 1200 ∨ 3300 < w) :=
    decide_eq_decide.mpr (by unfold clampNat; omega)
  unfold State.setPackageCap
  dsimp only
  rw [if_neg h]
  obtain ⟨-, hpackage, hflag⟩ := capChanged_caps { s with pwr := { s.pwr with
    packageW := clampNat 1200 3300 w, clamped := s.pwr.clamped || decide (clampNat 1200 3300 w ≠ w) } } s.pwr.cap
  exact ⟨hpackage, hflag.trans (by rw [← hclamped])⟩

/-! ### The sideband (R488 to R490) -/

section
variable {s : State} {cmd : Nat} {tag b2 b3 : BitVec 8} {early : Bool} {k : State → Option Bytes × State}

theorem sideband_of_dark (h : s.boot.powered = false ∨ s.open 84 = false) : s.sideband cmd tag b2 b3 early k = .next s :=
  if_pos (by rcases h with h | h <;> simp [h])

variable (hpower : s.boot.powered = true) (hopen : s.open 84 = true)
include hpower hopen

theorem sideband_of_notReady (hrom : s.boot.fwRunning = false) (hlate : early = false) :
    s.sideband cmd tag b2 b3 early k = .next (s.send (.sideband [BitVec.ofNat 8 (cmd + 0x80), tag, 1, 0])) := by
  unfold State.sideband
  rw [if_neg (by simp [hpower, hopen])]
  exact if_pos (by simp [hrom, hlate])

variable (hready : s.boot.fwRunning = true ∨ early = true)
include hready

theorem sideband_of_reserved (h : b2 ≠ 0 ∨ b3 ≠ 0) :
    s.sideband cmd tag b2 b3 early k = .next (s.send (.sideband [BitVec.ofNat 8 (cmd + 0x80), tag, 2, 0])) := by
  unfold State.sideband
  dsimp only
  rw [if_neg (by simp [hpower, hopen]), if_neg (by rcases hready with h | h <;> simp [h]), if_pos h]
  rfl

/-- A request that is served is answered with its results, or with BAD_REQUEST. -/
theorem sideband_of_served (h2 : b2 = 0) (h3 : b3 = 0) : s.sideband cmd tag b2 b3 early k = .next ((k s).2.send (.sideband
    ((k s).1.elim [BitVec.ofNat 8 (cmd + 0x80), tag, 2, 0] ([BitVec.ofNat 8 (cmd + 0x80), tag, 0, 0] ++ ·)))) := by
  unfold State.sideband
  dsimp only
  rw [if_neg (by simp [hpower, hopen]), if_neg (by rcases hready with h | h <;> simp [h]), if_neg (by simp [h2, h3])]
  generalize k s = x
  obtain ⟨_ | bs, u⟩ := x <;> rfl

end

/-- The requests of the sideband by their codes: only SET_CAP is taken before firmware runs. -/
theorem exec_sidebandRow {tag b2 b3 first count : BitVec 8} {w : BitVec 16} {i : Instr} {n : Nat}
    (h : (i, n) ∈ ([(.setCap tag b2 b3 w, 1), (.getStatus tag b2 b3, 2), (.readNightLog tag b2 b3 first count, 3),
      (.getThermal tag b2 b3, 4)] : List (Instr × Nat))) :
    ∃ k, ∀ s, exec i s = s.sideband n tag b2 b3 (decide (n = 1)) k := by
  simp only [List.mem_cons, Prod.mk.injEq, List.not_mem_nil, or_false] at h
  rcases h with ⟨rfl, rfl⟩ | ⟨rfl, rfl⟩ | ⟨rfl, rfl⟩ | ⟨rfl, rfl⟩
  · exact ⟨_, execSetCap.eq_def tag b2 b3 w⟩
  · exact ⟨_, execGetStatus.eq_def tag b2 b3⟩
  · exact ⟨_, execReadNightLog.eq_def tag b2 b3 first count⟩
  · exact ⟨_, execGetThermal.eq_def tag b2 b3⟩

section
variable {s : State} {tag b2 b3 : BitVec 8} (hpower : s.boot.powered = true) (hopen : s.open 84 = true) (h2 : b2 = 0) (h3 : b3 = 0)
include hpower hopen h2 h3

theorem exec_setCap_of_rom (hrom : s.boot.fwRunning = false) (w : BitVec 16) : exec (.setCap tag b2 b3 w) s =
    .next ((if w = 0 then s else { s with pwr := { s.pwr with heldCap := some w.toNat } }).send
      (.sideband ([0x81, tag, 0, 0] ++ natLe s.pwr.cap 2))) := by
  refine (execSetCap.eq_def tag b2 b3 w s).trans ((sideband_of_served hpower hopen (Or.inr rfl) h2 h3).trans ?_)
  have hw : w.toNat = 0 ↔ w = 0 := BitVec.toNat_inj (y := 0)
  dsimp only
  rw [if_neg (by simp [hrom])]
  by_cases h : w = 0
  · rw [if_pos (hw.mpr h), if_pos h]
    rfl
  · rw [if_neg (mt hw.mp h), if_neg h]
    rfl

variable (hfw : s.boot.fwRunning = true)
include hfw

theorem exec_setCap_of_firmware (w : BitVec 16) : exec (.setCap tag b2 b3 w) s = .next ((s.setPackageCap w.toNat).send
    (.sideband ([0x81, tag, 0, 0] ++ natLe (s.setPackageCap w.toNat).pwr.cap 2))) := by
  refine (execSetCap.eq_def tag b2 b3 w s).trans ((sideband_of_served hpower hopen (Or.inr rfl) h2 h3).trans ?_)
  dsimp only
  rw [if_pos hfw]
  rfl

theorem exec_getStatus_of_firmware : exec (.getStatus tag b2 b3) s = .next (s.send (.sideband ([0x82, tag, 0, 0] ++
    (natLe s.flt.status 8 ++ natLe s.flt.alv 8 ++ natLe s.pwrStatus 8 ++ natLe s.devBringup 8)))) :=
  (execGetStatus.eq_def tag b2 b3 s).trans (sideband_of_served hpower hopen (Or.inl hfw) h2 h3)

theorem exec_readNightLog_of_some {first count : BitVec 8} (hfirst : first.toNat < 64) (hlo : 0 < count.toNat) (hhi : count.toNat ≤ 16) :
    exec (.readNightLog tag b2 b3 first count) s = .next (s.send (.sideband ([0x83, tag, 0, 0] ++ (natLe s.flt.nlStatus 8 ++
      (List.range count.toNat).flatMap (fun i => s.flt.slot ((first.toNat + i) % 64)))))) := by
  refine (execReadNightLog.eq_def tag b2 b3 first count s).trans ((sideband_of_served hpower hopen (Or.inl hfw) h2 h3).trans ?_)
  dsimp only
  rw [if_neg (by omega)]
  rfl

theorem exec_readNightLog_of_none {first count : BitVec 8} (h : 64 ≤ first.toNat ∨ count = 0 ∨ 16 < count.toNat) :
    exec (.readNightLog tag b2 b3 first count) s = .next (s.send (.sideband [0x83, tag, 2, 0])) := by
  refine (execReadNightLog.eq_def tag b2 b3 first count s).trans ((sideband_of_served hpower hopen (Or.inl hfw) h2 h3).trans ?_)
  rw [show count = 0 ↔ count.toNat = 0 from (BitVec.toNat_inj (y := 0)).symm] at h
  dsimp only
  rw [if_pos h]
  rfl

theorem exec_getThermal_of_firmware : exec (.getThermal tag b2 b3) s = .next (s.send (.sideband ([0x84, tag, 0, 0] ++
    ((List.range 16).map (fun d => if s.dieUp d then tempByte (s.pwr.hottest (dieIslands d)) else 0x80) ++
      (List.range 4).map (fun h => tempByte (s.pwr.hottest (hubIslands h))) ++
      (List.range 12).map (fun n => if s.boot.stackFailed.contains n then 0x80 else tempByte (s.pwr.temp (100 + n))))))) :=
  (execGetThermal.eq_def tag b2 b3 s).trans (sideband_of_served hpower hopen (Or.inl hfw) h2 h3)

end

/-- Settles O45. An event of a rail from 100 on, which feeds a stack, has no unit (log entry 83); what a failed stack held reads 0 (entry
6). -/
theorem powerReportsAndSettings : Obligations.PowerReportsAndSettings := by
  unfold Obligations.PowerReportsAndSettings
  refine ⟨fun s => ⟨fun rail mw => ?_, fun r temp alert => ?_, fun i temp => ?_, fun d k => ?_, ?_, fun rail word => ?_, ?_, fun mv => ?_,
    rfl, rfl, rfl⟩, fun s => ⟨fun v hl ho => ?_, fun old => ?_, fun w => ?_, fun tag b2 b3 first count w => ?_⟩⟩
  · exact ⟨fun h => ⟨exec_railReport_of_off h mw, exec_telemetryTimeout_of_off h⟩, fun h => ⟨exec_railReport_of_on h mw,
      exec_telemetryTimeout_of_lost h, exec_telemetryTimeout_of_counted h, railMw_of_lost h⟩⟩
  · exact ⟨fun h => exec_sensorRead_of_off h alert, fun h hcool => exec_sensorRead_of_cool h hcool alert,
      fun h hr hhot => exec_sensorRead_of_hot h hr hhot alert⟩
  · refine ⟨fun h => exec_thermalTrip_of_closed h temp, fun h hbusy => ?_, fun h hin => ?_⟩
    · obtain ⟨u, hu, -, hidle⟩ := exec_thermalTrip_of_open h temp
      rw [hu, hidle hbusy]
      exact ⟨fun hout => if_pos hout, fun hin => if_neg (by simp [hin])⟩
    · obtain ⟨u, hu, hboot, -⟩ := exec_thermalTrip_of_open h temp
      have hshut : (tripFatal u).boot = { u.boot with noShutters := true } := enterPc_boot _ 4
      refine ⟨tripFatal u, hu.trans (if_neg (by simp [hin])), ?_, congrArg Boot.noShutters hshut, enterPc_frozen _ 4,
        bit_causeSeen_enterPc _ (by decide) (by decide)⟩
      rw [State.open, hshut]
      show u.boot.islandsOpen.contains i.val = false
      rw [hboot]
      exact tripClosed_open s i temp
  · exact ⟨exec_voltageReached_of_idle, fun _ => exec_voltageReached_of_rise, exec_droopDetect_of_ignored, exec_droopDetect_of_new, rfl⟩
  · exact ⟨exec_shutterWave_of_open, exec_shutterWave_of_closed⟩
  · exact ⟨exec_regFail_of_off, exec_regFail_of_mild, fun h hoff => ⟨exec_regFail_of_island h hoff, exec_regFail_of_stack h hoff,
      fun _ => railOn_regFail h hoff⟩⟩
  · exact ⟨exec_refclkLoss_of_closed, exec_refclkLoss_of_rom, exec_refclkLoss_of_firmware⟩
  · refine ⟨fun h => if_pos h, fun hlo hhi => (if_neg (by omega)).trans (if_pos ⟨hlo, hhi⟩), fun h => ?_⟩
    rw [exec_inputVoltageWarn_of_warned h]
    exact ⟨fun hopen => if_pos hopen, fun hclosed => if_neg (by simp [hclosed])⟩
  · exact ⟨fun hfailed => ⟨congrArg Host.Outcome.next (bar0Write_of_failed hl ho hfailed _),
      congrArg Host.Outcome.next (bar0Write_of_failed hl ho hfailed _)⟩, fun hboot =>
      ⟨congrArg Host.Outcome.next (bar0Write_of_open hl ho hboot _), congrArg Host.Outcome.next (bar0Write_of_open hl ho hboot _)⟩⟩
  · obtain ⟨hhost, hpackage, hclamped⟩ := capChanged_caps s old
    exact ⟨capChanged_of_same, capChanged_counts, hhost, hpackage, hclamped,
      capChanged_keeps State.mem (fun _ _ _ => rfl) (fun _ _ _ => rfl) (fun _ _ => rfl) s old,
      capChanged_keeps State.cores (fun _ _ _ => rfl) (fun _ _ _ => rfl) (fun _ _ => rfl) s old⟩
  · refine ⟨fun h => ?_, if_pos rfl⟩
    obtain ⟨hpackage, hclamped⟩ := setPackageCap_leaves (s := s) h
    exact ⟨hpackage, hclamped, setPackageCap_keeps State.mem (fun _ _ _ => rfl) (fun _ _ _ => rfl) (fun _ _ => rfl) s w⟩
  · refine ⟨fun i n hi => ?_, fun hpower hopen h2 h3 => ⟨fun hrom hw => ?_, fun hrom hw => ?_, fun hfw => ?_⟩⟩
    · obtain ⟨k, hk⟩ := exec_sidebandRow hi
      rw [hk, Nat.add_comm 0x80 n]
      exact ⟨sideband_of_dark, fun hpower hopen => ⟨fun hrom hn => sideband_of_notReady hpower hopen hrom (decide_eq_false hn),
        fun hready => sideband_of_reserved hpower hopen (hready.imp id decide_eq_true)⟩⟩
    · rw [exec_setCap_of_rom hpower hopen h2 h3 hrom, if_neg hw]
    · rw [exec_setCap_of_rom hpower hopen h2 h3 hrom, if_pos hw]
    · exact ⟨exec_setCap_of_firmware hpower hopen h2 h3 hfw w, exec_getStatus_of_firmware hpower hopen h2 h3 hfw,
        exec_readNightLog_of_some hpower hopen h2 h3 hfw, exec_readNightLog_of_none hpower hopen h2 h3 hfw,
        exec_getThermal_of_firmware hpower hopen h2 h3 hfw⟩

end Sys2Proof.Proofs
end

section
/-! PROOFS. The Coelostat pair (R457, R459 to R463, R494): journal frames, HELLO and FINISH, and the mirror's own events. -/

namespace Sys2Proof.Proofs

open Sys2Proof Sys2Proof.Machine

/-! ### What output and journal leave of a pairing (R457, R461) -/

theorem carry_mir (s : State) (f : Nat) (tag : Option Nat) (w : Planned) : (s.carry f tag w).mir = s.mir := by
  have hlines : ((linesOf w.2.1 w.2.2.length).foldl (fun s p =>
      if s.answers p.1 then s.storeLine p.1 (sliceBytes w.2.2 (p.1 - w.2.1) p.2) tag
      else s.report (event 15 (unitHub 3 0) (p.1 / 8 * 8) tag)) s).mir = s.mir := by
    refine foldl_keeps State.mir (fun s p => ?_) _ _
    split
    · exact storeLine_keeps State.mir (fun _ _ => rfl) (fun _ _ => rfl) s ..
    · rfl
  unfold State.carry
  dsimp only
  split
  · rfl
  · split <;> exact hlines

theorem carryAll_mir (s : State) (f : Nat) (tag : Option Nat) (l : List Planned) : (s.carryAll f tag l).mir = s.mir :=
  foldl_keeps State.mir (fun s w => carry_mir s f tag w) l s

theorem carryAll_srv (s : State) (f : Nat) (tag : Option Nat) (l : List Planned) : (s.carryAll f tag l).srv = s.srv :=
  foldl_keeps State.srv (fun s w => carry_srv s f tag w) l s

theorem produce_mir (s : State) (f r : Nat) (c : Completion) : (s.produce f r c).mir = s.mir := by
  unfold State.produce
  split <;> rfl

/-- Output that was held and goes out changes what is held, and nothing else of the mirror or the scheduler. -/
theorem releaseHolds_leaves (n : Nat) (s : State) : (∃ l, (s.releaseHolds n).mir = { s.mir with holds := l }) ∧
    (s.releaseHolds n).srv = s.srv := by
  induction n generalizing s with
  | zero => exact ⟨⟨s.mir.holds, rfl⟩, rfl⟩
  | succ n ih =>
    unfold State.releaseHolds
    split
    · exact ⟨⟨s.mir.holds, rfl⟩, rfl⟩
    next h rest hholds =>
      split
      · exact ⟨⟨s.mir.holds, rfl⟩, rfl⟩
      · extract_lets mirror popped carried
        have hcarried : carried.mir = { s.mir with holds := rest } ∧ carried.srv = s.srv := by
          dsimp only [carried]
          split
          · exact ⟨rfl, rfl⟩
          · exact ⟨carryAll_mir .., carryAll_srv ..⟩
        have hout : ∀ out : State, out.mir = carried.mir → out.srv = carried.srv →
            (∃ l, (out.releaseHolds n).mir = { s.mir with holds := l }) ∧ (out.releaseHolds n).srv = s.srv := by
          intro out hmir hsrv
          obtain ⟨⟨l, hl⟩, hrest⟩ := ih out
          refine ⟨⟨l, ?_⟩, hrest.trans (hsrv.trans hcarried.2)⟩
          rw [hl, hmir, hcarried.1]
        split
        · exact hout _ (produce_mir ..) (produce_srv ..)
        · exact hout _ rfl rfl

/-- What a pairing is known by while it stands, and the contexts that are bound. -/
def pairRegs (s : State) : (MirSt × Option (Nat × Nat × BitVec 16) × Nat × Bytes × Bytes) × List (Nat × Nat) :=
  ((s.mir.st, s.mir.pairPkt, s.mir.nextRecv, s.mir.keyOut, s.mir.keyIn), s.mir.binds)

theorem letGo_pairRegs (s : State) : pairRegs s.letGo = pairRegs s := by
  obtain ⟨⟨l, hmir⟩, -⟩ := releaseHolds_leaves s.mir.holds.length s
  rw [pairRegs, State.letGo, hmir]
  rfl

theorem letGo_srv (s : State) : s.letGo.srv = s.srv := (releaseHolds_leaves s.mir.holds.length s).2

theorem letGo_of_empty {s : State} (h : s.mir.holds = []) : s.letGo = s := by
  rw [State.letGo, h]
  rfl

theorem pushFrames_of_empty {s : State} (h : s.mir.queued = []) : s.pushFrames s.mir.queued.length = s := by
  rw [h]
  rfl

theorem finish_pairRegs (s : State) (f r : Nat) (q : BitVec 16) (st : Nat) (res : Bytes) : pairRegs (s.finish f r q st res) = pairRegs s :=
  finish_keeps pairRegs (fun _ _ _ _ _ _ => rfl) s f r q st res

theorem sendFrame_pairRegs (s : State) (typ : BitVec 8) (tag : Nat) (p : JPayload) : pairRegs (s.sendFrame typ tag p) = pairRegs s :=
  sendFrame_keeps pairRegs (fun _ _ _ _ _ _ => rfl) s typ tag p

theorem journalSeq_pairRegs (s : State) (slot : Nat) : pairRegs (s.journalSeq slot) = pairRegs s := by
  unfold State.journalSeq
  split
  · rfl
  · exact (journal_keeps pairRegs (fun _ _ _ _ _ _ => rfl) ..).trans (journal_keeps pairRegs (fun _ _ _ _ _ _ => rfl) ..)

theorem ltr_mir (s : State) : s.ltr.mir = s.mir := by
  unfold State.ltr
  split
  · rfl
  · unfold State.sendLtr
    dsimp only
    split <;> rfl

theorem endGen_pairRegs (s : State) (slot reason : Nat) : pairRegs (s.endGen slot reason) = pairRegs s := by
  unfold State.endGen
  split
  · rfl
  · split
    · rfl
    · exact finishWith_keeps pairRegs (fun _ _ _ _ _ _ => rfl) ..

theorem failSeq_pairRegs (s : State) (slot reason : Nat) : pairRegs (s.failSeq slot reason) = pairRegs s := by
  unfold State.failSeq
  split
  · rfl
  · rw [pairRegs, ltr_mir, ← pairRegs, journalSeq_pairRegs, endGen_pairRegs]
    rfl

/-! ### States of the pairing (R457, R462) -/

theorem setMirSt_mir (s : State) (st : MirSt) : (s.setMirSt st).mir = { s.mir with st := st } := by
  unfold State.setMirSt
  split
  next h =>
    subst h
    rfl
  · exact hostInt_keeps State.mir (fun _ _ _ => rfl) (fun _ _ _ => rfl) _ 3

theorem pairFail_st (s : State) : s.pairFail.mir.st = .unpaired := by
  unfold State.pairFail
  dsimp only
  split
  · exact congrArg (fun x => x.1.1) (finish_pairRegs s.unpair ..)
  · rfl

theorem copyCtx_pairRegs (s : State) (tag : Nat) : pairRegs (s.copyCtx tag) = pairRegs s := by
  unfold State.copyCtx
  split
  · exact foldl_keeps pairRegs (fun s p => sendFrame_pairRegs s ..) _ _
  · rfl

/-- A context that is bound while the pairing resynchronises leaves the pairing as it is. -/
theorem bindCtx_pairing {s : State} (h : s.mir.st = .resync) (tag peer : Nat) : (pairRegs (s.bindCtx tag peer)).1 = (pairRegs s).1 := by
  unfold State.bindCtx
  extract_lets was bound told
  have hst : bound.mir.st = .resync := h
  have htold : (pairRegs told).1 = (pairRegs s).1 := by
    dsimp only [told]
    rw [sendFrame_pairRegs, State.setMirSt, if_pos hst]
    rfl
  rw [if_neg (by rw [hst]; decide)]
  split
  · exact htold
  · rw [letGo_pairRegs, copyCtx_pairRegs]
    exact htold

theorem foldl_bindCtx_pairing (l : List (Nat × Nat)) {s : State} (h : s.mir.st = .resync) :
    (pairRegs (l.foldl (fun s x => s.bindCtx x.1 x.2) s)).1 = (pairRegs s).1 :=
  List.foldlRecOn (motive := fun t => (pairRegs t).1 = (pairRegs s).1) l _ rfl (fun _ ht x _ =>
    (bindCtx_pairing ((congrArg Prod.fst ht).trans h) x.1 x.2).trans ht)

/-! ### Frames (R459, R460) -/

/-- The state that has moved past a frame. -/
def passedFrame (s : State) (h : FrameHdr) : State := { s with mir := s.mir.took h }

section
variable {s : State} {h : FrameHdr} {typ : Nat} {tagOk : Bool}

/-- A frame out of order, with a wrong header or a failed tag, or without a pairing changes nothing. -/
theorem frame_of_refused (hno : tagOk = false ∨ headerOk h typ = false ∨ h.fseq.toNat ≠ s.mir.nextRecv ∨ s.mir.linked = false ∨
    s.mir.portUp = false) (k : State → Option State) : s.frame h typ tagOk k = .next s := by
  unfold State.frame
  refine if_pos ?_
  rcases hno with hno | hno | hno | hno | hno <;> simp [hno]

theorem applied_of_refused (hno : tagOk = false ∨ headerOk h typ = false ∨ h.fseq.toNat ≠ s.mir.nextRecv ∨ s.mir.linked = false ∨
    s.mir.portUp = false) (k : Nat → State → Option State) : s.applied h typ tagOk k = .next s :=
  frame_of_refused hno _

variable (htag : tagOk = true) (hnext : h.fseq.toNat = s.mir.nextRecv) (hlinked : s.mir.linked = true) (hup : s.mir.portUp = true)
  (hheader : headerOk h typ = true)
include htag hnext hlinked hup hheader

theorem frame_of_taken {k : State → Option State} {u : State} (hk : k (passedFrame s h) = some u) : s.frame h typ tagOk k = .next u := by
  unfold State.frame
  rw [if_neg (by simp [htag, hnext, hlinked, hup, hheader]), show k { s with mir := s.mir.took h } = some u from hk]

theorem applied_of_bound (hrole : s.mir.role = true) (hpeer : (s.peerTag (h.ctx.toNat % 2 ^ 12)).isSome = true)
    {k : Nat → State → Option State} {u : State} (hk : k (h.ctx.toNat % 2 ^ 12) (passedFrame s h) = some u) :
    s.applied h typ tagOk k = .next u := by
  refine frame_of_taken htag hnext hlinked hup hheader ?_
  have hrole' : (passedFrame s h).mir.role = true := hrole
  have hpeer' : ((passedFrame s h).peerTag (h.ctx.toNat % 2 ^ 12)).isSome = true := hpeer
  rw [hrole', hpeer']
  exact hk

end

/-- The rows of the journal's frames, refused. -/
theorem exec_frameRow_of_refused {h : FrameHdr} {tagOk : Bool} {pl : JPayload} {avail : List Nat} {i : Instr} {typ : Nat}
    (hrow : (i, typ) ∈ ([(.bind h tagOk pl, 3), (.commandFrame h tagOk pl, 4), (.sequenceFrame h tagOk pl, 5),
      (.kvFrame h tagOk pl avail, 6), (.samplerFrame h tagOk pl, 7), (.sessionFrame h tagOk pl, 8), (.commitFrame h tagOk pl, 9),
      (.resyncFrame h tagOk pl avail, 10), (.ack h tagOk pl, 11), (.takeover h tagOk pl, 12)] : List (Instr × Nat))) {s : State}
    (hno : tagOk = false ∨ headerOk h typ = false ∨ h.fseq.toNat ≠ s.mir.nextRecv ∨ s.mir.linked = false ∨ s.mir.portUp = false) :
    exec i s = .next s := by
  simp only [List.mem_cons, Prod.mk.injEq, List.not_mem_nil, or_false] at hrow
  rcases hrow with ⟨rfl, rfl⟩ | ⟨rfl, rfl⟩ | ⟨rfl, rfl⟩ | ⟨rfl, rfl⟩ | ⟨rfl, rfl⟩ | ⟨rfl, rfl⟩ | ⟨rfl, rfl⟩ | ⟨rfl, rfl⟩ | ⟨rfl, rfl⟩ |
    ⟨rfl, rfl⟩
  · exact (execBind.eq_def ..).trans (frame_of_refused hno _)
  · exact (execCommandFrame.eq_def ..).trans (applied_of_refused hno _)
  · exact (execSequenceFrame.eq_def ..).trans (applied_of_refused hno _)
  · exact (execKvFrame.eq_def ..).trans (applied_of_refused hno _)
  · exact (execSamplerFrame.eq_def ..).trans (applied_of_refused hno _)
  · exact (execSessionFrame.eq_def ..).trans (applied_of_refused hno _)
  · exact (execCommitFrame.eq_def ..).trans (applied_of_refused hno _)
  · exact (execResyncFrame.eq_def ..).trans (applied_of_refused hno _)
  · exact (execAck.eq_def ..).trans (frame_of_refused hno _)
  · exact (execTakeover.eq_def h tagOk pl s).trans (frame_of_refused hno _)

section
variable {s : State} {h : FrameHdr} {tagOk : Bool} (htag : tagOk = true) (hnext : h.fseq.toNat = s.mir.nextRecv)
  (hlinked : s.mir.linked = true) (hup : s.mir.portUp = true)
include htag hnext hlinked hup

/-! ### What the standby applies -/

section
variable (hrole : s.mir.role = true) (hpeer : (s.peerTag (h.ctx.toNat % 2 ^ 12)).isSome = true)
include hrole hpeer

theorem exec_sequenceFrame_of_bound (hheader : headerOk h 5 = true) (slot : BitVec 15) (m : MirSeq) :
    exec (.sequenceFrame h tagOk (.sequence slot m)) s = .next ((passedFrame s h).mirrorSeq (h.ctx.toNat % 2 ^ 12) slot.toNat m) :=
  (execSequenceFrame.eq_def h tagOk (.sequence slot m) s).trans (applied_of_bound htag hnext hlinked hup hheader hrole hpeer rfl)

theorem exec_samplerFrame_of_bound (hheader : headerOk h 7 = true) {slot : BitVec 15} {key : Bytes} {x : Sequence}
    (hx : s.seq slot.toNat = some x) (hctx : x.ctx = h.ctx.toNat % 2 ^ 12) : exec (.samplerFrame h tagOk (.sampler slot key)) s =
    .next ((passedFrame s h).putSeq slot.toNat { x with key := key }) := by
  refine (execSamplerFrame.eq_def h tagOk (.sampler slot key) s).trans
    (applied_of_bound htag hnext hlinked hup hheader hrole hpeer (congrArg some ?_))
  unfold State.mirrorKey
  rw [show (passedFrame s h).seq slot.toNat = some x from hx]
  exact if_pos hctx

theorem exec_sessionFrame_of_bound (hheader : headerOk h 8 = true) (p : JPayload) :
    exec (.sessionFrame h tagOk p) s = .next ((passedFrame s h).mirrorSession (h.ctx.toNat % 2 ^ 12) p) :=
  (execSessionFrame.eq_def h tagOk p s).trans (applied_of_bound htag hnext hlinked hup hheader hrole hpeer rfl)

theorem exec_commitFrame_of_bound (hheader : headerOk h 9 = true) {slot : BitVec 15} {l : List Nat} {x : Sequence}
    (hx : s.seq slot.toNat = some x) (hctx : x.ctx = h.ctx.toNat % 2 ^ 12) (hl : l ≠ []) :
    exec (.commitFrame h tagOk (.commit [(slot, l)])) s = .next ((passedFrame s h).putSeq slot.toNat
      { x with history := x.history ++ l, stored := x.history.length + l.length - 1 }) := by
  refine (execCommitFrame.eq_def h tagOk (.commit [(slot, l)]) s).trans
    (applied_of_bound htag hnext hlinked hup hheader hrole hpeer (congrArg some ?_))
  rw [State.mirrorCommit, List.foldl_cons, List.foldl_nil]
  dsimp only
  rw [show (passedFrame s h).seq slot.toNat = some x from hx]
  exact if_neg (by simp [hctx, hl])

theorem exec_kvFrame_of_bound (hheader : headerOk h 6 = true) {slot : BitVec 15} {ring : Bool} {page off : Nat} {data : Bytes}
    {avail : List Nat} {u : State} (hu : (passedFrame s h).mirrorKv (h.ctx.toNat % 2 ^ 12) slot.toNat ring page off data avail = some u) :
    exec (.kvFrame h tagOk (.kv slot ring page off data) avail) s = .next u :=
  (execKvFrame.eq_def h tagOk (.kv slot ring page off data) avail s).trans (applied_of_bound htag hnext hlinked hup hheader hrole hpeer hu)

theorem exec_commandFrame_of_bound (hheader : headerOk h 4 = true) {b : Bytes} (hop : fieldLe b 0 1 ≠ 0x60) :
    exec (.commandFrame h tagOk (.command b)) s = .next (passedFrame s h) :=
  (execCommandFrame.eq_def h tagOk (.command b) s).trans (applied_of_bound htag hnext hlinked hup hheader hrole hpeer (if_neg (fun hc => hop hc.1)))

theorem exec_resyncFrame_of_bound (hheader : headerOk h 10 = true) (slot : BitVec 15) (m : MirSeq) (avail : List Nat) :
    exec (.resyncFrame h tagOk (.sequence slot m) avail) s =
      .next (((passedFrame s h).setMirSt .resync).mirrorSeq (h.ctx.toNat % 2 ^ 12) slot.toNat m) :=
  (execResyncFrame.eq_def h tagOk (.sequence slot m) avail s).trans (applied_of_bound htag hnext hlinked hup hheader hrole hpeer rfl)

end

/-! ### BIND, ACK and TAKEOVER -/

theorem exec_bind_of_new (hheader : headerOk h 3 = true) (hrole : s.mir.role = true) (hst : s.mir.st ≠ .broken)
    (hnew : (s.peerTag h.ctx.toNat).isSome = false) (hroom : s.mir.binds.length < 64) (peer : BitVec 12) :
    ∃ u, exec (.bind h tagOk (.bind peer)) s = .next u ∧ mapFind u.mir.binds h.ctx.toNat = some peer.toNat ∧ u.mir.st = .resync ∧
      u.srv = s.srv := by
  let bound : State := { passedFrame s h with mir := { (passedFrame s h).mir with binds := mapPut s.mir.binds h.ctx.toNat peer.toNat } }
  refine ⟨bound.setMirSt .resync, (execBind.eq_def h tagOk (.bind peer) s).trans
    (frame_of_taken htag hnext hlinked hup hheader ?_),
    ?_, ?_, setMirSt_srv ..⟩
  · refine if_neg ?_
    have hroom' : ¬ 64 ≤ s.mir.binds.length := by omega
    show ¬ ((s.peerTag h.ctx.toNat).isSome || decide (64 ≤ s.mir.binds.length) || decide (s.mir.st = .broken) || !s.mir.role) = true
    simp [hrole, hst, hnew, hroom']
  · rw [setMirSt_mir]
    exact (mapFind_mapPut ..).trans (if_pos rfl)
  · rw [setMirSt_mir]

theorem exec_ack_of_quiet (hheader : headerOk h 11 = true) (hrole : s.mir.role = false) (hqueued : s.mir.queued = [])
    (hholds : s.mir.holds = []) (n : BitVec 64) : exec (.ack h tagOk (.ack n)) s = .next { s with mir := { s.mir.took h with
      acked := max s.mir.acked n.toNat, unacked := s.mir.unacked.filter (fun x => n.toNat < x.fseq) } } := by
  refine (execAck.eq_def h tagOk (.ack n) s).trans (frame_of_taken htag hnext hlinked hup hheader ?_)
  have hacked : (s.mir.took h).acked = s.mir.acked := if_neg (by simp [hrole])
  let freed : State := { s with mir := { s.mir.took h with
    acked := max (s.mir.took h).acked n.toNat, unacked := s.mir.unacked.filter (fun x => n.toNat < x.fseq) } }
  have hfreed : (freed.pushFrames freed.mir.queued.length).letGo = freed := by
    rw [pushFrames_of_empty (s := freed) hqueued, letGo_of_empty (s := freed) hholds]
  rw [← hacked]
  exact (if_neg (c := s.mir.role = true) (by simp [hrole])).trans (congrArg some hfreed)

theorem exec_takeover_of_primary (hheader : headerOk h 12 = true) (hrole : s.mir.role = false) (pl : JPayload) :
    ∃ u, exec (.takeover h tagOk pl) s = .next u ∧ u.mir.st = .unpaired ∧ u.mir.binds = [] := by
  have htaken := fun (k : State → Option State) (u : State) => frame_of_taken (k := k) (u := u) htag hnext hlinked hup hheader
  obtain ⟨u, hu, hregs⟩ : ∃ u, exec (.takeover h tagOk pl) s = .next u ∧ ∃ t : State, pairRegs u = pairRegs t.unpair := by
    refine ⟨_, (execTakeover.eq_def h tagOk pl s).trans (htaken _ _ (if_neg (by rw [show (passedFrame s h).mir.role = false from hrole]; decide))),
      _, foldl_keeps pairRegs (fun s x => ?_) _ _⟩
    split
    · exact failSeq_pairRegs ..
    · rfl
  obtain ⟨t, ht⟩ := hregs
  exact ⟨u, hu, congrArg (fun x => x.1.1) ht, congrArg Prod.snd ht⟩

end

/-! ### HELLO and FINISH (R457) -/

section
variable {s : State} {h : FrameHdr} (hup : s.mir.portUp = true)
include hup

theorem exec_hello_of_unpaired (hheader : headerOk h 1 = true) (hseq : h.fseq = 0) (hnext : s.mir.nextRecv = 0)
    (hst : s.mir.st = .unpaired) (b : HelloBody) : exec (.hello h b) s =
    .next { s with mir := { s.mir with peer := some b, nextRecv := 1, received := frameBytes h.length.toNat } } := by
  change execHello h b s = _
  unfold execHello
  dsimp only
  rw [if_neg (by simp [hup, hheader, hseq, hnext, hst]), if_neg (by rw [hst]; decide)]

variable {b : HelloBody} (hpeer : s.mir.peer = some b) (hst : s.mir.st = .pairing) (hheader : headerOk h 2 = true) (hseq : h.fseq = 1)
  (hnext : s.mir.nextRecv = 1)
include hpeer hst hheader hseq hnext

theorem exec_finish_of_badSignature : exec (.finish h false) s = .next s.pairFail := by
  change execFinish h false s = _
  unfold execFinish
  dsimp only
  rw [hpeer]
  dsimp only
  rw [if_neg (by simp [hup, hst, hheader, hseq, hnext])]
  rfl

/-- The journal keys of the pairing, by this device's role. -/
def pairKeys (s : State) (b : HelloBody) (z : Bytes) : Bytes × Bytes :=
  if s.mir.role then journalKeys z b.nonce s.mir.nonce else journalKeys z s.mir.nonce b.nonce

theorem exec_finish_of_goodSignature {z : Bytes} (hz : ecdhX s.mir.ephPriv b.ephPub = some z) :
    ∃ u, exec (.finish h true) s = .next u ∧ (pairRegs u).1 = (.resync, none, 2,
      if s.mir.role then (pairKeys s b z).2 else (pairKeys s b z).1, if s.mir.role then (pairKeys s b z).1 else (pairKeys s b z).2) := by
  change ∃ u, execFinish h true s = .next u ∧ _
  unfold execFinish
  dsimp only
  rw [hpeer]
  dsimp only
  rw [if_neg (by simp [hup, hst, hheader, hseq, hnext]), hz]
  let keyed : State := { s with mir := { s.mir.took h with
    keyOut := if s.mir.role then (pairKeys s b z).2 else (pairKeys s b z).1
    keyIn := if s.mir.role then (pairKeys s b z).1 else (pairKeys s b z).2
    pairPkt := none } }
  let bound : State := s.mir.binds.foldl (fun s x => s.bindCtx x.1 x.2) (keyed.setMirSt .resync)
  have hst' : (keyed.setMirSt .resync).mir.st = .resync := by rw [setMirSt_mir]
  have hbound : (pairRegs bound).1 = (.resync, none, 2, keyed.mir.keyOut, keyed.mir.keyIn) := by
    rw [foldl_bindCtx_pairing _ hst', pairRegs, setMirSt_mir]
    show (MirSt.resync, none, s.mir.nextRecv + 1, _, _) = _
    rw [hnext]
  refine ⟨_, rfl, ?_⟩
  split
  · rw [finish_pairRegs]
    exact hbound
  · exact hbound

end

theorem journalKeys_append (z p q : Bytes) : (journalKeys z p q).1 ++ (journalKeys z p q).2 = hkdf384 (p ++ q) z (ascii "AZG-JRNL-1") 64 :=
  List.take_append_drop 32 _

/-- Settles O50. A HELLO that arrives before the local PAIR is kept for it (log entry 90); a frame out of order is dropped, and a COMMAND
frame changes nothing but for SEAL_SESSION (entry 94). -/
theorem mirrorFramesAndKeys : Obligations.MirrorFramesAndKeys := by
  unfold Obligations.MirrorFramesAndKeys
  refine ⟨fun h tagOk pl avail s => ⟨fun i typ hrow hno => exec_frameRow_of_refused hrow hno, fun htag hnext hlinked hup =>
    ⟨fun hrole hpeer => ?_, fun peer hheader hrole hst hnew hroom => ?_, fun n hheader hrole hqueued hholds => ?_, fun hheader hrole => ?_⟩,
    fun b hup hheader hseq hnext hst => exec_hello_of_unpaired hup hheader hseq hnext hst b,
    fun b hpeer hup hst hheader hseq hnext => ⟨exec_finish_of_badSignature hup hpeer hst hheader hseq hnext, pairFail_st s⟩, rfl⟩,
    fun h s b z hpeer hup hst hheader hseq hnext hz => ?_⟩
  · exact ⟨fun slot m hheader => exec_sequenceFrame_of_bound htag hnext hlinked hup hrole hpeer hheader slot m,
      fun slot key x hheader hx hctx => exec_samplerFrame_of_bound htag hnext hlinked hup hrole hpeer hheader hx hctx,
      fun m hheader => exec_sessionFrame_of_bound htag hnext hlinked hup hrole hpeer hheader (.session m),
      fun slot x l hheader hx hctx hl => exec_commitFrame_of_bound htag hnext hlinked hup hrole hpeer hheader hx hctx hl,
      fun slot ring page off data u hheader hu => exec_kvFrame_of_bound htag hnext hlinked hup hrole hpeer hheader hu,
      fun b hheader hop => exec_commandFrame_of_bound htag hnext hlinked hup hrole hpeer hheader hop,
      fun slot m hheader => exec_resyncFrame_of_bound htag hnext hlinked hup hrole hpeer hheader slot m avail⟩
  · exact exec_bind_of_new htag hnext hlinked hup hheader hrole hst hnew hroom peer
  · exact exec_ack_of_quiet htag hnext hlinked hup hheader hrole hqueued hholds n
  · exact exec_takeover_of_primary htag hnext hlinked hup hheader hrole pl
  · obtain ⟨u, hu, hregs⟩ := exec_finish_of_goodSignature hup hpeer hst hheader hseq hnext hz
    simp only [pairRegs, Prod.mk.injEq] at hregs
    obtain ⟨hresync, hpkt, hrecv, hout, hin⟩ := hregs
    refine ⟨u, hu, hresync, hpkt, hrecv, hout, hin, ?_⟩
    cases s.mir.role with
    | true => exact journalKeys_append z b.nonce s.mir.nonce
    | false => exact journalKeys_append z s.mir.nonce b.nonce

end Sys2Proof.Proofs
end

section
/-! PROOFS. The mirror's own events (R460 to R462, R494). -/

namespace Sys2Proof.Proofs

open Sys2Proof Sys2Proof.Machine

section
variable {s : State}

theorem exec_ackTimer_of_linked (hlinked : s.mir.linked = true) (hup : s.mir.portUp = true) : exec .ackTimer s =
    .next (s.sendFrame 11 ((s.mir.binds.head?.map (·.2)).getD 0) (.ack (BitVec.ofNat 64 (s.mir.nextRecv - 1)))) :=
  if_neg (by simp [hlinked, hup])

/-- What is sent again is what the peer has not acknowledged; source 30 counts it. -/
theorem exec_journalResend_of_unacked (hrole : s.mir.role = false) (hup : s.mir.portUp = true)
    (hst : s.mir.st = .resync ∨ s.mir.st = .mirroring) (hunacked : s.mir.unacked ≠ []) : exec .journalResend s =
    .next (({ s with out := s.out ++ s.mir.unacked.map (fun (x : JFrame) => OutMsg.frame x.typ x.tag x.fseq x.offset x.payload) } :
      State).mirrorEvent s.mir.unacked.length false) := by
  change execJournalResend s = _
  unfold execJournalResend
  exact if_neg (by rcases hst with hst | hst <;> simp [hrole, hup, hst, hunacked])

theorem exec_mirrorSilence_of_live (hst : s.mir.st = .resync ∨ s.mir.st = .mirroring) : exec .mirrorSilence s =
    .next (((s.setMirSt .broken).mirrorEvent 0 true).letGo) :=
  if_pos hst

theorem exec_resyncComplete_of_done (hst : s.mir.st = .resync)
    (hdone : s.mir.role = true ∨ s.mir.queued = [] ∧ ∀ x ∈ s.mir.unacked, x.typ ≠ 10) :
    exec .resyncComplete s = .next ((s.setMirSt .mirroring).letGo) := by
  change execResyncComplete s = _
  unfold execResyncComplete
  refine if_pos ⟨hst, ?_⟩
  rcases hdone with hrole | ⟨hqueued, hunacked⟩
  · simp [hrole]
  · have hall : s.mir.unacked.all (fun x => decide (x.typ ≠ 10)) = true :=
      List.all_eq_true.mpr (fun x hx => decide_eq_true (hunacked x hx))
    rw [hqueued, hall]
    simp

theorem exec_receiveWindowOverrun_of_linked (h : s.mir.linked = true) : exec .receiveWindowOverrun s =
    .next (({ s with mir := { s.mir with overrun := true } } : State).mirrorEvent 0 false) :=
  if_pos h

end

/-- The mirror port stays up while one pair of lanes is whole. -/
theorem laneLockLoss_portUp (up : Bool) (down : List Nat) :
    (up && ((!down.contains 0 && !down.contains 1) || (!down.contains 2 && !down.contains 3))) = true ↔ up = true ∧
      ((down.contains 0 = false ∧ down.contains 1 = false) ∨ (down.contains 2 = false ∧ down.contains 3 = false)) := by
  simp only [Bool.and_eq_true, Bool.or_eq_true, Bool.not_eq_true']

/-- Settles O51. Silence breaks a pairing only once its handshake is over (log entry 90); lanes that are lost do not come back, and a
resynchronisation is over when its last frame is acknowledged (entry 95). -/
theorem mirrorUpkeep : Obligations.MirrorUpkeep := by
  unfold Obligations.MirrorUpkeep
  intro s
  refine ⟨exec_ackTimer_of_linked, fun hrole hup hst hunacked => ⟨_, exec_journalResend_of_unacked hrole hup hst hunacked, rfl, rfl⟩,
    fun hst => ⟨_, exec_mirrorSilence_of_live hst, ?_, ?_, ?_⟩, fun hresync hmirror => if_neg (by simp [hresync, hmirror]),
    fun hst hdone => ⟨_, exec_resyncComplete_of_done hst hdone, ?_⟩, fun h => ⟨_, exec_receiveWindowOverrun_of_linked h, rfl⟩,
    fun lane => ⟨_, rfl, contains_setAdd_self .., laneLockLoss_portUp .., rfl⟩⟩
  · refine (congrArg (fun x => x.1.1) (letGo_pairRegs _)).trans ?_
    show (s.setMirSt .broken).mir.st = _
    rw [setMirSt_mir]
  · refine (congrArg Prod.snd (letGo_pairRegs _)).trans ?_
    show (s.setMirSt .broken).mir.binds = _
    rw [setMirSt_mir]
  · rw [letGo_srv]
    exact congrArg Srv.seqs (setMirSt_srv s .broken)
  · refine (congrArg (fun x => x.1.1) (letGo_pairRegs _)).trans ?_
    show (s.setMirSt .mirroring).mir.st = _
    rw [setMirSt_mir]

end Sys2Proof.Proofs
end
